-- ==== Sys2Proof/Word.lean ====
section
/-! DEFINITION. The word types of the part (00_scope.md section 3.1) and the small closed sets of names that several files share. -/

namespace Sys2Proof

/-- One byte of a frame on either link. -/
abbrev Byte := BitVec 8

/-- A time stamp: the free-running 32-bit counter of 1 µs steps, which wraps (00_scope.md section 3.1). -/
abbrev Time := BitVec 32

/-- A record sequence, 0 to 2^32 - 1, which runs on modulo 2^32 (R83). -/
abbrev Seq := BitVec 32

/-- A sensor head on the head link; head address a (1-8) is the number a - 1 here. -/
abbrev Head := Fin 8

/-- A parameter by its index (00_scope.md section 3.4). -/
abbrev Param := Fin 8

/-- A (parameter, polarity) pair by its number, parameter × 2 + polarity (R197). -/
abbrev Pair := Fin 16

/-- One of the 24 tracker slots (R124). -/
abbrev SlotNo := Fin 24

/-- The two axle encoders (R41). -/
inductive Encoder where
  | e1
  | e2
deriving DecidableEq, Repr

/-- The travel direction (00_scope.md section 3.2). -/
inductive Direction where
  | up
  | down
deriving DecidableEq, Repr

/-- The step sense: which sign of encoder step is movement ahead (R42). -/
inductive Sense where
  | aheadPositive
  | aheadNegative
deriving DecidableEq, Repr

/-- The sign of a parameter value (00_scope.md section 3.4). -/
inductive Polarity where
  | plus
  | minus
deriving DecidableEq, Repr

/-- The four outbound queues of the recorder link (R170). -/
inductive QueueId where
  | control
  | xr
  | gr
  | mirror
deriving DecidableEq, Repr

end Sys2Proof
end

