-- ==== Sys2Proof/Config.lean ====
section
/-! DEFINITION. What an implementation fixes (the capacities of R184) and the free values: constants with no body, of which no proof can see a value. -/

namespace Sys2Proof

/-- The silicon revision number that IDENTIFY returns (R184). The manual gives no number: a free value (log 9). -/
opaque Config.siliconRevision : Byte

/-- The code of the step sense in a READ STATE ODOMETRY reply (R57). Section 12.3 lists none: a free value (log 18). -/
opaque Config.senseCode : Sense → Byte

/-- The code by which READ STATE RECORDER LINK names the queue the frame in transmission came from (R175). Section 12.3 lists none: a free value (log 18). -/
opaque Config.queueCode : QueueId → Byte

/-- The credit of a CREDIT frame that passes its check with a body that is not one byte long. R169 gives a CREDIT frame one byte and says nothing of others: a free value (log 38). -/
opaque Config.oddCredit : List Byte → Byte

/-- The part number of R184. -/
def Config.partNumber : Nat := 418
/-- Entries of the route list (R59). -/
def Config.routeCapacity : Nat := 128
/-- Entries of the section list (R106). -/
def Config.sectionCapacity : Nat := 64
/-- Rows of the limit table (R115). -/
def Config.limitRows : Nat := 64
/-- Entries of the trace window (R83). -/
def Config.windowCapacity : Nat := 256
/-- Entries of the control queue (R171). -/
def Config.controlCapacity : Nat := 16
/-- Filled non-urgent entries plus reservations at which a reservation is still made (R171). -/
def Config.nonUrgentMark : Nat := 11
/-- Entries of the XR queue (R172). -/
def Config.xrCapacity : Nat := 32
/-- Entries of the GR queue (R173). -/
def Config.grCapacity : Nat := 64
/-- Entries of the mirror queue (R174). -/
def Config.mirrorCapacity : Nat := 8
/-- Bodies of the inbound order buffer (R178). -/
def Config.bufferCapacity : Nat := 4
/-- The value at which a 32-bit counter stays (R194). -/
def Config.counterTop : Nat := 4294967295
/-- The twelve capacities in the order of R184. -/
def Config.capacities : List Nat :=
  [8, 7, 24, Config.routeCapacity, Config.sectionCapacity, Config.limitRows, Config.windowCapacity,
   Config.controlCapacity, Config.xrCapacity, Config.grCapacity, Config.mirrorCapacity, Config.bufferCapacity]

end Sys2Proof
end

