-- ==== Sys2Proof/Syntax.lean ====
section
/-! DEFINITION. The commands of the block: one constructor per row of spec/opcode_table.json, with the row's operands. -/

namespace Sys2Proof

/-- A line character of either link, by its class (R1, R198 and the table after it). -/
inductive LineChar where
  /-- FRAME START. -/
  | frameStart
  /-- FRAME END. -/
  | frameEnd
  /-- IDLE. -/
  | idle
  /-- A data character and its byte. -/
  | data (b : Byte)
  /-- A character that is none of the other four. -/
  | violation
deriving DecidableEq, Repr

/-- What puts the part into hard reset (R198, 00_scope.md section 3.6). -/
inductive ResetCause where
  /-- Power is applied. -/
  | powerOn
  /-- RESET_N goes low and, `nanoseconds` later, high again: the pulse with both its edges. -/
  | pulse (nanoseconds : Nat)
  /-- RESET_N goes low and stays low, until RESET_N_RISING_EDGE. -/
  | heldLow
deriving DecidableEq, Repr

/-- The commands. The characters of a frame row are those that follow the frame's FRAME START, up to the character that ends the frame. The order rows carry no operands: the order they take, with its tag and parameters, is the body at the head of the inbound order buffer (R179; log 4). -/
inductive Instr where
  /-- HARD_RESET (R198). -/
  | hardReset (cause : ResetCause)
  /-- HEAD_LINK_CHARACTER (R1): the ten bits of one recovered line character. -/
  | headLinkCharacter (line : BitVec 10)
  /-- HEAD_LINK_LOSS_OF_SIGNAL (R1). -/
  | headLinkLossOfSignal
  /-- HEAD_LINK_LOCK (R3). -/
  | headLinkLock
  /-- SAMPLE_FRAME (R17). -/
  | sampleFrame (chars : List LineChar)
  /-- MARKER_FRAME (R20). -/
  | markerFrame (chars : List LineChar)
  /-- STATUS_FRAME (R18). -/
  | statusFrame (chars : List LineChar)
  /-- REPLY_FRAME (R23). -/
  | replyFrame (chars : List LineChar)
  /-- WATCHDOG_EXPIRY (R14) of one head. -/
  | watchdogExpiry (head : Head)
  /-- FRESHNESS_DEADLINE (R29) of one head's held sample frame. -/
  | freshnessDeadline (head : Head)
  /-- RELAY_FRAME_SENT (R22). -/
  | relayFrameSent
  /-- RELAY_TIMEOUT (R24). -/
  | relayTimeout
  /-- ENCODER_STEP (R41): the levels that the two phase lines of a channel now have. -/
  | encoderStep (channel : Encoder) (phaseA phaseB : Bool)
  /-- TICK (R46). -/
  | tick
  /-- CLOSE_LENGTH_REACHED (R132) of one slot. -/
  | closeLengthReached (slot : SlotNo)
  /-- MERGE_GAP_EXCEEDED (R133) of one slot. -/
  | mergeGapExceeded (slot : SlotNo)
  /-- WATCH_POINT (R50). -/
  | watchPoint
  /-- REVERSAL (R49). -/
  | reversal
  /-- HISTORY_EXPIRY (R56). -/
  | historyExpiry
  /-- FIX_VALIDITY_EXCEEDED (R68). -/
  | fixValidityExceeded
  /-- PARK_TIMER_EXPIRY (R157). -/
  | parkTimerExpiry
  /-- RECORDER_LINK_CHARACTER (R165): the ten bits of one recovered line character. -/
  | recorderLinkCharacter (line : BitVec 10)
  /-- RECORDER_LOSS_OF_SIGNAL (R165). -/
  | recorderLossOfSignal
  /-- RECORDER_LINK_UP (R165). -/
  | recorderLinkUp
  /-- ORDER_FRAME (R178). -/
  | orderFrame (chars : List LineChar)
  /-- CREDIT_FRAME (R169). -/
  | creditFrame (chars : List LineChar)
  /-- UNKNOWN_KIND (R168). -/
  | unknownKind (chars : List LineChar)
  /-- ARBITER_START (R170). -/
  | arbiterStart
  /-- FRAME_LEAVING (R170). `owedFirst` says whether an owed urgent notice is taken before the reservation or status notice that comes together with the leaving (R171). -/
  | frameLeaving (owedFirst : Bool)
  /-- UNKNOWN_ORDER (R180). -/
  | unknownOrder
  /-- IDENTIFY (R184). -/
  | identify
  /-- SET (R182), of any setting. -/
  | set
  /-- SET_RECORD_SPACING (R47). -/
  | setRecordSpacing
  /-- SET_HEAD_SHAPE (R15). -/
  | setHeadShape
  /-- SET_LEAD_ENCODER (R54). -/
  | setLeadEncoder
  /-- SET_FIX_VALIDITY_DISTANCE (R68). -/
  | setFixValidityDistance
  /-- SET_ROUTE_LOW_WATER (R64). -/
  | setRouteLowWater
  /-- SET_SECTION_LOW_WATER (R112). -/
  | setSectionLowWater
  /-- GET (R183). -/
  | get
  /-- START_RUN (R153). -/
  | startRun
  /-- STOP_RUN (R161). -/
  | stopRun
  /-- SET_POSITION (R79). -/
  | setPosition
  /-- APPEND_ROUTE (R60). -/
  | appendRoute
  /-- APPEND_SECTIONS (R107). -/
  | appendSections
  /-- CLEAR_LISTS (R61). -/
  | clearLists
  /-- WRITE_LIMITS (R119). -/
  | writeLimits
  /-- READ_LIMITS (R121). -/
  | readLimits
  /-- WRITE_INPUT_MAP (R37). -/
  | writeInputMap
  /-- READ_INPUT_MAP (R38). -/
  | readInputMap
  /-- READ_STATE (R185). -/
  | readState
  /-- READ_COUNTERS (R194). -/
  | readCounters
  /-- READ_EVENTS (R193). -/
  | readEvents
  /-- SET_NOTICE_MASK (R192). -/
  | setNoticeMask
  /-- RESTORE_HEAD (R186). -/
  | restoreHead
  /-- HEAD_ORDER (R187). -/
  | headOrder
  /-- RESTART (R188). -/
  | restart
  /-- RESET_N_RISING_EDGE (R198). -/
  | resetNRisingEdge
deriving DecidableEq, Repr

end Sys2Proof
end

