-- ==== Sys2Proof/Decode.lean ====
section
/-! DEFINITION. From bits to things: line characters (the tables after R198), byte strings as numbers, the CRC (00_scope.md section 3.3), the head frame header and its check code (R196, R6), and the commands that the table gives bits (none). -/

namespace Sys2Proof

/-- The class and content of a line character (the table after R198). -/
def lineCharOf (line : BitVec 10) : LineChar :=
  let content : Byte := line.extractLsb' 0 8
  let cls : BitVec 2 := line.extractLsb' 8 2
  if cls = 0b01#2 then .data content
  else if cls = 0b10#2 then
    if content = 0b01010101#8 then .idle
    else if content = 0b11110000#8 then .frameStart
    else if content = 0b00001111#8 then .frameEnd
    else .violation
  else .violation

/-- The number that bytes spell, most significant byte first (00_scope.md section 3.3). -/
def natOfBytes (bs : List Byte) : Nat :=
  bs.foldl (fun n b => n * 256 + b.toNat) 0

/-- The two's complement number that bytes spell, most significant byte first. -/
def intOfBytes (bs : List Byte) : Int :=
  let n := natOfBytes bs
  if 2 * n < 256 ^ bs.length then (n : Int) else (n : Int) - ((256 ^ bs.length : Nat) : Int)

/-- `n` in `k` bytes, most significant byte first, modulo 256^k. -/
def bytesOfNat : Nat → Nat → List Byte
  | 0, _ => []
  | k + 1, n => bytesOfNat k (n / 256) ++ [BitVec.ofNat 8 n]

/-- `z` in `k` bytes of two's complement, most significant byte first. -/
def bytesOfInt (k : Nat) (z : Int) : List Byte :=
  bytesOfNat k (z % ((256 ^ k : Nat) : Int)).toNat

/-- One bit shifted into the CRC register of polynomial x^16 + x^12 + x^5 + 1, most significant bit first. -/
def crcShift (crc : BitVec 16) : BitVec 16 :=
  if crc.msb then (crc <<< 1) ^^^ 0x1021#16 else crc <<< 1

/-- One byte taken into the CRC register. -/
def crcByte (crc : BitVec 16) (b : Byte) : BitVec 16 :=
  let c := crc ^^^ ((b.zeroExtend 16) <<< 8)
  crcShift (crcShift (crcShift (crcShift (crcShift (crcShift (crcShift (crcShift c)))))))

/-- The 16-bit check of the Conventions: initial value all ones, no reflection, no final exclusive-or (00_scope.md section 3.3). -/
def crc16 (bs : List Byte) : BitVec 16 :=
  bs.foldl crcByte 0xFFFF#16

/-- The check of `bs` in two bytes, most significant byte first. -/
def crcBytes (bs : List Byte) : List Byte :=
  bytesOfNat 2 (crc16 bs).toNat

/-! ## The head frame header (R4, R196) -/

/-- The four kinds of head frame, with the codes 0 to 3 of section 12.1. -/
inductive HeadKind where
  | sample
  | marker
  | status
  | reply
deriving DecidableEq, Repr

/-- The kind code of section 12.1. -/
def HeadKind.code : HeadKind → BitVec 2
  | .sample => 0
  | .marker => 1
  | .status => 2
  | .reply => 3

/-- The kind of a two-bit kind field. -/
def HeadKind.ofCode (c : BitVec 2) : HeadKind :=
  if c = 0 then .sample else if c = 1 then .marker else if c = 2 then .status else .reply

/-- A header that has passed check 2: its fields (section 12.1). `shape` is bits 17-10: the channel count and the samples field, or a REPLY's count of reply bytes. -/
structure Header where
  /-- Bits 31-28. -/
  address : BitVec 4
  /-- Bits 27-26. -/
  kind : HeadKind
  /-- Bits 25-18. -/
  sequence : BitVec 8
  /-- Bits 17-10. -/
  shape : BitVec 8
deriving DecidableEq, Repr

/-- Channel count, bits 17-13. -/
def Header.channels (h : Header) : Nat := (h.shape.extractLsb' 3 5).toNat

/-- Samples per channel, the code of bits 12-10 plus 1. -/
def Header.samples (h : Header) : Nat := (h.shape.extractLsb' 0 3).toNat + 1

/-- A REPLY's count of reply bytes: the two shape fields read as one, channel count field high (R4). -/
def Header.replyCount (h : Header) : Nat := h.shape.toNat

/-- The payload length of R4's table. -/
def Header.payloadLength (h : Header) : Nat :=
  match h.kind with
  | .sample => h.channels * h.samples * 2
  | .marker => 4
  | .status => 2
  | .reply => 1 + h.replyCount

/-- The implied length: four header bytes, the payload, a two-byte payload CRC (R4). -/
def Header.impliedLength (h : Header) : Nat := 4 + h.payloadLength + 2

/-- The head a header names, unless its address is foreign, 0 or 9-15 (R7). -/
def Header.head? (h : Header) : Option Head :=
  if hh : 1 ≤ h.address.toNat ∧ h.address.toNat ≤ 8 then some ⟨h.address.toNat - 1, by omega⟩ else none

/-- The codeword positions of header bits 31, 30, …, 6, in that order: 1 to 31 less the powers of two (R196). -/
def dataPositions : List Nat :=
  [3, 5, 6, 7, 9, 10, 11, 12, 13, 14, 15, 17, 18, 19, 20, 21, 22, 23, 24, 25, 26, 27, 28, 29, 30, 31]

/-- The header bit at a codeword position: check bit ci (header bit i) at 2^i, the overall check bit (header bit 5) at 0, data bits elsewhere (R196). -/
def headerBitAt (position : Nat) : Nat :=
  if position = 0 then 5
  else if position = 1 then 0
  else if position = 2 then 1
  else if position = 4 then 2
  else if position = 8 then 3
  else if position = 16 then 4
  else 31 - dataPositions.idxOf position

/-- The exclusive-or of a list of bits. -/
def xorAll (bs : List Bool) : Bool := bs.foldl (fun a b => xor a b) false

/-- Check bit ci worked out from the data bits of a header word: the exclusive-or of those whose position has bit i set (R196). -/
def checkBit (w : BitVec 32) (i : Nat) : Bool :=
  xorAll ((dataPositions.filter (fun p => p.testBit i)).map (fun p => w.getLsbD (headerBitAt p)))

/-- The syndrome: recomputed against received position check bits, as a number (R196). -/
def headerSyndrome (w : BitVec 32) : Nat :=
  (if xor (checkBit w 0) (w.getLsbD 0) then 1 else 0) +
  (if xor (checkBit w 1) (w.getLsbD 1) then 2 else 0) +
  (if xor (checkBit w 2) (w.getLsbD 2) then 4 else 0) +
  (if xor (checkBit w 3) (w.getLsbD 3) then 8 else 0) +
  (if xor (checkBit w 4) (w.getLsbD 4) then 16 else 0)

/-- The parity: the exclusive-or of all 32 received bits (R196). -/
def headerParity (w : BitVec 32) : Bool :=
  xorAll ((List.range 32).map (fun i => w.getLsbD i))

/-- The outcome of the header check code alone (R6, R196). -/
inductive HeaderCheck where
  /-- No error: the word as received. -/
  | clean (w : BitVec 32)
  /-- A single-bit error, inverted. -/
  | corrected (w : BitVec 32)
  /-- Uncorrectable. -/
  | uncorrectable
deriving DecidableEq, Repr

/-- The table of R196. -/
def checkHeader (w : BitVec 32) : HeaderCheck :=
  if headerParity w then .corrected (w ^^^ (1#32 <<< headerBitAt (headerSyndrome w)))
  else if headerSyndrome w = 0 then .clean w
  else .uncorrectable

/-- The fields of a header word. -/
def headerFields (w : BitVec 32) : Header where
  address := w.extractLsb' 28 4
  kind := HeadKind.ofCode (w.extractLsb' 26 2)
  sequence := w.extractLsb' 18 8
  shape := w.extractLsb' 10 8

/-- Whether a header word's values are possible (R6): zero bits zero, the kind copy equal to the kind, at most 16 channels in a SAMPLE, zero shape fields in a MARKER or STATUS, at most 32 reply bytes in a REPLY. -/
def headerPossible (w : BitVec 32) : Bool :=
  let h := headerFields w
  w.extractLsb' 8 2 == 0#2 && w.extractLsb' 6 2 == w.extractLsb' 26 2 &&
    (match h.kind with
     | .sample => h.channels ≤ 16
     | .marker => h.shape == 0#8
     | .status => h.shape == 0#8
     | .reply => h.replyCount ≤ 32)

/-- What check 2 makes of four header bytes: the header and whether a bit was corrected, or none where the header is uncorrectable or impossible (R6; a corrected header with impossible values counts as uncorrectable alone, log 11). -/
def decodeHeader (w : BitVec 32) : Option (Header × Bool) :=
  match checkHeader w with
  | .clean v => if headerPossible v then some (headerFields v, false) else none
  | .corrected v => if headerPossible v then some (headerFields v, true) else none
  | .uncorrectable => none

/-- The 26 data bits of a header, in their places, with the zero bits zero and the kind copied (section 12.1). -/
def headerData (h : Header) : BitVec 32 :=
  (h.address ++ h.kind.code ++ h.sequence ++ h.shape ++ (0#2 : BitVec 2) ++ h.kind.code ++ (0#6 : BitVec 6)).setWidth 32

/-- The header word of a header, with its check bits as R196 forms them. -/
def encodeHeader (h : Header) : BitVec 32 :=
  let d := headerData h
  let c : BitVec 5 := BitVec.ofNat 5 (headerSyndrome d)
  let withC : BitVec 32 := d ||| c.setWidth 32
  if headerParity withC then withC ||| 0b100000#32 else withC

/-- The word of the first four bytes of a frame. -/
def headerWord (bytes : List Byte) : BitVec 32 :=
  BitVec.ofNat 32 (natOfBytes (bytes.take 4))

/-! ## The table's words -/

/-- The command that a word spells by the table's bits. spec/opcode_table.json gives no row any bits, so no word spells one (log 33). -/
def decodeTableWord (_nbits _w : Nat) : Option Instr := none

end Sys2Proof
end

