-- ==== Sys2Proof/Machine/State.lean ====
section
/-! DEFINITION. The state of the part as plain data: every register, list, queue, timer and mark of the eleven blocks (00_scope.md section 2), the queue of waiting commands, and the state after a hard reset. -/

namespace Sys2Proof.Machine

/-! ## Head Link Unit (Chapter 1) -/

/-- The head states of R11's table. -/
inductive HeadState where
  | absent
  | acquiring
  | qualified
  | suspect
  | excluded
deriving DecidableEq, Repr

/-- A held sample frame: arrival time and one channel mean per channel position (R17). -/
structure HeldFrame where
  arrival : Time
  means : List Int
deriving DecidableEq, Repr

/-- The record of one head address (the table that opens Chapter 1). -/
structure HeadRecord where
  /-- Head state. -/
  state : HeadState
  /-- Error score, 0-255. -/
  score : Nat
  /-- Good run, 0-1023. -/
  goodRun : Nat
  /-- Last arrival time, or none. -/
  lastArrival : Option Time
  /-- Last sequence, or none. -/
  lastSequence : Option (BitVec 8)
  /-- Watchdog deadline, or stopped. -/
  watchdog : Option Time
  /-- Status flags; bit 0 is HEAD FAULT. -/
  status : BitVec 8
  /-- Rise latch. -/
  riseLatch : BitVec 8
  /-- Fall latch. -/
  fallLatch : BitVec 8
  /-- Rise mask. -/
  riseMask : BitVec 8
  /-- Fall mask. -/
  fallMask : BitVec 8
  /-- Held sample frame, or none. -/
  held : Option HeldFrame
deriving DecidableEq, Repr

/-- Where the head-link receiver stands between two characters (R1, R4, R5, R6). -/
inductive HeadRx where
  /-- Outside any frame. -/
  | outside
  /-- Outside any frame, in a run of stray characters that has been counted (R5). -/
  | stray
  /-- Passing over characters until the next FRAME START (R5, R6). -/
  | passing
  /-- Inside a frame: its bytes so far, and its header once four bytes have been decoded. -/
  | inFrame (bytes : List Byte) (header : Option Header)
deriving DecidableEq, Repr

/-- The relay slot when outstanding (R22); its reserved entry is the Order Unit's head order reservation. -/
structure RelaySlot where
  head : Head
  tag : BitVec 8
  /-- The relay deadline, or stopped until the relay frame has been sent. -/
  deadline : Option Time
  /-- The relay timeout of this relay in ms: the setting as it stood when the relay was accepted (R182; log 39). -/
  timeout : Nat
deriving DecidableEq, Repr

/-- A relay frame on the reverse direction of the head link (R22, R26). -/
structure RelayFrame where
  /-- The bytes between FRAME START and FRAME END. -/
  bytes : List Byte
  /-- Characters sent. -/
  sent : Nat
  /-- Whether the relay slot still waits on this frame. -/
  forSlot : Bool
deriving DecidableEq, Repr

/-- The state of the HLU. -/
structure Hlu where
  /-- LOCKED, or UNLOCKED. -/
  locked : Bool
  /-- Link error count, 0-15. -/
  linkErrors : Nat
  /-- Idle run count, 0-32. -/
  idleRun : Nat
  rx : HeadRx
  /-- The relay slot: free, or outstanding. -/
  relay : Option RelaySlot
  /-- Relay tag counter. -/
  relayTag : BitVec 8
  /-- Relay frames being sent, the one on the line first. -/
  relayLine : List RelayFrame
  heads : Vector HeadRecord 8
deriving DecidableEq, Repr

/-! ## Sample Holding Unit (Chapter 2) -/

/-- A source of a logical channel (R27). -/
structure Source where
  head : Head
  position : Fin 16
  /-- In units of 1/4096. -/
  gain : Int
  /-- In 0.1 mm. -/
  offset : Int
deriving DecidableEq, Repr

/-- A mapped entry of the input map (R27); an unmapped one is no `MapEntry`. -/
structure MapEntry where
  primary : Source
  standby : Option Source
deriving DecidableEq, Repr

/-- The state of the SHU: the input map, and each head's freshness deadline, which runs while its held frame is fresh (R29). -/
structure Shu where
  map : Vector (Option MapEntry) 7
  freshness : Vector (Option Time) 8
deriving DecidableEq, Repr

/-! ## Odometry Unit (Chapter 3) -/

/-- One encoder channel. -/
structure Channel where
  /-- Phase levels as last decoded. -/
  phaseA : Bool
  phaseB : Bool
  /-- Faulted mark. -/
  faulted : Bool
  /-- Zero-step count, 0-4. -/
  zeroSteps : Nat
  /-- Window distance, µm, positive ahead. -/
  window : Int
  /-- Whether the channel has counted a step in the window (R53). -/
  stepped : Bool
deriving DecidableEq, Repr

/-- The speed of the most recent tick and that tick's time (R55, R57). -/
structure TickSpeed where
  speed : Nat
  time : Time
deriving DecidableEq, Repr

/-- The state of the ODU. -/
structure Odu where
  direction : Direction
  sense : Sense
  /-- The active channel. -/
  active : Encoder
  e1 : Channel
  e2 : Channel
  /-- Last comparison time. -/
  lastComparison : Time
  slipCarried : Bool
  /-- Ahead distance A, µm. -/
  ahead : Int
  /-- High-water mark H, µm. -/
  high : Int
  /-- Next tick boundary, µm. -/
  nextTick : Int
  /-- Route residue, 0-999 µm. -/
  residue : Int
  /-- Speed history: up to eight tick times, oldest first. -/
  history : List Time
  lastSpeed : Option TickSpeed
  /-- A step back has found H - A at the reversal distance or above it, and the REVERSAL is still to be taken (R48; log 15). -/
  reversalDue : Bool
deriving DecidableEq, Repr

/-! ## Position Fixing Unit (Chapter 4) -/

/-- The position states (section 4.4). -/
inductive PositionState where
  | unset
  | deadReckoned
  | fixed
  | uncertain
  | lost
deriving DecidableEq, Repr

/-- The two kinds of route list entry (R59). -/
inductive RouteKind where
  | marker (code mask : BitVec 32)
  | kpost (kilometre : Nat)
deriving DecidableEq, Repr

/-- A route list entry (R59). -/
structure RouteEntry where
  distance : Int
  kind : RouteKind
deriving DecidableEq, Repr

/-- A kilometre post (R63). -/
structure Post where
  distance : Int
  kilometre : Nat
deriving DecidableEq, Repr

/-- A kilometre label and its offset (R66). -/
structure Label where
  kilometre : Nat
  offset : Int
deriving DecidableEq, Repr

/-- The state of the PFU. -/
structure Pfu where
  /-- Route distance, mm. -/
  routeDistance : Int
  position : PositionState
  routeList : List RouteEntry
  /-- Last passed post. -/
  lastPost : Option Post
  /-- Consecutive miss count, 0-7. -/
  missCount : Nat
  /-- Distance since last fix, µm. -/
  sinceFix : Option Nat
  pendingCorrection : Option Int
  /-- Route low-water armed. -/
  lowArmed : Bool
deriving DecidableEq, Repr

/-! ## Trace Unit (Chapter 5) -/

/-- The source mark of a channel value (R32). -/
inductive SourceMark where
  | primary
  | standby
deriving DecidableEq, Repr

/-- A channel value that is present, in 0.1 mm, with its source mark. -/
structure Sample where
  value : Int
  mark : SourceMark
deriving DecidableEq, Repr

/-- The six trace flags of an entry (R84). -/
structure TraceFlags where
  slip : Bool
  speedSaturated : Bool
  belowMinSpeed : Bool
  noSection : Bool
  standbyUsed : Bool
  suspectSource : Bool
deriving DecidableEq, Repr

/-- A trace entry (R84). Channels stand in index order GFL, GFR, VPL, VPR, LPL, LPR, XLV. -/
structure TraceEntry where
  seq : Seq
  time : Time
  route : Int
  label : Option Label
  speed : Option Nat
  position : PositionState
  correction : Option Int
  sectionLabel : Option (BitVec 16)
  cls : Fin 8
  cant : Int
  /-- Suppression set, bit p for parameter p. -/
  suppressed : BitVec 8
  channels : Vector (Option Sample) 7
  flags : TraceFlags
deriving DecidableEq, Repr

/-- The state of the TRU. -/
structure Tru where
  window : List TraceEntry
  /-- Next record sequence. -/
  nextSeq : Seq
  /-- Segment start. -/
  segStart : Option Seq
  /-- Next emit sequence. -/
  nextEmit : Option Seq
deriving DecidableEq, Repr

/-! ## Limit Unit (Chapter 6) -/

/-- A section of the section list (R106). -/
structure TrackSection where
  start : Int
  finish : Int
  cls : Fin 8
  suppressed : BitVec 8
  cant : Option Int
  label : BitVec 16
deriving DecidableEq, Repr

/-- The three thresholds of one polarity, each absent or 1-32767 (R115). -/
structure Thresholds where
  t1 : Option Nat
  t2 : Option Nat
  t3 : Option Nat
deriving DecidableEq, Repr

/-- A limit row (R115). -/
structure LimitRow where
  plus : Thresholds
  minus : Thresholds
  hysteresis : Nat
  minLength : Nat
deriving DecidableEq, Repr

/-- The state of the LMU. -/
structure Lmu where
  sections : List TrackSection
  /-- Section low-water armed. -/
  lowArmed : Bool
  limits : Vector LimitRow 64
deriving DecidableEq, Repr

/-! ## Exceedance Tracker (Chapter 7) -/

/-- The active slot states (R124). -/
inductive SlotPhase where
  | opened
  | closing
  | held
deriving DecidableEq, Repr

/-- The flags of an exceedance (R124). -/
structure ExFlags where
  cutInput : Bool
  cutSuppress : Bool
  cutReversal : Bool
  cutStop : Bool
  cutJump : Bool
  classChanged : Bool
  sourceMixed : Bool
  suspectSource : Bool
  positionDoubtful : Bool
  urgentSent : Bool
deriving DecidableEq, Repr

/-- The peak of an exceedance, with the class at peak (R124). -/
structure Peak where
  value : Int
  seq : Seq
  route : Int
  label : Option Label
  position : PositionState
  cls : Fin 8
deriving DecidableEq, Repr

/-- An exceedance in its slot (R124). -/
structure Exceedance where
  serial : Nat
  param : Param
  polarity : Polarity
  startSeq : Seq
  startRoute : Int
  startClass : Fin 8
  startLabel : Option (BitVec 16)
  endSeq : Seq
  endRoute : Int
  peak : Peak
  /-- Highest grade, 1-3. -/
  grade : Nat
  /-- Merge count, 0-65535. -/
  merges : Nat
  /-- Clear count, 0-64. -/
  clearCount : Nat
  /-- Records since end, 0-401. -/
  sinceEnd : Nat
  /-- Correction sum. -/
  correction : Int
  flags : ExFlags
deriving DecidableEq, Repr

/-- An Exceedance Report (R141). -/
structure Report where
  runNumber : BitVec 16
  serial : Nat
  param : Param
  polarity : Polarity
  grade : Nat
  startSeq : Seq
  startRoute : Int
  endSeq : Seq
  endRoute : Int
  length : Nat
  peak : Peak
  startLabel : Option (BitVec 16)
  merges : Nat
  /-- Correction sum, present when nonzero. -/
  correction : Option Int
  flags : ExFlags
  positionCorrected : Bool
deriving DecidableEq, Repr

/-- What a slot holds (R124): nothing, an exceedance in an active state, or a finalised one with the report that waits for the XR queue. -/
inductive SlotHold where
  | free
  | active (phase : SlotPhase) (ex : Exceedance)
  | pending (ex : Exceedance) (report : Report)
deriving DecidableEq, Repr

/-- A tracker slot and its urgent owed mark (R124). -/
structure Slot where
  hold : SlotHold
  urgentOwed : Bool
deriving DecidableEq, Repr

/-- An untracked latch (R125). -/
structure Latch where
  isSet : Bool
  urgentRaised : Bool
  urgentOwed : Bool
deriving DecidableEq, Repr

/-- An urgent notice (R146). -/
structure UrgentNotice where
  param : Param
  polarity : Polarity
  value : Int
  grade : Nat
  seq : Seq
  route : Int
  label : Option Label
  /-- The serial of a slot's exceedance; absent for a latch. -/
  serial : Option Nat
  position : PositionState
deriving DecidableEq, Repr

/-- The owner of an urgent notice: a slot, or the latch of a pair (R147). -/
inductive Owner where
  | slot (n : SlotNo)
  | latch (pair : Pair)
deriving DecidableEq, Repr

/-- An entry of the urgent owed list (R147). -/
structure Owed where
  owner : Owner
  notice : UrgentNotice
deriving DecidableEq, Repr

/-- The state of the EXT. -/
structure Ext where
  slots : Vector Slot 24
  latches : Vector Latch 16
  /-- Serial counter. -/
  nextSerial : Nat
  pendingList : List SlotNo
  owed : List Owed
deriving DecidableEq, Repr

/-! ## Run Control (Chapter 8) -/

/-- The run states (R151). -/
inductive RunState where
  | halted
  | armed
  | measuring
  | parked
deriving DecidableEq, Repr

/-- The state of Run Control. -/
structure Rnc where
  runState : RunState
  runNumber : BitVec 16
  /-- The park timer's deadline, or stopped. -/
  parkDeadline : Option Time
  /-- Runs started since the last reset: which run a GR belongs to (R173; log 23). -/
  runIndex : Nat
deriving DecidableEq, Repr

/-! ## Recorder Link Unit (Chapter 9) -/

/-- The recorder link states (R165). -/
inductive LinkState where
  | down
  | hunt
  | up
deriving DecidableEq, Repr

/-- The result codes of a reply (section 10.3), in the order of their codes. -/
inductive Result where
  | done
  | busy
  | badState
  | badValue
  | badLength
  | unknownOrder
  | listFull
  | outOfSequence
  | headAbsent
  | headTimeout
deriving DecidableEq, Repr

/-- A frame of the control queue (R171): a reply (R181), a status notice (R191) or an urgent notice (R146). -/
inductive ControlFrame where
  | reply (code tag : Byte) (result : Result) (data : List Byte)
  | status (cause : Nat) (flags : BitVec 20) (nextSeq : Seq) (route : Int)
  | urgent (notice : UrgentNotice)
deriving DecidableEq, Repr

/-- A Geometry Record (R97), with the run it belongs to (R173). -/
structure GeometryRecord where
  run : Nat
  runNumber : BitVec 16
  seq : Seq
  droppedBefore : Nat
  time : Time
  route : Int
  label : Option Label
  speed : Option Nat
  position : PositionState
  correction : Option Int
  sectionLabel : Option (BitVec 16)
  cls : Fin 8
  /-- Parameter values, absent ones none. -/
  values : Vector (Option Int) 8
  grades : Vector Nat 8
  flags : TraceFlags
  incompleteChord : Bool
  suppressed : Bool
  sourceSwitch : Bool
  untracked : Bool
deriving DecidableEq, Repr

/-- A Mirror Frame (R21, R174). -/
structure MirrorFrame where
  head : Head
  kind : HeadKind
  /-- The head frame as received, header to payload CRC. -/
  bytes : List Byte
deriving DecidableEq, Repr

/-- The frame in transmission (R170, R177). -/
structure Transmission where
  queue : QueueId
  /-- Kind, length, body and CRC. -/
  bytes : List Byte
  /-- Characters sent. -/
  sent : Nat
  /-- A RESTART has emptied the queue it came from: its end frees no entry (R177). -/
  forgotten : Bool
deriving DecidableEq, Repr

/-- The state of the RLU. -/
structure Rlu where
  link : LinkState
  /-- Link error count, 0-63. -/
  linkErrors : Nat
  /-- Idle run count, 0-64. -/
  idleRun : Nat
  /-- Idle tally, 0-255. -/
  idleTally : Nat
  /-- Credit count, 0-255. -/
  credits : Nat
  control : List ControlFrame
  /-- Reservations in the control queue. -/
  reservations : Nat
  xr : List Report
  gr : List GeometryRecord
  mirror : List MirrorFrame
  tx : Option Transmission
  /-- GR dropped count. -/
  grDropped : Nat
  /-- The inbound frame being received: its bytes so far. -/
  rx : Option (List Byte)
deriving DecidableEq, Repr

/-! ## Order Unit (Chapter 10) -/

/-- A head shape setting (R9). -/
structure Shape where
  channels : Nat
  samples : Nat
deriving DecidableEq, Repr

/-- The settings table (section 10.4). -/
structure Settings where
  recordSpacing : Nat
  stepE1 : Nat
  stepE2 : Nat
  leadEncoder : Encoder
  slipLimit : Nat
  reversalDistance : Nat
  minSpeed : Nat
  parkDelay : Nat
  framePeriod : Nat
  passThreshold : Nat
  headErrorThreshold : Nat
  shapes : Vector Shape 8
  mirrors : Vector Bool 8
  markerHead : Nat
  matchWindow : Nat
  largeCorrection : Nat
  fixValidity : Nat
  lostThreshold : Nat
  chordLevel : Nat
  chordAlign : Nat
  twistShort : Nat
  twistLong : Nat
  nominalGauge : Nat
  gaugeBase : Nat
  closeLength : Nat
  mergeGap : Nat
  relayTimeout : Nat
  routeLowWater : Nat
  sectionLowWater : Nat
  recorderErrorThreshold : Nat
  noticesEnabled : Bool
deriving DecidableEq, Repr

/-- A held head order reservation: the order's code and tag (R187). -/
structure HeadReservation where
  code : Byte
  tag : Byte
deriving DecidableEq, Repr

/-- The state of the ORU. -/
structure Oru where
  /-- Inbound order buffer, in arrival order. -/
  buffer : List (List Byte)
  settings : Settings
  headReservation : Option HeadReservation
deriving DecidableEq, Repr

/-! ## Event Unit (Chapter 11) -/

/-- The state of the EVU: flag n at bit n of `flags` and `mask`; the counters in the order of section 12.3, the per-head group last. -/
structure Evu where
  flags : BitVec 20
  mask : BitVec 20
  counters : Vector Nat 109
deriving DecidableEq, Repr

/-! ## The whole part -/

/-- Everything but the queue of waiting commands. -/
structure Part where
  /-- The time counter. -/
  time : Time
  /-- RESET_N is held low (R198). -/
  resetHeld : Bool
  hlu : Hlu
  shu : Shu
  odu : Odu
  pfu : Pfu
  tru : Tru
  lmu : Lmu
  ext : Ext
  rnc : Rnc
  rlu : Rlu
  oru : Oru
  evu : Evu
deriving DecidableEq, Repr

/-- The machine's state: the part, and the commands that wait, first in, first out. -/
structure State where
  part : Part
  pending : List Instr
deriving DecidableEq, Repr

/-- Why a step would stop with a fault. The manual names nothing that stops the part ("No error ends a run", R155), so there is no constructor and no meaning raises one: neither safe nor unsafe (log 30). -/
inductive Fault where
deriving DecidableEq, Repr

/-- Why a step would be refused. -/
inductive Refusal where
  /-- Raised by exec for a command that has no meaning yet, under the row's mnemonic; safe: the model stops where the hardware goes on. No arm of exec raises it. -/
  | notModelled (mnemonic : String)
deriving DecidableEq, Repr

/-! ## Reset values -/

/-- A head record after a hard reset (R25). -/
def HeadRecord.reset : HeadRecord where
  state := .absent
  score := 0
  goodRun := 0
  lastArrival := none
  lastSequence := none
  watchdog := none
  status := 0
  riseLatch := 0
  fallLatch := 0
  riseMask := 0
  fallMask := 0
  held := none

/-- R25. The receiver stands outside any frame. -/
def Hlu.reset : Hlu where
  locked := false
  linkErrors := 0
  idleRun := 0
  rx := .outside
  relay := none
  relayTag := 0
  relayLine := []
  heads := Vector.replicate 8 HeadRecord.reset

/-- R40. -/
def Shu.reset : Shu where
  map := Vector.replicate 7 none
  freshness := Vector.replicate 8 none

/-- R58, for a channel. DESIGN CHOICE, unsafe: the manual gives no phase levels for power-on (log 8). -/
def Channel.reset : Channel where
  phaseA := false
  phaseB := false
  faulted := false
  zeroSteps := 0
  window := 0
  stepped := false

/-- R58 at the settings' defaults: active channel E1, next tick boundary one record spacing of 250 mm. -/
def Odu.reset : Odu where
  direction := .up
  sense := .aheadPositive
  active := .e1
  e1 := Channel.reset
  e2 := Channel.reset
  lastComparison := 0
  slipCarried := false
  ahead := 0
  high := 0
  nextTick := 250000
  residue := 0
  history := []
  lastSpeed := none
  reversalDue := false

/-- R82. -/
def Pfu.reset : Pfu where
  routeDistance := 0
  position := .unset
  routeList := []
  lastPost := none
  missCount := 0
  sinceFix := none
  pendingCorrection := none
  lowArmed := false

/-- R105. -/
def Tru.reset : Tru where
  window := []
  nextSeq := 0
  segStart := none
  nextEmit := none

/-- Three absent thresholds. -/
def Thresholds.absent : Thresholds := ⟨none, none, none⟩

/-- R123, for a row. -/
def LimitRow.reset : LimitRow where
  plus := Thresholds.absent
  minus := Thresholds.absent
  hysteresis := 0
  minLength := 0

/-- R123. -/
def Lmu.reset : Lmu where
  sections := []
  lowArmed := false
  limits := Vector.replicate 64 LimitRow.reset

/-- A FREE slot with its urgent owed mark clear (R150). -/
def Slot.reset : Slot := ⟨.free, false⟩

/-- A clear latch with both its marks clear (R150). -/
def Latch.reset : Latch := ⟨false, false, false⟩

/-- R150. -/
def Ext.reset : Ext where
  slots := Vector.replicate 24 Slot.reset
  latches := Vector.replicate 16 Latch.reset
  nextSerial := 1
  pendingList := []
  owed := []

/-- R164. -/
def Rnc.reset : Rnc where
  runState := .halted
  runNumber := 0
  parkDeadline := none
  runIndex := 0

/-- The READY notice of a hard reset (R176, R191): cause 0, READY alone set, next record sequence 0, route distance 0. -/
def readyNotice : ControlFrame := .status 0 1#20 0 0

/-- R176. -/
def Rlu.reset : Rlu where
  link := .down
  linkErrors := 0
  idleRun := 0
  idleTally := 0
  credits := 0
  control := [readyNotice]
  reservations := 0
  xr := []
  gr := []
  mirror := []
  tx := none
  grDropped := 0
  rx := none

/-- The defaults of section 10.4. -/
def Settings.default : Settings where
  recordSpacing := 250
  stepE1 := 2822
  stepE2 := 2822
  leadEncoder := .e1
  slipLimit := 20
  reversalDistance := 1000
  minSpeed := 50
  parkDelay := 5000
  framePeriod := 500
  passThreshold := 4
  headErrorThreshold := 3
  shapes := Vector.replicate 8 ⟨0, 1⟩
  mirrors := Vector.replicate 8 false
  markerHead := 0
  matchWindow := 30000
  largeCorrection := 5000
  fixValidity := 3000
  lostThreshold := 2
  chordLevel := 40
  chordAlign := 40
  twistShort := 12
  twistLong := 40
  nominalGauge := 14350
  gaugeBase := 14350
  closeLength := 4
  mergeGap := 8
  relayTimeout := 20
  routeLowWater := 16
  sectionLowWater := 8
  recorderErrorThreshold := 8
  noticesEnabled := true

/-- R189. -/
def Oru.reset : Oru where
  buffer := []
  settings := Settings.default
  headReservation := none

/-- R195: READY alone set, every mark clear, every counter 0. -/
def Evu.reset : Evu where
  flags := 1#20
  mask := 0
  counters := Vector.replicate 109 0

/-- The part at the rising edge of RESET_N (R198). -/
def Part.reset : Part where
  time := 0
  resetHeld := false
  hlu := Hlu.reset
  shu := Shu.reset
  odu := Odu.reset
  pfu := Pfu.reset
  tru := Tru.reset
  lmu := Lmu.reset
  ext := Ext.reset
  rnc := Rnc.reset
  rlu := Rlu.reset
  oru := Oru.reset
  evu := Evu.reset

/-- The machine right after a hard reset, with no command waiting. -/
def State.reset : State where
  part := Part.reset
  pending := []

end Sys2Proof.Machine
end

