-- ==== Sys2Proof/Machine/Ops.lean ====
section
/-! DEFINITION. The named operations that every block shares: replacing one block's state, reading and updating tables, time and saturation, the counters (R194) and the room of the control queue (R171). -/

namespace Sys2Proof

/-! ## Direction and sense (00_scope.md section 3.2, R42) -/

/-- The other travel direction. -/
def Direction.flip : Direction → Direction
  | .up => .down
  | .down => .up

/-- The other step sense. -/
def Sense.flip : Sense → Sense
  | .aheadPositive => .aheadNegative
  | .aheadNegative => .aheadPositive

/-- +1 in UP travel and -1 in DOWN travel. -/
def Direction.sign : Direction → Int
  | .up => 1
  | .down => -1

end Sys2Proof

namespace Sys2Proof.Machine

/-! ## Replacing one block's state -/

/-- The part with `time` replaced. -/
def Part.withTime (p : Part) (x : Time) : Part := { p with time := x }
/-- The part with `resetHeld` replaced. -/
def Part.withResetHeld (p : Part) (x : Bool) : Part := { p with resetHeld := x }
/-- The part with `hlu` replaced. -/
def Part.withHlu (p : Part) (x : Hlu) : Part := { p with hlu := x }
/-- The part with `shu` replaced. -/
def Part.withShu (p : Part) (x : Shu) : Part := { p with shu := x }
/-- The part with `odu` replaced. -/
def Part.withOdu (p : Part) (x : Odu) : Part := { p with odu := x }
/-- The part with `pfu` replaced. -/
def Part.withPfu (p : Part) (x : Pfu) : Part := { p with pfu := x }
/-- The part with `tru` replaced. -/
def Part.withTru (p : Part) (x : Tru) : Part := { p with tru := x }
/-- The part with `lmu` replaced. -/
def Part.withLmu (p : Part) (x : Lmu) : Part := { p with lmu := x }
/-- The part with `ext` replaced. -/
def Part.withExt (p : Part) (x : Ext) : Part := { p with ext := x }
/-- The part with `rnc` replaced. -/
def Part.withRnc (p : Part) (x : Rnc) : Part := { p with rnc := x }
/-- The part with `rlu` replaced. -/
def Part.withRlu (p : Part) (x : Rlu) : Part := { p with rlu := x }
/-- The part with `oru` replaced. -/
def Part.withOru (p : Part) (x : Oru) : Part := { p with oru := x }
/-- The part with `evu` replaced. -/
def Part.withEvu (p : Part) (x : Evu) : Part := { p with evu := x }

/-- The answer of a command whose effect on the part is `f`: while RESET_N holds the part in hard reset nothing else happens (R198). The queue of waiting commands is not touched. -/
def unheld (s : State) (f : Part → Part) : Host.Outcome State Fault Refusal :=
  if s.part.resetHeld then .next s else .next { s with part := f s.part }

/-! ## Tables -/

/-- A table with one entry changed by a function. -/
def vmodify {α : Type} {n : Nat} (v : Vector α n) (i : Fin n) (f : α → α) : Vector α n :=
  v.set i (f v[i])

/-! ## Time and number ranges (00_scope.md section 3.1) -/

/-- Whether the time counter has reached a deadline, modulo 2^32: the deadline lies less than 2^31 µs in the past (log 25). -/
def reached (now deadline : Time) : Bool := (now - deadline).toNat < 2 ^ 31

/-- A time some microseconds after another, modulo 2^32. -/
def laterBy (t : Time) (microseconds : Nat) : Time := t + BitVec.ofNat 32 microseconds

/-- A number held to a range. -/
def clampInt (lo hi z : Int) : Int := if z < lo then lo else if hi < z then hi else z

/-- Saturation at the signed 32-bit limits. -/
def sat32 (z : Int) : Int := clampInt (-2147483648) 2147483647 z

/-- Saturation at the signed 64-bit limits (R45; log 26). -/
def sat64 (z : Int) : Int := clampInt (-9223372036854775808) 9223372036854775807 z

/-- Saturation at the unsigned 64-bit limit (R45; log 26). -/
def satU64 (z : Int) : Int := clampInt 0 18446744073709551615 z

/-! ## Counters (R194, section 12.3) -/

/-- The counters by name, in the order of the six groups of section 12.3, with the per-head group last. -/
inductive Counter where
  | headCodeViolations | framingErrors | uncorrectableHeaders | correctedHeaders | foreignAddress
  | lockLosses | strayMarkers | withheldMarkers | wrongTagReplies | lateReplies | relayTimeouts
  | quadratureE1 | quadratureE2 | routeSaturations | ticks | reversals | slips | channelSwitches
  | faultsE1 | faultsE2 | speedSaturations | fixes | largeCorrections | unknownMarkers
  | missedMarkers | unsetMarkers | skippedMarkers | sectionsRetired | sectionStarvations
  | captures | emissions | flushes | parameterSaturations | opened | slotOverflows | shortDiscards
  | reportsPlaced | pendings | cuts | urgentSent | urgentOwed | owedReplacements | runsStarted
  | parks | runsStopped
  | recorderCodeViolations | checkFailures | unknownKinds | creditExcess | linkDowns | framesCut
  | framesStarted | grDrops | mirrorDrops
  | malformedOrders | orderOverruns | ordersTaken | badLengths | unknownOrders | statusSent
  | noticesLost
  | validFrames (h : Head) | lostFrames (h : Head) | crcFailures (h : Head)
  | shapeMismatches (h : Head) | watchdogExpiries (h : Head) | exclusions (h : Head)
deriving DecidableEq, Repr

/-- The place of the n-th per-head counter of head h. -/
def headCounterIndex (h : Head) (n : Fin 6) : Fin 109 := ⟨61 + 6 * h.val + n.val, by omega⟩

/-- The place of a counter in the Event Unit's table. -/
def Counter.index : Counter → Fin 109
  | .headCodeViolations => 0
  | .framingErrors => 1
  | .uncorrectableHeaders => 2
  | .correctedHeaders => 3
  | .foreignAddress => 4
  | .lockLosses => 5
  | .strayMarkers => 6
  | .withheldMarkers => 7
  | .wrongTagReplies => 8
  | .lateReplies => 9
  | .relayTimeouts => 10
  | .quadratureE1 => 11
  | .quadratureE2 => 12
  | .routeSaturations => 13
  | .ticks => 14
  | .reversals => 15
  | .slips => 16
  | .channelSwitches => 17
  | .faultsE1 => 18
  | .faultsE2 => 19
  | .speedSaturations => 20
  | .fixes => 21
  | .largeCorrections => 22
  | .unknownMarkers => 23
  | .missedMarkers => 24
  | .unsetMarkers => 25
  | .skippedMarkers => 26
  | .sectionsRetired => 27
  | .sectionStarvations => 28
  | .captures => 29
  | .emissions => 30
  | .flushes => 31
  | .parameterSaturations => 32
  | .opened => 33
  | .slotOverflows => 34
  | .shortDiscards => 35
  | .reportsPlaced => 36
  | .pendings => 37
  | .cuts => 38
  | .urgentSent => 39
  | .urgentOwed => 40
  | .owedReplacements => 41
  | .runsStarted => 42
  | .parks => 43
  | .runsStopped => 44
  | .recorderCodeViolations => 45
  | .checkFailures => 46
  | .unknownKinds => 47
  | .creditExcess => 48
  | .linkDowns => 49
  | .framesCut => 50
  | .framesStarted => 51
  | .grDrops => 52
  | .mirrorDrops => 53
  | .malformedOrders => 54
  | .orderOverruns => 55
  | .ordersTaken => 56
  | .badLengths => 57
  | .unknownOrders => 58
  | .statusSent => 59
  | .noticesLost => 60
  | .validFrames h => headCounterIndex h 0
  | .lostFrames h => headCounterIndex h 1
  | .crcFailures h => headCounterIndex h 2
  | .shapeMismatches h => headCounterIndex h 3
  | .watchdogExpiries h => headCounterIndex h 4
  | .exclusions h => headCounterIndex h 5

/-- The value of a counter. -/
def Part.counter (p : Part) (c : Counter) : Nat := p.evu.counters[c.index]

/-- A 32-bit counter raised, staying at its top (R194). -/
def counterUp (n v : Nat) : Nat := min (v + n) Config.counterTop

/-- A counter raised by `n` (R194). -/
def Part.bumpBy (p : Part) (c : Counter) (n : Nat) : Part :=
  p.withEvu { p.evu with counters := vmodify p.evu.counters c.index (counterUp n) }

/-- A counter raised by 1 (R194). -/
def Part.bump (p : Part) (c : Counter) : Part := p.bumpBy c 1

/-! ## The control queue's room (R171) -/

/-- Whether a control frame is an urgent notice. -/
def ControlFrame.isUrgent : ControlFrame → Bool
  | .urgent _ => true
  | _ => false

/-- Filled non-urgent entries of the control queue. -/
def Rlu.nonUrgent (r : Rlu) : Nat := (r.control.filter (fun f => !f.isUrgent)).length

/-- Free entries: 16 minus the filled entries minus the reservations (R171). -/
def Rlu.freeEntries (r : Rlu) : Nat := Config.controlCapacity - r.control.length - r.reservations

/-- Whether a reservation or a status notice is admitted (R171). -/
def Rlu.admitsNonUrgent (r : Rlu) : Bool :=
  decide (r.nonUrgent + r.reservations ≤ Config.nonUrgentMark) && decide (1 ≤ r.freeEntries)

/-- A frame joins the tail of the control queue. -/
def Rlu.placeControl (r : Rlu) (f : ControlFrame) : Rlu := { r with control := r.control ++ [f] }

/-- A reply fills a reservation: the reservation ends and the reply joins the tail (R171, R181). -/
def Part.fillReservation (p : Part) (f : ControlFrame) : Part :=
  p.withRlu { p.rlu.placeControl f with reservations := p.rlu.reservations - 1 }

/-! ## Direction -/

/-- Whether `a` lies strictly beyond `b` in the travel direction (00_scope.md section 3.2). -/
def beyond (d : Direction) (a b : Int) : Bool :=
  match d with
  | .up => decide (b < a)
  | .down => decide (a < b)

end Sys2Proof.Machine
end

