-- ==== Sys2Proof/Machine/Flags.lean ====
section
/-! DEFINITION. The Event Unit: event flags, their rise, the status notices a rise makes, and the alert output (Chapter 11). -/

namespace Sys2Proof.Machine

/-- The twenty event flags (section 11.1). -/
inductive Event where
  | ready | headChange | headStatus | headLinkLost | headReplyLate | slip | reversal | parkChange
  | positionFix | markerMissed | markerUnknown | positionLost | largeCorrection | routeLow
  | sectionLow | sectionStarved | slotOverflow | grDropped | orderOverrun | noticeLost
deriving DecidableEq, Repr

/-- Event flag numbers (section 12.3). -/
def Event.number : Event → Nat
  | .ready => 0
  | .headChange => 1
  | .headStatus => 2
  | .headLinkLost => 3
  | .headReplyLate => 4
  | .slip => 5
  | .reversal => 6
  | .parkChange => 7
  | .positionFix => 8
  | .markerMissed => 9
  | .markerUnknown => 10
  | .positionLost => 11
  | .largeCorrection => 12
  | .routeLow => 13
  | .sectionLow => 14
  | .sectionStarved => 15
  | .slotOverflow => 16
  | .grDropped => 17
  | .orderOverrun => 18
  | .noticeLost => 19

/-- Whether the flag of an event is set. -/
def Part.flagSet (p : Part) (e : Event) : Bool := p.evu.flags.getLsbD e.number

/-- Whether the notice mask marks an event. -/
def Part.masked (p : Part) (e : Event) : Bool := p.evu.mask.getLsbD e.number

/-- The flags with one more set. -/
def flagsWith (flags : BitVec 20) (e : Event) : BitVec 20 := flags ||| (1#20 <<< e.number)

/-- A flag set, with no notice (R190). -/
def Part.setFlag (p : Part) (e : Event) : Part :=
  p.withEvu { p.evu with flags := flagsWith p.evu.flags e }

/-- The status notice of a rise: cause, flag snapshot, next record sequence, route distance (R191). -/
def Part.statusNotice (p : Part) (cause : Nat) : ControlFrame :=
  .status cause p.evu.flags p.tru.nextSeq p.pfu.routeDistance

/-- A due status notice offered to the control queue: admitted and counted, or lost, which raises NOTICE_LOST and makes no further notice (R191). -/
def Part.offerNotice (p : Part) (e : Event) : Part :=
  if p.rlu.admitsNonUrgent then
    (p.withRlu (p.rlu.placeControl (p.statusNotice e.number))).bump .statusSent
  else (p.bump .noticesLost).setFlag .noticeLost

/-- Whether the rise of a flag makes a status notice due (R191). -/
def Part.noticeDue (p : Part) (e : Event) : Bool :=
  p.masked e && p.oru.settings.noticesEnabled && e != .noticeLost

/-- A block raises an event (R190, R191). -/
def Part.raise (p : Part) (e : Event) : Part :=
  if p.flagSet e then p
  else if p.noticeDue e then (p.setFlag e).offerNotice e
  else p.setFlag e

/-- An event raised several times over. -/
def Part.raiseTimes (p : Part) (e : Event) : Nat → Part
  | 0 => p
  | n + 1 => (p.raise e).raiseTimes e n

/-- The alert output: asserted while a flag is set whose mark is set, and deasserted while the part is held in hard reset (R192, R198). -/
def Part.alert (p : Part) : Bool := !p.resetHeld && (p.evu.flags &&& p.evu.mask) != 0#20

end Sys2Proof.Machine
end

