-- ==== Sys2Proof/Machine/Formats.lean ====
section
/-! DEFINITION. The outbound layouts of R197 and the codes of section 12.3, and the relay frame of R196. -/

namespace Sys2Proof

/-- Direction codes. -/
def Direction.code : Direction → Nat
  | .up => 0
  | .down => 1

/-- Polarity codes. -/
def Polarity.code : Polarity → Nat
  | .plus => 0
  | .minus => 1

/-- Lead encoder codes. -/
def Encoder.code : Encoder → Nat
  | .e1 => 1
  | .e2 => 2

end Sys2Proof

namespace Sys2Proof.Machine

/-- One byte. -/
def byteOf (n : Nat) : List Byte := [BitVec.ofNat 8 n]

/-- A mark or a flag in one byte. -/
def byteOfBool (b : Bool) : List Byte := byteOf (if b then 1 else 0)

/-- Time stamps, sequences and other 32-bit words in four bytes. -/
def bytesOf32 (w : BitVec 32) : List Byte := bytesOfNat 4 w.toNat

/-- An item that may be absent: a presence byte, then the item, sent as `width` zero bytes when absent (R197). -/
def optionalItem {α : Type} (width : Nat) (encode : α → List Byte) : Option α → List Byte
  | some a => byteOf 1 ++ encode a
  | none => byteOf 0 ++ List.replicate width 0#8

/-- A field with a fixed place, sent as zero when absent (R197). -/
def fixedField {α : Type} (width : Nat) (encode : α → List Byte) : Option α → List Byte
  | some a => encode a
  | none => List.replicate width 0#8

/-- A presence byte: bit n for the n-th of a list of marks. -/
def presence (marks : List Bool) : List Byte :=
  byteOf (marks.foldr (fun b n => (if b then 1 else 0) + 2 * n) 0)

/-- A set of marks as a number: bit n for the n-th. -/
def markBits (marks : List Bool) : Nat := marks.foldr (fun b n => (if b then 1 else 0) + 2 * n) 0

/-! ## Codes (section 12.3) -/

/-- Result codes. -/
def Result.code : Result → Nat
  | .done => 0
  | .busy => 1
  | .badState => 2
  | .badValue => 3
  | .badLength => 4
  | .unknownOrder => 5
  | .listFull => 6
  | .outOfSequence => 7
  | .headAbsent => 8
  | .headTimeout => 9

/-- Head state codes. -/
def HeadState.code : HeadState → Nat
  | .absent => 0
  | .acquiring => 1
  | .qualified => 2
  | .suspect => 3
  | .excluded => 4

/-- Position state codes. -/
def PositionState.code : PositionState → Nat
  | .unset => 0
  | .deadReckoned => 1
  | .fixed => 2
  | .uncertain => 3
  | .lost => 4

/-- Run state codes. -/
def RunState.code : RunState → Nat
  | .halted => 0
  | .armed => 1
  | .measuring => 2
  | .parked => 3

/-- Slot state codes. -/
def SlotHold.code : SlotHold → Nat
  | .free => 0
  | .active .opened _ => 1
  | .active .closing _ => 2
  | .active .held _ => 3
  | .pending _ _ => 4

/-- Recorder link state codes. -/
def LinkState.code : LinkState → Nat
  | .down => 0
  | .hunt => 1
  | .up => 2

/-- The address 1 to 8 of a head. -/
def Head.address (h : Head) : Nat := h.val + 1

/-! ## Bodies (R197) -/

/-- Kilometre number and offset, 2 and 4 bytes. -/
def labelBytes (l : Label) : List Byte := bytesOfNat 2 l.kilometre ++ bytesOfInt 4 l.offset

/-- The six trace flags in the order of the GR's flag bits 0 to 5. -/
def TraceFlags.marks (f : TraceFlags) : List Bool :=
  [f.slip, f.speedSaturated, f.belowMinSpeed, f.noSection, f.standbyUsed, f.suspectSource]

/-- Grades of 2 bits each, parameter 0 in bits 15-14 down to parameter 7 in bits 1-0. -/
def gradeBits (grades : List Nat) : Nat := grades.foldl (fun n g => n * 4 + g) 0

/-- The GR body. -/
def GeometryRecord.body (g : GeometryRecord) : List Byte :=
  bytesOfNat 2 g.runNumber.toNat ++ bytesOf32 g.seq ++ bytesOfNat 4 g.droppedBefore ++
  bytesOf32 g.time ++ bytesOfInt 4 g.route ++
  presence [g.label.isSome, g.speed.isSome, g.correction.isSome, g.sectionLabel.isSome] ++
  byteOf g.position.code ++ fixedField 6 labelBytes g.label ++
  fixedField 2 (bytesOfNat 2) g.speed ++ fixedField 4 (bytesOfInt 4) g.correction ++
  fixedField 2 (fun l => bytesOfNat 2 (BitVec.toNat l)) g.sectionLabel ++ byteOf g.cls.val ++
  byteOf (markBits (g.values.toList.map Option.isSome)) ++
  bytesOfNat 2 (gradeBits g.grades.toList) ++
  bytesOfNat 2 (markBits (g.flags.marks ++ [g.incompleteChord, g.suppressed, g.sourceSwitch, g.untracked])) ++
  (g.values.toList.filterMap (fun v => v)).flatMap (bytesOfInt 2)

/-- The ten exceedance flags in the order of the XR's flag bits 0 to 9. -/
def ExFlags.marks (f : ExFlags) : List Bool :=
  [f.cutInput, f.cutSuppress, f.cutReversal, f.cutStop, f.cutJump, f.classChanged, f.sourceMixed,
   f.suspectSource, f.positionDoubtful, f.urgentSent]

/-- The XR body. -/
def Report.body (x : Report) : List Byte :=
  bytesOfNat 2 x.runNumber.toNat ++ bytesOfNat 4 x.serial ++ byteOf x.param.val ++
  byteOf x.polarity.code ++ byteOf x.grade ++
  presence [x.peak.label.isSome, x.startLabel.isSome, x.correction.isSome] ++
  bytesOf32 x.startSeq ++ bytesOfInt 4 x.startRoute ++ bytesOf32 x.endSeq ++
  bytesOfInt 4 x.endRoute ++ bytesOfNat 4 x.length ++ bytesOfInt 2 x.peak.value ++
  bytesOf32 x.peak.seq ++ bytesOfInt 4 x.peak.route ++ fixedField 6 labelBytes x.peak.label ++
  fixedField 2 (fun l => bytesOfNat 2 (BitVec.toNat l)) x.startLabel ++ byteOf x.peak.cls.val ++
  byteOf x.peak.position.code ++ bytesOfNat 2 x.merges ++ fixedField 4 (bytesOfInt 4) x.correction ++
  bytesOfNat 2 (markBits (x.flags.marks ++ [x.positionCorrected]))

/-- The UN body. -/
def UrgentNotice.body (u : UrgentNotice) : List Byte :=
  byteOf u.param.val ++ byteOf u.polarity.code ++ bytesOfInt 2 u.value ++ byteOf u.grade ++
  presence [u.label.isSome, u.serial.isSome] ++ bytesOf32 u.seq ++ bytesOfInt 4 u.route ++
  fixedField 6 labelBytes u.label ++ fixedField 4 (bytesOfNat 4) u.serial ++
  byteOf u.position.code

/-- The kind byte of a control frame (section 12.2). -/
def ControlFrame.kind : ControlFrame → Nat
  | .urgent _ => 3
  | .status _ _ _ _ => 4
  | .reply _ _ _ _ => 5

/-- The body of a control frame: UN, SN or RP. -/
def ControlFrame.body : ControlFrame → List Byte
  | .urgent u => u.body
  | .status cause flags nextSeq route =>
      byteOf cause ++ bytesOfNat 4 flags.toNat ++ bytesOf32 nextSeq ++ bytesOfInt 4 route
  | .reply code tag result data => [code, tag] ++ byteOf result.code ++ data

/-- The MF body. -/
def MirrorFrame.body (m : MirrorFrame) : List Byte :=
  byteOf (Head.address m.head) ++ byteOf m.kind.code.toNat ++ m.bytes

/-- The bytes of an outbound frame between FRAME START and FRAME END: kind, body length, body, CRC over all before it (section 12.2). -/
def outboundBytes (kind : Nat) (body : List Byte) : List Byte :=
  let head := byteOf kind ++ bytesOfNat 2 body.length ++ body
  head ++ crcBytes head

/-- The bytes of a relay frame between FRAME START and FRAME END (R196). -/
def relayBytes (h : Head) (tag : BitVec 8) (order : List Byte) : List Byte :=
  let head := byteOf (Head.address h) ++ [tag] ++ byteOf order.length ++ order
  head ++ crcBytes head

end Sys2Proof.Machine
end

