-- ==== Sys2Proof/Machine/Operands.lean ====
section
/-! DEFINITION. The operands of the orders: fields of an order body, the length each order requires (R180, section 12.3), and the settings table by number (section 10.4, R182, R183). -/

namespace Sys2Proof.Machine

/-! ## Fields of a body -/

/-- An unsigned field of `len` bytes at `off`. -/
def fieldNat (bs : List Byte) (off len : Nat) : Nat := natOfBytes ((bs.drop off).take len)

/-- A signed field of `len` bytes at `off`. -/
def fieldInt (bs : List Byte) (off len : Nat) : Int := intOfBytes ((bs.drop off).take len)

/-- The first `n` pieces of `k` bytes. -/
def pieces (k : Nat) : Nat → List Byte → List (List Byte)
  | 0, _ => []
  | n + 1, bs => bs.take k :: pieces k n (bs.drop k)

/-- The head with an address 1 to 8. -/
def headOfAddress (a : Nat) : Option Head :=
  if h : 1 ≤ a ∧ a ≤ 8 then some ⟨a - 1, by omega⟩ else none

/-! ## Order bodies -/

/-- The order code of a body in the buffer. -/
def orderCode (body : List Byte) : Byte := body.getD 0 0#8

/-- The tag of a body in the buffer. -/
def orderTag (body : List Byte) : Byte := body.getD 1 0#8

/-- The parameters of a body in the buffer. -/
def orderParams (body : List Byte) : List Byte := body.drop 2

/-- The bytes that a source takes in a WRITE INPUT MAP entry: its present mark, and six field bytes when the mark is not 0 (R197). -/
def sourceLength : List Byte → Option Nat
  | [] => none
  | m :: _ => some (if m = 0#8 then 1 else 7)

/-- The bytes that `n` entries of a WRITE INPUT MAP take, or none where the body ends before a mark. -/
def mapEntriesLength : Nat → List Byte → Option Nat
  | 0, _ => some 0
  | n + 1, bs =>
    match sourceLength bs with
    | none => none
    | some k1 =>
      match sourceLength (bs.drop k1) with
      | none => none
      | some k2 =>
        match mapEntriesLength n (bs.drop (k1 + k2)) with
        | none => none
        | some k => some (k1 + k2 + k)

/-- A length that depends on a one-byte count at `off`. -/
def countedLength (ps : List Byte) (off fixed each : Nat) : Option Nat :=
  match ps[off]? with
  | none => none
  | some c => some (fixed + each * c.toNat)

/-- The length that an order's parameters must have, by its code (R180, section 12.3); none where the body ends before a count or mark that it depends on. -/
def requiredLength (code : Nat) (ps : List Byte) : Option Nat :=
  if code = 1 then some 0
  else if code = 2 then some 6
  else if code = 3 then some 2
  else if code = 4 then some 2
  else if code = 5 then some 0
  else if code = 6 then some 5
  else if code = 7 then countedLength ps 0 1 13
  else if code = 8 then countedLength ps 0 1 15
  else if code = 9 then some 1
  else if code = 10 then countedLength ps 1 2 14
  else if code = 11 then some 2
  else if code = 12 then
    match ps[1]? with
    | none => none
    | some c => (mapEntriesLength c.toNat (ps.drop 2)).map (fun k => 2 + k)
  else if code = 13 then some 2
  else if code = 14 then some 1
  else if code = 15 then some 3
  else if code = 16 then some 20
  else if code = 17 then some 20
  else if code = 18 then some 1
  else if code = 19 then countedLength ps 1 2 1
  else if code = 20 then some 0
  else none

/-- The second check of R180. -/
def lengthOk (body : List Byte) : Bool :=
  requiredLength (orderCode body).toNat (orderParams body) == some (orderParams body).length

/-! ## Raw entries of the list and table orders -/

/-- A source as a WRITE INPUT MAP carries it, before its checks (R36). -/
structure RawSource where
  head : Nat
  position : Nat
  gain : Int
  offset : Int
deriving DecidableEq, Repr

/-- An entry as a WRITE INPUT MAP carries it. -/
structure RawEntry where
  primary : Option RawSource
  standby : Option RawSource
deriving DecidableEq, Repr

/-- A source and its present mark, read from the front of the bytes. -/
def rawSource (bs : List Byte) : Option RawSource :=
  if bs.getD 0 0#8 = 0#8 then none
  else some ⟨fieldNat bs 1 1, fieldNat bs 2 1, fieldInt bs 3 2, fieldInt bs 5 2⟩

/-- The entries of a WRITE INPUT MAP, whose length has been checked. -/
def rawEntries : Nat → List Byte → List RawEntry
  | 0, _ => []
  | n + 1, bs =>
    let k1 := (sourceLength bs).getD 0
    let k2 := (sourceLength (bs.drop k1)).getD 0
    ⟨rawSource bs, rawSource (bs.drop k1)⟩ :: rawEntries n (bs.drop (k1 + k2))

/-- A route list entry as APPEND ROUTE carries it (R60). -/
structure RawRoute where
  kind : Nat
  distance : Int
  value : Nat
  mask : BitVec 32
deriving DecidableEq, Repr

/-- The 13 bytes of a route list entry. -/
def rawRoute (bs : List Byte) : RawRoute :=
  ⟨fieldNat bs 0 1, fieldInt bs 1 4, fieldNat bs 5 4, BitVec.ofNat 32 (fieldNat bs 9 4)⟩

/-- A section as APPEND SECTIONS carries it (R107). -/
structure RawSection where
  start : Int
  finish : Int
  cls : Nat
  suppressed : BitVec 8
  cant : Option Int
  label : BitVec 16
deriving DecidableEq, Repr

/-- The 15 bytes of a section. -/
def rawSection (bs : List Byte) : RawSection :=
  ⟨fieldInt bs 0 4, fieldInt bs 4 4, fieldNat bs 8 1, BitVec.ofNat 8 (fieldNat bs 9 1),
   if fieldNat bs 10 1 = 0 then none else some (fieldInt bs 11 2),
   BitVec.ofNat 16 (fieldNat bs 13 2)⟩

/-- A limit row as WRITE LIMITS carries it (R119): six thresholds, 0 for an absent one, hysteresis, minimum length. -/
structure RawRow where
  plus : List Nat
  minus : List Nat
  hysteresis : Nat
  minLength : Nat
deriving DecidableEq, Repr

/-- The 14 bytes of a limit row. -/
def rawRow (bs : List Byte) : RawRow :=
  ⟨[fieldNat bs 0 2, fieldNat bs 2 2, fieldNat bs 4 2],
   [fieldNat bs 6 2, fieldNat bs 8 2, fieldNat bs 10 2], fieldNat bs 12 1, fieldNat bs 13 1⟩

/-! ## The settings table by number (section 10.4, section 12.3) -/

/-- The settings that are one per head. -/
def perHeadSetting (n : Nat) : Bool := n == 12 || n == 13

/-- The settings that may change in HALTED only. -/
def haltedOnlySetting (n : Nat) : Bool := [1, 2, 3, 4, 6, 9, 12, 14, 19, 20, 21, 22].contains n

/-- The first check of R182: the number names a setting and the head address fits it. -/
def settingNamed (n a : Nat) : Bool :=
  decide (1 ≤ n) && decide (n ≤ 31) &&
    (if perHeadSetting n then decide (1 ≤ a) && decide (a ≤ 8) else a == 0)

/-- Whether lo ≤ v ≤ hi. -/
def between (lo hi v : Nat) : Bool := decide (lo ≤ v) && decide (v ≤ hi)

/-- The second check of R182: the value lies in the setting's range. A head shape whose bytes 3 and 2, which section 12.3 does not name, are not zero is out of range (the model's choice, log 19). -/
def settingInRange (n v : Nat) : Bool :=
  match n with
  | 1 => [250, 500, 1000].contains v
  | 2 => between 1 65535 v
  | 3 => between 1 65535 v
  | 4 => between 1 2 v
  | 5 => between 0 100 v
  | 6 => between 500 5000 v
  | 7 => between 0 500 v
  | 8 => between 100 60000 v
  | 9 => between 250 5000 v
  | 10 => between 0 15 v
  | 11 => between 1 15 v
  | 12 => between 0 16 (v / 256) && between 1 8 (v % 256)
  | 13 => between 0 1 v
  | 14 => between 0 8 v
  | 15 => between 1000 100000 v
  | 16 => between 0 100000 v
  | 17 => between 100 20000 v
  | 18 => between 1 7 v
  | 19 => between 4 200 v && v % 2 == 0
  | 20 => between 4 200 v && v % 2 == 0
  | 21 => between 2 100 v
  | 22 => between 2 100 v
  | 23 => between 0 32767 v
  | 24 => between 0 32767 v
  | 25 => between 1 64 v
  | 26 => between 0 400 v
  | 27 => between 1 255 v
  | 28 => between 0 127 v
  | 29 => between 0 63 v
  | 30 => between 1 63 v
  | 31 => between 0 1 v
  | _ => false

/-- A per-head setting read by head address. -/
def perHeadValue {α : Type} (t : Vector α 8) (f : α → Nat) (a : Nat) : Nat :=
  match headOfAddress a with
  | some h => f t[h]
  | none => 0

/-- A per-head setting written by head address. -/
def perHeadWrite {α : Type} (t : Vector α 8) (x : α) (a : Nat) : Vector α 8 :=
  match headOfAddress a with
  | some h => vmodify t h (fun _ => x)
  | none => t

/-- The value of a setting by number and head address (R183); a head shape has its channels in byte 1 and its samples in byte 0. -/
def Settings.value (s : Settings) (n a : Nat) : Nat :=
  match n with
  | 1 => s.recordSpacing
  | 2 => s.stepE1
  | 3 => s.stepE2
  | 4 => s.leadEncoder.code
  | 5 => s.slipLimit
  | 6 => s.reversalDistance
  | 7 => s.minSpeed
  | 8 => s.parkDelay
  | 9 => s.framePeriod
  | 10 => s.passThreshold
  | 11 => s.headErrorThreshold
  | 12 => perHeadValue s.shapes (fun x => x.channels * 256 + x.samples) a
  | 13 => perHeadValue s.mirrors (fun b => if b then 1 else 0) a
  | 14 => s.markerHead
  | 15 => s.matchWindow
  | 16 => s.largeCorrection
  | 17 => s.fixValidity
  | 18 => s.lostThreshold
  | 19 => s.chordLevel
  | 20 => s.chordAlign
  | 21 => s.twistShort
  | 22 => s.twistLong
  | 23 => s.nominalGauge
  | 24 => s.gaugeBase
  | 25 => s.closeLength
  | 26 => s.mergeGap
  | 27 => s.relayTimeout
  | 28 => s.routeLowWater
  | 29 => s.sectionLowWater
  | 30 => s.recorderErrorThreshold
  | 31 => if s.noticesEnabled then 1 else 0
  | _ => 0

/-- A setting written by number and head address (R182). -/
def Settings.write (s : Settings) (n a v : Nat) : Settings :=
  match n with
  | 1 => { s with recordSpacing := v }
  | 2 => { s with stepE1 := v }
  | 3 => { s with stepE2 := v }
  | 4 => { s with leadEncoder := if v = 2 then .e2 else .e1 }
  | 5 => { s with slipLimit := v }
  | 6 => { s with reversalDistance := v }
  | 7 => { s with minSpeed := v }
  | 8 => { s with parkDelay := v }
  | 9 => { s with framePeriod := v }
  | 10 => { s with passThreshold := v }
  | 11 => { s with headErrorThreshold := v }
  | 12 => { s with shapes := perHeadWrite s.shapes ⟨v / 256, v % 256⟩ a }
  | 13 => { s with mirrors := perHeadWrite s.mirrors (decide (v = 1)) a }
  | 14 => { s with markerHead := v }
  | 15 => { s with matchWindow := v }
  | 16 => { s with largeCorrection := v }
  | 17 => { s with fixValidity := v }
  | 18 => { s with lostThreshold := v }
  | 19 => { s with chordLevel := v }
  | 20 => { s with chordAlign := v }
  | 21 => { s with twistShort := v }
  | 22 => { s with twistLong := v }
  | 23 => { s with nominalGauge := v }
  | 24 => { s with gaugeBase := v }
  | 25 => { s with closeLength := v }
  | 26 => { s with mergeGap := v }
  | 27 => { s with relayTimeout := v }
  | 28 => { s with routeLowWater := v }
  | 29 => { s with sectionLowWater := v }
  | 30 => { s with recorderErrorThreshold := v }
  | 31 => { s with noticesEnabled := decide (v = 1) }
  | _ => s

/-- The part with its settings table replaced. -/
def Part.withSettings (p : Part) (s : Settings) : Part := p.withOru { p.oru with settings := s }

end Sys2Proof.Machine
end

