-- ==== Sys2Proof/Machine/Limits.lean ====
section
/-! DEFINITION. The Limit Unit: the section list and its compare-and-advance, the current section, the limit table, grades and release levels (Chapter 6). -/

namespace Sys2Proof.Machine

/-! ## The section list -/

/-- Whether a section's end is passed at route distance `d` (R109). -/
def TrackSection.endPassed (x : TrackSection) (dir : Direction) (d : Int) : Bool := beyond dir d x.finish

/-- Whether route distance `d` lies within a section: at or beyond its start and not yet at its end (R110). -/
def TrackSection.holds (x : TrackSection) (dir : Direction) (d : Int) : Bool :=
  !beyond dir x.start d && beyond dir x.finish d

/-- The current section: the head entry, if the route distance lies within it (R110). -/
def Part.currentSection (p : Part) : Option TrackSection :=
  match p.lmu.sections with
  | x :: _ => if x.holds p.odu.direction p.pfu.routeDistance then some x else none
  | [] => none

/-- The section list that a compare-and-advance leaves (R109). -/
def sectionsLeft (dir : Direction) (d : Int) (xs : List TrackSection) : List TrackSection :=
  xs.dropWhile (fun x => x.endPassed dir d)

/-- The low-water test after a removal by compare-and-advance (R112). -/
def Part.sectionLowTest (p : Part) : Part :=
  if p.lmu.lowArmed && decide (p.lmu.sections.length ≤ p.oru.settings.sectionLowWater) then
    (p.withLmu { p.lmu with lowArmed := false }).raise .sectionLow
  else p

/-- The starvation test after a removal by compare-and-advance (R113). -/
def Part.sectionStarvedTest (p : Part) : Part :=
  if p.lmu.sections.isEmpty && p.rnc.runState == .measuring then
    (p.bump .sectionStarvations).raise .sectionStarved
  else p

/-- Compare-and-advance of the section list against the present route distance (R109, R112, R113). -/
def Part.sectionAdvance (p : Part) : Part :=
  let rest := sectionsLeft p.odu.direction p.pfu.routeDistance p.lmu.sections
  let removed := p.lmu.sections.length - rest.length
  if removed = 0 then p
  else
    let p1 := (p.withLmu { p.lmu with sections := rest }).bumpBy .sectionsRetired removed
    p1.sectionLowTest.sectionStarvedTest

/-- The section list emptied and its low-water mark disarmed, with no event (R108, R114). -/
def Part.emptySections (p : Part) : Part :=
  p.withLmu { p.lmu with sections := [], lowArmed := false }

/-- The checks of R107 on one section, in their order: the failing result, or none. -/
def sectionRefusal (dir : Direction) (set : Bool) (d : Int) (xs : List TrackSection) (r : RawSection) :
    Option Result :=
  if 8 ≤ r.cls ∨ beyond dir r.finish r.start = false then some .badValue
  else if Config.sectionCapacity ≤ xs.length then some .listFull
  else
    match xs.getLast? with
    | some tail => if beyond dir tail.finish r.start then some .outOfSequence else none
    | none => if set && !beyond dir r.finish d then some .outOfSequence else none

/-- A section as it joins the list. -/
def RawSection.taken (r : RawSection) : TrackSection where
  start := r.start
  finish := r.finish
  cls := Fin.ofNat 8 r.cls
  suppressed := r.suppressed
  cant := r.cant
  label := r.label

/-- Sections taken one by one up to the first that fails: the list, the count taken, the result (R107). -/
def takeSections (dir : Direction) (set : Bool) (d : Int) :
    List RawSection → List TrackSection → List TrackSection × Nat × Result
  | [], xs => (xs, 0, .done)
  | r :: rs, xs =>
    match sectionRefusal dir set d xs r with
    | some e => (xs, 0, e)
    | none =>
      let (ys, n, e) := takeSections dir set d rs (xs ++ [r.taken])
      (ys, n + 1, e)

/-- Whether a low-water mark is armed after the list has grown or the setting has changed (R112). -/
def Part.armSections (p : Part) : Part :=
  p.withLmu { p.lmu with lowArmed := decide (p.oru.settings.sectionLowWater < p.lmu.sections.length) }

/-- APPEND SECTIONS with its sections read: the part, the taken count and the result (R107). -/
def Part.appendSectionList (p : Part) (rs : List RawSection) : Part × Nat × Result :=
  let (xs, n, e) := takeSections p.odu.direction (p.pfu.position != .unset) p.pfu.routeDistance rs p.lmu.sections
  let p1 := p.withLmu { p.lmu with sections := xs }
  (if p.oru.settings.sectionLowWater < xs.length then p1.armSections else p1, n, e)

/-! ## The limit table -/

/-- The thresholds of one polarity, from their written values, 0 for an absent one (R115). -/
def thresholdOf (n : Nat) : Option Nat := if n = 0 then none else some n

/-- The written value of a threshold. -/
def Thresholds.written (t : Thresholds) : List Nat := [t.t1.getD 0, t.t2.getD 0, t.t3.getD 0]

/-- The present thresholds of one polarity in grade order. -/
def Thresholds.present (t : Thresholds) : List Nat := [t.t1, t.t2, t.t3].filterMap (fun x => x)

/-- Whether a list rises strictly. -/
def risesStrictly : List Nat → Bool
  | [] => true
  | [_] => true
  | a :: b :: l => decide (a < b) && risesStrictly (b :: l)

/-- Validity of one polarity: present thresholds rise strictly and none is above 32767 (R116). -/
def Thresholds.valid (t : Thresholds) : Bool :=
  risesStrictly t.present && t.present.all (fun x => decide (x ≤ 32767))

/-- Validity of a row (R116). -/
def LimitRow.valid (r : LimitRow) : Bool := r.plus.valid && r.minus.valid

/-- The thresholds of a written row. -/
def thresholdsOf (l : List Nat) : Thresholds :=
  ⟨thresholdOf (l.getD 0 0), thresholdOf (l.getD 1 0), thresholdOf (l.getD 2 0)⟩

/-- The row that a WRITE LIMITS carries. -/
def RawRow.row (r : RawRow) : LimitRow := ⟨thresholdsOf r.plus, thresholdsOf r.minus, r.hysteresis, r.minLength⟩

/-- Rows written one by one from an address up to the first that fails: the table, the count written, the result (R119). -/
def writeRows : Nat → List RawRow → Vector LimitRow 64 → Vector LimitRow 64 × Nat × Result
  | _, [], t => (t, 0, .done)
  | a, r :: rs, t =>
    if h : a < 64 then
      if r.row.valid then
        let (t1, n, e) := writeRows (a + 1) rs (vmodify t ⟨a, h⟩ (fun _ => r.row))
        (t1, n + 1, e)
      else (t, 0, .badValue)
    else (t, 0, .badValue)

/-- The row of a class and a parameter, at address class × 8 + parameter (R115). -/
def Part.limitRow (p : Part) (cls : Fin 8) (param : Param) : LimitRow :=
  p.lmu.limits[(⟨cls.val * 8 + param.val, by omega⟩ : Fin 64)]

/-- The thresholds of a polarity. -/
def LimitRow.thresholds (r : LimitRow) : Polarity → Thresholds
  | .plus => r.plus
  | .minus => r.minus

/-- Whether a magnitude reaches a threshold that may be absent. -/
def reaches (t : Option Nat) (magnitude : Nat) : Bool :=
  match t with
  | some x => decide (x ≤ magnitude)
  | none => false

/-- The highest grade whose threshold is present and reached (R117). -/
def Thresholds.grade (t : Thresholds) (magnitude : Nat) : Nat :=
  if reaches t.t3 magnitude then 3
  else if reaches t.t2 magnitude then 2
  else if reaches t.t1 magnitude then 1
  else 0

/-- The polarity of a value; 0 has none (00_scope.md section 3.4). -/
def polarityOf (v : Int) : Option Polarity :=
  if 0 < v then some .plus else if v < 0 then some .minus else none

/-- The grade of a value with a row (R117). -/
def LimitRow.grade (r : LimitRow) (v : Int) : Nat :=
  match polarityOf v with
  | some s => (r.thresholds s).grade v.natAbs
  | none => 0

/-- The release level of a row and polarity (R118): the lowest present threshold, which is T1 where it is present, minus the hysteresis; 32768 where there is none. -/
def LimitRow.releaseLevel (r : LimitRow) (s : Polarity) : Int :=
  match (r.thresholds s).present.head? with
  | some t => (t : Int) - (r.hysteresis : Int)
  | none => 32768

end Sys2Proof.Machine
end

