-- ==== Sys2Proof/Machine/Tracker.lean ====
section
/-! DEFINITION. The Exceedance Tracker: judging a record, opening, merging, cuts, finalisation, placement, untracked latches and urgent notices (Chapter 7). -/

namespace Sys2Proof.Machine

/-! ## The emitted record (R96) -/

/-- Why a parameter is absent (R90). -/
inductive AbsenceCause where
  | suppressed
  | incompleteChord
  | noInput
deriving DecidableEq, Repr

/-- A parameter of an emitted record: its value and grade, or absent with its cause. -/
inductive ParamValue where
  | present (value : Int) (grade : Nat)
  | absent (cause : AbsenceCause)
deriving DecidableEq, Repr

/-- An emitted record as the Trace Unit hands it over (R96). -/
structure Emitted where
  seq : Seq
  route : Int
  label : Option Label
  position : PositionState
  cls : Fin 8
  sectionLabel : Option (BitVec 16)
  values : Vector ParamValue 8
  sourceSwitch : Bool
  suspectSource : Bool
deriving DecidableEq, Repr

/-- The parameter of a pair. -/
def pairParam (k : Pair) : Param := ⟨k.val / 2, by omega⟩

/-- The polarity of a pair. -/
def pairPolarity (k : Pair) : Polarity := if k.val % 2 = 0 then .plus else .minus

/-! ## Slots and latches -/

/-- A slot replaced. -/
def Part.setSlot (p : Part) (n : SlotNo) (x : Slot) : Part :=
  p.withExt { p.ext with slots := vmodify p.ext.slots n (fun _ => x) }

/-- A slot's content replaced, its urgent owed mark kept. -/
def Part.setHold (p : Part) (n : SlotNo) (x : SlotHold) : Part :=
  p.withExt { p.ext with slots := vmodify p.ext.slots n (fun y => { y with hold := x }) }

/-- A latch changed. -/
def Part.onLatch (p : Part) (k : Pair) (f : Latch → Latch) : Part :=
  p.withExt { p.ext with latches := vmodify p.ext.latches k f }

/-- The exceedance of an active slot. -/
def SlotHold.active? : SlotHold → Option Exceedance
  | .active _ ex => some ex
  | _ => none

/-- Whether a slot is active for a pair (R124). -/
def SlotHold.activeFor (x : SlotHold) (k : Pair) : Bool :=
  match x.active? with
  | some ex => ex.param == pairParam k && ex.polarity == pairPolarity k
  | none => false

/-- The active slot of a pair (R125). -/
def Part.activeSlot (p : Part) (k : Pair) : Option SlotNo :=
  (List.finRange 24).find? (fun n => p.ext.slots[n].hold.activeFor k)

/-- Whether a slot can be opened: FREE with its urgent owed mark clear (R129). -/
def Slot.available (x : Slot) : Bool := x.hold == .free && !x.urgentOwed

/-- The lowest-numbered slot that can be opened (R129). -/
def Part.availableSlot (p : Part) : Option SlotNo :=
  (List.finRange 24).find? (fun n => p.ext.slots[n].available)

/-- An exceedance with URGENT_SENT set. -/
def Exceedance.markUrgentSent (ex : Exceedance) : Exceedance :=
  { ex with flags := { ex.flags with urgentSent := true } }

/-- URGENT_SENT set in the exceedance that a slot holds, if it holds one (R147, R148). -/
def SlotHold.markUrgentSent : SlotHold → SlotHold
  | .free => .free
  | .active ph ex => .active ph ex.markUrgentSent
  | .pending ex r => .pending ex.markUrgentSent r

/-! ## Urgent notices (R144 to R148) -/

/-- The urgent notice of a record (R146). -/
def Emitted.notice (r : Emitted) (k : Pair) (value : Int) (grade : Nat) (serial : Option Nat) : UrgentNotice where
  param := pairParam k
  polarity := pairPolarity k
  value := value
  grade := grade
  seq := r.seq
  route := r.route
  label := r.label
  serial := serial
  position := r.position

/-- The urgent owed mark of an owner written. -/
def Part.markOwed (p : Part) (o : Owner) (b : Bool) : Part :=
  match o with
  | .slot n => p.withExt { p.ext with slots := vmodify p.ext.slots n (fun x => { x with urgentOwed := b }) }
  | .latch k => p.onLatch k (fun x => { x with urgentOwed := b })

/-- URGENT_SENT set in the exceedance of a slot owner (R147). -/
def Part.markSent (p : Part) (o : Owner) : Part :=
  match o with
  | .slot n => p.withExt { p.ext with slots := vmodify p.ext.slots n (fun x => { x with hold := x.hold.markUrgentSent }) }
  | .latch _ => p

/-- A notice that enters the control queue (R147, R148). -/
def Part.sendUrgent (p : Part) (o : Owner) (u : UrgentNotice) : Part :=
  ((p.withRlu (p.rlu.placeControl (.urgent u))).bump .urgentSent).markSent o

/-- A notice replaced in the owed list, keeping its place (R147). -/
def replaceOwed (o : Owner) (u : UrgentNotice) (l : List Owed) : List Owed :=
  l.map (fun x => if x.owner = o then ⟨o, u⟩ else x)

/-- A notice that becomes due: sent, or owed (R147). -/
def Part.urgentDue (p : Part) (o : Owner) (u : UrgentNotice) : Part :=
  if p.ext.owed.isEmpty && decide (1 ≤ p.rlu.freeEntries) then p.sendUrgent o u
  else if p.ext.owed.any (fun x => x.owner == o) then
    (p.withExt { p.ext with owed := replaceOwed o u p.ext.owed }).bump .owedReplacements
  else
    ((p.withExt { p.ext with owed := p.ext.owed ++ [⟨o, u⟩] }).markOwed o true).bump .urgentOwed

/-- Owed notices moved into free control entries, oldest first, until none is owed or no entry is free (R148). -/
def Part.moveOwedList (p : Part) : List Owed → Part
  | [] => p
  | x :: xs =>
    if 1 ≤ p.rlu.freeEntries then
      (((p.withExt { p.ext with owed := xs }).markOwed x.owner false).sendUrgent x.owner x.notice).moveOwedList xs
    else p

/-- R148, at a control entry freed. -/
def Part.moveOwed (p : Part) : Part := p.moveOwedList p.ext.owed

/-- The answer of a command whose effect on the part is `f`, at the end of which owed notices take what control entries are free (R148). Only a leaving that lets another take its entry first (log 17) ends a command without this. -/
def live (s : State) (f : Part → Part) : Host.Outcome State Fault Refusal := unheld s (fun p => (f p).moveOwed)

/-! ## Finalisation (R140 to R143) -/

/-- The cut flags (R134, R137). -/
inductive CutFlag where
  | input
  | suppress
  | reversal
  | stop
  | jump
deriving DecidableEq, Repr

/-- A cut flag set. -/
def ExFlags.withCut (f : ExFlags) : Option CutFlag → ExFlags
  | none => f
  | some .input => { f with cutInput := true }
  | some .suppress => { f with cutSuppress := true }
  | some .reversal => { f with cutReversal := true }
  | some .stop => { f with cutStop := true }
  | some .jump => { f with cutJump := true }

/-- The length of an exceedance in records, modulo 2^32 (R140). -/
def Exceedance.length (ex : Exceedance) : Nat := (ex.endSeq - ex.startSeq + 1).toNat

/-- The Exceedance Report of an exceedance (R141). -/
def Exceedance.report (ex : Exceedance) (run : BitVec 16) : Report where
  runNumber := run
  serial := ex.serial
  param := ex.param
  polarity := ex.polarity
  grade := ex.grade
  startSeq := ex.startSeq
  startRoute := ex.startRoute
  endSeq := ex.endSeq
  endRoute := ex.endRoute
  length := ex.length
  peak := ex.peak
  startLabel := ex.startLabel
  merges := ex.merges
  correction := if ex.correction = 0 then none else some ex.correction
  flags := ex.flags
  positionCorrected := ex.correction != 0

/-- A report joins the tail of the XR queue, taking URGENT_SENT from its slot's exceedance, and its slot becomes FREE (R142, R143, R172). -/
def Part.placeReport (p : Part) (n : SlotNo) (ex : Exceedance) (r : Report) : Part :=
  let r1 := { r with flags := { r.flags with urgentSent := ex.flags.urgentSent } }
  ((p.withRlu { p.rlu with xr := p.rlu.xr ++ [r1] }).setHold n .free).bump .reportsPlaced

/-- A report that waits in its slot: PENDING, at the tail of the pending list (R142). -/
def Part.holdReport (p : Part) (n : SlotNo) (ex : Exceedance) (r : Report) : Part :=
  let p1 := p.setHold n (.pending ex r)
  (p1.withExt { p1.ext with pendingList := p1.ext.pendingList ++ [n] }).bump .pendings

/-- Whether a finalised exceedance is discarded as short (R140). -/
def Part.isShort (p : Part) (ex : Exceedance) : Bool :=
  decide (ex.length < (p.limitRow ex.peak.cls ex.param).minLength) && decide (ex.grade < 3)

/-- An exceedance finalised in its slot (R140, R142). -/
def Part.finaliseEx (p : Part) (n : SlotNo) (ex0 : Exceedance) (cut : Option CutFlag) : Part :=
  let ex := { ex0 with flags := ex0.flags.withCut cut }
  if p.isShort ex then (p.setHold n .free).bump .shortDiscards
  else if p.rlu.xr.length < Config.xrCapacity then p.placeReport n ex (ex.report p.rnc.runNumber)
  else p.holdReport n ex (ex.report p.rnc.runNumber)

/-- The cut flag that a slot takes: none when it is HELD (R134, R137). -/
def cutFor (ph : SlotPhase) (c : CutFlag) : Option CutFlag :=
  match ph with
  | .held => none
  | _ => some c

/-- A slot finalised by a cut, if it is active (R137). -/
def Part.cutSlot (p : Part) (c : CutFlag) (n : SlotNo) : Part :=
  match p.ext.slots[n].hold with
  | .active ph ex => p.finaliseEx n ex (cutFor ph c)
  | _ => p

/-- How long ago, in openings, an active slot was opened; serials run from 1 to 2^32 - 1 and round (R126; log 20). -/
def Ext.age (x : Ext) (n : SlotNo) : Nat :=
  match x.slots[n].hold.active? with
  | some ex => (x.nextSerial + 4294967295 - ex.serial) % 4294967295
  | none => 0

/-- A slot number put in its place by age, oldest first. -/
def insertByAge (x : Ext) (n : SlotNo) : List SlotNo → List SlotNo
  | [] => [n]
  | m :: l => if x.age m < x.age n then n :: m :: l else m :: insertByAge x n l

/-- The active slots in the order in which they were opened (R137). -/
def Ext.activeInOrder (x : Ext) : List SlotNo :=
  ((List.finRange 24).filter (fun n => x.slots[n].hold.active?.isSome)).foldr (insertByAge x) []

/-- A latch cleared with its urgent raised mark, its urgent owed mark kept (R135, R137). -/
def Latch.cleared (l : Latch) : Latch := { l with isSet := false, urgentRaised := false }

/-- Every latch cleared (R137). -/
def Part.clearLatches (p : Part) : Part :=
  p.withExt { p.ext with latches := p.ext.latches.map Latch.cleared }

/-- A cut from outside the record stream (R137). -/
def Part.cut (p : Part) (c : CutFlag) : Part :=
  ((p.ext.activeInOrder.foldl (fun q n => q.cutSlot c n) p).clearLatches).bump .cuts

/-- A slot's correction sum moved, if the slot is active (R139). -/
def SlotHold.correct (c : Int) : SlotHold → SlotHold
  | .active ph ex => .active ph { ex with correction := sat32 (ex.correction + c) }
  | x => x

/-- A correction added to every active slot's correction sum (R139). -/
def Part.correctSlots (p : Part) (c : Int) : Part :=
  p.withExt { p.ext with slots := p.ext.slots.map (fun x => { x with hold := x.hold.correct c }) }

/-- The report of the slot at the head of the pending list moves into the XR queue (R143). -/
def Part.promotePending (p : Part) : Part :=
  match p.ext.pendingList with
  | [] => p
  | n :: rest =>
    let p1 := p.withExt { p.ext with pendingList := rest }
    match p.ext.slots[n].hold with
    | .pending ex r => p1.placeReport n ex r
    | _ => p1

/-! ## Judging a record (R127 to R136) -/

/-- Whether a present value is inside for a pair (R128). -/
def Part.isInside (p : Part) (cls : Fin 8) (k : Pair) (v : Int) : Bool :=
  polarityOf v != some (pairPolarity k) ||
    decide ((v.natAbs : Int) < (p.limitRow cls (pairParam k)).releaseLevel (pairPolarity k))

/-- The flags that a contributing record sets (R131). -/
def ExFlags.contribute (f : ExFlags) (startClass : Fin 8) (r : Emitted) : ExFlags :=
  { f with
    sourceMixed := f.sourceMixed || r.sourceSwitch
    suspectSource := f.suspectSource || r.suspectSource
    positionDoubtful := f.positionDoubtful || r.position == .uncertain || r.position == .lost
    classChanged := f.classChanged || r.cls != startClass }

/-- The peak that a record makes. -/
def Emitted.peak (r : Emitted) (v : Int) : Peak := ⟨v, r.seq, r.route, r.label, r.position, r.cls⟩

/-- An exceedance after a contributing record that is not its opening one (R131). -/
def Exceedance.contribute (ex : Exceedance) (r : Emitted) (v : Int) (g : Nat) : Exceedance :=
  { ex with
    endSeq := r.seq
    endRoute := r.route
    peak := if ex.peak.value.natAbs < v.natAbs then r.peak v else ex.peak
    grade := max ex.grade g
    flags := ex.flags.contribute ex.startClass r }

/-- No flag set. -/
def ExFlags.clear : ExFlags := ⟨false, false, false, false, false, false, false, false, false, false⟩

/-- The exceedance that a record opens (R129). -/
def Emitted.opening (r : Emitted) (k : Pair) (serial : Nat) (v : Int) (g : Nat) : Exceedance where
  serial := serial
  param := pairParam k
  polarity := pairPolarity k
  startSeq := r.seq
  startRoute := r.route
  startClass := r.cls
  startLabel := r.sectionLabel
  endSeq := r.seq
  endRoute := r.route
  peak := r.peak v
  grade := g
  merges := 0
  clearCount := 0
  sinceEnd := 0
  correction := 0
  flags := ExFlags.clear.contribute r.cls r

/-- A slot OPEN with an exceedance, after a contributing record: an urgent notice is due when the highest grade has become 3 (R131, R144). -/
def Part.contributeTo (p : Part) (n : SlotNo) (k : Pair) (ex : Exceedance) (r : Emitted) (v : Int) (g : Nat) : Part :=
  let p1 := p.setHold n (.active .opened (ex.contribute r v g))
  if ex.grade < 3 ∧ 3 ≤ g then p1.urgentDue (.slot n) (r.notice k v g (some ex.serial)) else p1

/-- A slot that takes an inside record and has then counted `c` in a row: CLOSING, HELD at the close length, finalised there when records since end already exceeds the merge gap (R132). -/
def Part.insideStep (p : Part) (n : SlotNo) (ex : Exceedance) (c : Nat) : Part :=
  if c < p.oru.settings.closeLength then p.setHold n (.active .closing { ex with clearCount := c })
  else if p.oru.settings.mergeGap < c then
    p.finaliseEx n { ex with clearCount := c, sinceEnd := c } none
  else p.setHold n (.active .held { ex with clearCount := c, sinceEnd := c })

/-- A HELD slot that takes a present value which does not merge it (R133). -/
def Part.heldStep (p : Part) (n : SlotNo) (ex : Exceedance) : Part :=
  let ex1 := { ex with sinceEnd := ex.sinceEnd + 1 }
  if p.oru.settings.mergeGap < ex1.sinceEnd then p.finaliseEx n ex1 none
  else p.setHold n (.active .held ex1)

/-- The cut flag of an absent value (R134). -/
def AbsenceCause.cut : AbsenceCause → CutFlag
  | .suppressed => .suppress
  | _ => .input

/-- An active slot takes a record (R132, R133, R134). -/
def Part.slotTakes (p : Part) (n : SlotNo) (k : Pair) (ph : SlotPhase) (ex : Exceedance) (r : Emitted) : Part :=
  match r.values[pairParam k] with
  | .absent cause => p.finaliseEx n ex (cutFor ph cause.cut)
  | .present v g =>
    match ph with
    | .opened => if p.isInside r.cls k v then p.insideStep n ex 1 else p.contributeTo n k ex r v g
    | .closing =>
      if p.isInside r.cls k v then p.insideStep n ex (ex.clearCount + 1)
      else p.contributeTo n k { ex with clearCount := 0 } r v g
    | .held =>
      if 1 ≤ g ∧ polarityOf v = some (pairPolarity k) then
        p.contributeTo n k { ex with merges := min (ex.merges + 1) 65535, clearCount := 0, sinceEnd := 0 } r v g
      else p.heldStep n ex

/-- A set latch whose pair has grade 1 or more: an urgent notice at the first grade 3 of the latch period (R135, R145). -/
def Part.latchOut (p : Part) (k : Pair) (r : Emitted) (v : Int) (g : Nat) : Part :=
  if 3 ≤ g ∧ p.ext.latches[k].urgentRaised = false then
    (p.onLatch k (fun l => { l with urgentRaised := true })).urgentDue (.latch k) (r.notice k v g none)
  else p

/-- A set latch takes a record; the mark says whether the record is UNTRACKED for this pair (R135). -/
def Part.latchTakes (p : Part) (k : Pair) (r : Emitted) : Part × Bool :=
  match r.values[pairParam k] with
  | .absent _ => (p.onLatch k Latch.cleared, false)
  | .present v g =>
    if polarityOf v = some (pairPolarity k) ∧ 1 ≤ g then (p.latchOut k r v g, true)
    else if p.isInside r.cls k v then (p.onLatch k Latch.cleared, false)
    else (p, false)

/-- The serial counter advanced: after 4294967295 comes 1 (R126). -/
def nextSerialAfter (n : Nat) : Nat := if n = 4294967295 then 1 else n + 1

/-- A slot opened by a record (R129). -/
def Part.openSlot (p : Part) (n : SlotNo) (k : Pair) (r : Emitted) (v : Int) (g : Nat) : Part :=
  let serial := p.ext.nextSerial
  let p1 := (p.setSlot n ⟨.active .opened (r.opening k serial v g), false⟩)
  let p2 := (p1.withExt { p1.ext with nextSerial := nextSerialAfter serial }).bump .opened
  if 3 ≤ g then p2.urgentDue (.slot n) (r.notice k v g (some serial)) else p2

/-- A latch set because no slot can be had (R130). -/
def Part.setLatch (p : Part) (k : Pair) (r : Emitted) (v : Int) (g : Nat) : Part :=
  let p1 := p.onLatch k (fun l => { l with isSet := true, urgentRaised := false })
  ((p1.bump .slotOverflows).raise .slotOverflow).latchOut k r v g

/-- A pair with no active slot and its latch clear takes a record (R129, R130). -/
def Part.mayOpen (p : Part) (k : Pair) (r : Emitted) : Part × Bool :=
  match r.values[pairParam k] with
  | .absent _ => (p, false)
  | .present v g =>
    if polarityOf v = some (pairPolarity k) ∧ 1 ≤ g then
      match p.availableSlot with
      | some n => (p.openSlot n k r v g, false)
      | none => (p.setLatch k r v g, true)
    else (p, false)

/-- One pair takes a record (R127). -/
def Part.judgePair (p : Part) (k : Pair) (r : Emitted) : Part × Bool :=
  match p.activeSlot k with
  | some n =>
    match p.ext.slots[n].hold with
    | .active ph ex => (p.slotTakes n k ph ex r, false)
    | _ => (p, false)
  | none => if p.ext.latches[k].isSet then p.latchTakes k r else p.mayOpen k r

/-- Pairs taken in order; the mark says whether the record is UNTRACKED (R127, R135). -/
def Part.judgePairs (p : Part) (r : Emitted) : List Pair → Part × Bool
  | [] => (p, false)
  | k :: ks =>
    let x := p.judgePair k r
    let y := x.1.judgePairs r ks
    (y.1, x.2 || y.2)

/-- The tracker takes a record: all 16 pairs, parameter by parameter, + before − (R127). -/
def Part.judge (p : Part) (r : Emitted) : Part × Bool := p.judgePairs r (List.finRange 16)

end Sys2Proof.Machine
end

