-- ==== Sys2Proof/Machine/Position.lean ====
section
/-! DEFINITION. The Position Fixing Unit: the movement of the route distance, the route list and its compare-and-advance, labels, marker matching, fixes and misses, and SET POSITION (Chapter 4, R43, R44). -/

namespace Sys2Proof.Machine

/-! ## Movement of the route distance -/

/-- The last passed post made none where the route distance lies below it (R63). -/
def Part.dropPost (p : Part) : Part :=
  match p.pfu.lastPost with
  | some x => if p.pfu.routeDistance < x.distance then p.withPfu { p.pfu with lastPost := none } else p
  | none => p

/-- The route distance and the residue set, with R63's test. -/
def Part.placeAt (p : Part) (route residue : Int) : Part :=
  ((p.withPfu { p.pfu with routeDistance := route }).withOdu { p.odu with residue := residue }).dropPost

/-- The position state after a saturation of the route distance (R69). -/
def PositionState.doubted : PositionState → PositionState
  | .deadReckoned => .uncertain
  | .fixed => .uncertain
  | x => x

/-- A saturation reported (R44, R69). -/
def Part.routeSaturated (p : Part) : Part :=
  (p.withPfu { p.pfu with position := p.pfu.position.doubted }).bump .routeSaturations

/-- The fine position in µm (R43). -/
def Part.finePosition (p : Part) : Int := p.pfu.routeDistance * 1000 + p.odu.residue

/-- The fine position moved by some µm, saturating (R43, R44); nothing moves while the position state is UNSET. -/
def Part.moveRoute (p : Part) (delta : Int) : Part :=
  if p.pfu.position = .unset then p
  else
    let f := p.finePosition + delta
    if f < -2147483648000 then (p.placeAt (-2147483648) 0).routeSaturated
    else if 2147483647999 < f then (p.placeAt 2147483647 999).routeSaturated
    else p.placeAt (f / 1000) (f % 1000)

/-- The distance since last fix after a step: it stops growing above 20000 m (R67). -/
def travelled (x step : Nat) : Nat := if 20000000000 < x then x else x + step

/-- A step's distance added to the distance since last fix (R67). -/
def Part.addTravel (p : Part) (step : Nat) : Part :=
  if p.pfu.position = .unset then p
  else p.withPfu { p.pfu with sinceFix := p.pfu.sinceFix.map (fun x => travelled x step) }

/-- Whether the distance since last fix exceeds the fix validity distance (R68). -/
def Part.fixExpired (p : Part) : Bool :=
  match p.pfu.sinceFix with
  | some x => decide (p.oru.settings.fixValidity * 1000000 < x)
  | none => false

/-- The fix validity test (R68). -/
def Part.validityTest (p : Part) : Part :=
  if p.pfu.position = .fixed ∧ p.fixExpired then p.withPfu { p.pfu with position := .deadReckoned } else p

/-! ## The kilometre label (R66) -/

/-- The kilometre posts of the route list. -/
def postsOf (l : List RouteEntry) : List Post :=
  l.filterMap (fun e => match e.kind with | .kpost km => some ⟨e.distance, km⟩ | .marker _ _ => none)

/-- The later of two candidates for the label, the earlier kept where they are level. -/
def betterPost (d : Int) (best : Option Post) (x : Post) : Option Post :=
  if d < x.distance then best
  else
    match best with
    | some b => if b.distance < x.distance then some x else some b
    | none => some x

/-- The kilometre label at this moment (R66). -/
def Part.label (p : Part) : Option Label :=
  if p.pfu.position = .unset then none
  else
    match (p.pfu.lastPost.toList ++ postsOf p.pfu.routeList).foldl (betterPost p.pfu.routeDistance) none with
    | none => none
    | some x =>
      if 65535999 < p.pfu.routeDistance - x.distance then none
      else some ⟨x.kilometre, p.pfu.routeDistance - x.distance⟩

/-! ## Compare-and-advance (R62, R63, R76, R80) -/

/-- The match window and miss window: the setting, or four times it while LOST (R62, R71). -/
def Part.window (p : Part) : Int :=
  (if p.pfu.position = .lost then 4 * p.oru.settings.matchWindow else p.oru.settings.matchWindow : Nat)

/-- A KPOST removed as passed: in UP travel it becomes the last passed post (R63). -/
def Part.postPassed (p : Part) (x : Post) : Part :=
  match p.odu.direction with
  | .up => p.withPfu { p.pfu with lastPost := some x }
  | .down => p

/-- The consecutive miss count against the lost threshold (R76). -/
def Part.missState (p : Part) : Part :=
  if p.oru.settings.lostThreshold ≤ p.pfu.missCount then
    (match p.pfu.position with
     | .lost => p
     | .unset => p
     | _ => (p.withPfu { p.pfu with position := .lost }).raise .positionLost)
  else p.withPfu { p.pfu with position := p.pfu.position.doubted }

/-- A marker removed as missed (R76). -/
def Part.markerMissed (p : Part) : Part :=
  (((p.bump .missedMarkers).withPfu { p.pfu with missCount := min (p.pfu.missCount + 1) 7 }).raise .markerMissed).missState

/-- A marker whose window end is passed: missed, or skipped by the set advance (R76, R80). -/
def Part.markerGone (p : Part) (skip : Bool) : Part :=
  if skip then p.bump .skippedMarkers else p.markerMissed

/-- The scan of a compare-and-advance from the head: the part, and the entries that stay (R62). -/
def Part.scanRoute (p : Part) (skip : Bool) : List RouteEntry → Part × List RouteEntry
  | [] => (p, [])
  | e :: es =>
    if beyond p.odu.direction p.pfu.routeDistance e.distance then
      match e.kind with
      | .kpost km => (p.postPassed ⟨e.distance, km⟩).scanRoute skip es
      | .marker _ _ =>
        if beyond p.odu.direction p.pfu.routeDistance (e.distance + p.odu.direction.sign * p.window) then
          (p.markerGone skip).scanRoute skip es
        else
          let x := p.scanRoute skip es
          (x.1, e :: x.2)
    else (p, e :: es)

/-- The low-water test after a removal from the route list (R64). -/
def Part.routeLowTest (p : Part) : Part :=
  if p.pfu.lowArmed && decide (p.pfu.routeList.length ≤ p.oru.settings.routeLowWater) then
    (p.withPfu { p.pfu with lowArmed := false }).raise .routeLow
  else p

/-- Compare-and-advance of the route list, or the set advance (R62, R80). -/
def Part.routeAdvance (p : Part) (skip : Bool) : Part :=
  let x := p.scanRoute skip p.pfu.routeList
  let p1 := x.1.withPfu { x.1.pfu with routeList := x.2 }
  if x.2.length = p.pfu.routeList.length then p1 else p1.routeLowTest

/-- The route list emptied and its low-water mark disarmed, with no event (R61, R64, R65). -/
def Part.emptyRoute (p : Part) : Part :=
  p.withPfu { p.pfu with routeList := [], lowArmed := false }

/-- The route list's low-water mark armed or disarmed by the list's length (R64). -/
def Part.armRoute (p : Part) : Part :=
  p.withPfu { p.pfu with lowArmed := decide (p.oru.settings.routeLowWater < p.pfu.routeList.length) }

/-! ## Loading the route list (R60) -/

/-- The kind of a raw route entry that passes the first check of R60. -/
def RawRoute.kind? (r : RawRoute) : Option RouteKind :=
  if r.kind = 0 then some (.marker (BitVec.ofNat 32 r.value) r.mask)
  else if r.kind = 1 ∧ r.value ≤ 9999 then some (.kpost r.value)
  else none

/-- Whether an entry is out of sequence (R60). -/
def routeOutOfSequence (dir : Direction) (set : Bool) (d : Int) (xs : List RouteEntry) (distance : Int) : Bool :=
  match xs.getLast? with
  | some tail => !beyond dir distance tail.distance
  | none => set && !beyond dir distance d

/-- Entries taken one by one up to the first that fails: the list, the count taken, the result (R60). -/
def takeRoutes (dir : Direction) (set : Bool) (d : Int) :
    List RawRoute → List RouteEntry → List RouteEntry × Nat × Result
  | [], xs => (xs, 0, .done)
  | r :: rs, xs =>
    match r.kind? with
    | none => (xs, 0, .badValue)
    | some k =>
      if Config.routeCapacity ≤ xs.length then (xs, 0, .listFull)
      else if routeOutOfSequence dir set d xs r.distance then (xs, 0, .outOfSequence)
      else
        let (ys, n, e) := takeRoutes dir set d rs (xs ++ [⟨r.distance, k⟩])
        (ys, n + 1, e)

/-- APPEND ROUTE with its entries read: the part, the taken count and the result (R60, R64). -/
def Part.appendRouteList (p : Part) (rs : List RawRoute) : Part × Nat × Result :=
  let (xs, n, e) := takeRoutes p.odu.direction (p.pfu.position != .unset) p.pfu.routeDistance rs p.pfu.routeList
  let p1 := p.withPfu { p.pfu with routeList := xs }
  (if p.oru.settings.routeLowWater < xs.length then p1.armRoute else p1, n, e)

/-! ## Marker matching and fixes (R70 to R74) -/

/-- Whether a MARKER entry matches a detection: every bit clear in the mask is equal, and the distance lies in the window (R71). -/
def markerMatches (w d : Int) (code : BitVec 32) (m : Int) (c k : BitVec 32) : Bool :=
  (code ^^^ c) &&& ~~~k == 0#32 && decide (m - w ≤ d) && decide (d ≤ m + w)

/-- The match among the first `n` MARKER entries: the entries before it, its distance, the entries after it (R71). -/
def findMatch (w d : Int) (code : BitVec 32) : Nat → List RouteEntry → Option (List RouteEntry × Int × List RouteEntry)
  | _, [] => none
  | 0, _ => none
  | n + 1, e :: es =>
    match e.kind with
    | .kpost _ => (findMatch w d code (n + 1) es).map (fun x => (e :: x.1, x.2))
    | .marker c k =>
      if markerMatches w d code e.distance c k then some ([], e.distance, es)
      else (findMatch w d code n es).map (fun x => (e :: x.1, x.2))

/-- Whether an entry is a MARKER. -/
def RouteEntry.isMarker (e : RouteEntry) : Bool :=
  match e.kind with
  | .marker _ _ => true
  | .kpost _ => false

/-- How many MARKER entries are candidates (R71). -/
def Part.candidates (p : Part) : Nat := if p.pfu.position = .lost then 8 else 2

/-- The MARKER entries before a match counted as missed (R72 step 1). -/
def Part.missBefore (p : Part) (n : Nat) : Part :=
  if n = 0 then p else (p.bumpBy .missedMarkers n).raise .markerMissed

/-- The test for a large correction (R73). -/
def Part.largeTest (p : Part) (c : Int) : Part :=
  if p.oru.settings.largeCorrection < c.natAbs then (p.bump .largeCorrections).raise .largeCorrection else p

/-- The pending correction with one more correction (R73). -/
def pendingWith (old : Option Int) (c : Int) : Option Int :=
  match old with
  | some x => some (sat32 (x + c))
  | none => some c

/-- The hand-off of a correction (R73). -/
def Part.handOff (p : Part) (c : Int) : Part :=
  let p1 := p.correctSlots c
  (p1.withPfu { p1.pfu with pendingCorrection := pendingWith p1.pfu.pendingCorrection c }).largeTest c

/-- The position fixed at distance `m` (R72 steps 3 and 4); the residue is not changed. -/
def Part.fixedAt (p : Part) (m : Int) : Part :=
  (p.withPfu { p.pfu with routeDistance := m, position := .fixed, sinceFix := some 0, missCount := 0 }).dropPost

/-- A fix on the entry at distance `m` that stands after `before` and before `after` (R72). -/
def Part.fix (p : Part) (before : List RouteEntry) (m : Int) (after : List RouteEntry) : Part :=
  let c := m - p.pfu.routeDistance
  let p1 := p.missBefore (before.countP RouteEntry.isMarker)
  let p2 := (p1.withPfu { p1.pfu with routeList := before.filter (fun e => !e.isMarker) ++ after }).routeLowTest
  let p3 := ((p2.fixedAt m).bump .fixes).raise .positionFix
  ((p3.handOff c).routeAdvance false).sectionAdvance

/-- A marker detection taken (R70, R71, R74). -/
def Part.detect (p : Part) (code : BitVec 32) : Part :=
  if p.pfu.position = .unset then p.bump .unsetMarkers
  else
    match findMatch p.window p.pfu.routeDistance code p.candidates p.pfu.routeList with
    | some x => p.fix x.1 x.2.1 x.2.2
    | none => (p.bump .unknownMarkers).raise .markerUnknown

/-! ## SET POSITION (R79) -/

/-- A change of direction by SET POSITION (R79 step 1). -/
def Part.turnTo (p : Part) (dir : Direction) : Part :=
  if dir = p.odu.direction then p
  else (p.withOdu { p.odu with direction := dir }).emptyRoute.emptySections

/-- Whether the run state is ARMED, MEASURING or PARKED. -/
def RunState.inRun : RunState → Bool
  | .halted => false
  | _ => true

/-- The effect of an accepted SET POSITION (R79). -/
def Part.setPositionTo (p : Part) (route : Int) (dir : Direction) : Part :=
  let p1 := p.turnTo dir
  let p2 := p1.withOdu { p1.odu with residue := 0 }
  let p3 := p2.withPfu { p2.pfu with routeDistance := route, position := .deadReckoned, missCount := 0, lastPost := none }
  let p4 := (p3.routeAdvance true).sectionAdvance
  if p4.rnc.runState.inRun then p4.cut .jump else p4

end Sys2Proof.Machine
end

