-- ==== Sys2Proof/Machine/Sampling.lean ====
section
/-! DEFINITION. The Sample Holding Unit: source verdicts, holding values, channel selection and speed blanking at a capture, and the input map orders (Chapter 2). -/

namespace Sys2Proof.Machine

/-- The verdicts of R39, in the order of their codes (section 12.3). -/
inductive Verdict where
  | usable
  | usableSuspect
  | notQualified
  | headFault
  | noFrame
  | outOfShape
deriving DecidableEq, Repr

/-- Verdict codes. -/
def Verdict.code : Verdict → Nat
  | .usable => 0
  | .usableSuspect => 1
  | .notQualified => 2
  | .headFault => 3
  | .noFrame => 4
  | .outOfShape => 5

/-- Whether a head is proven: QUALIFIED or SUSPECT. -/
def HeadState.proven : HeadState → Bool
  | .qualified => true
  | .suspect => true
  | _ => false

/-- The HEAD FAULT flag of a head record (R18). -/
def HeadRecord.headFault (r : HeadRecord) : Bool := r.status.getLsbD 0

/-- Whether a head has a held sample frame that is fresh (R29). -/
def Part.heldFresh (p : Part) (h : Head) : Bool :=
  p.hlu.heads[h].held.isSome && p.shu.freshness[h].isSome

/-- The verdict on a source: the first condition of R28 that fails (R39). -/
def Part.verdict (p : Part) (s : Source) : Verdict :=
  let r := p.hlu.heads[s.head]
  if !r.state.proven then .notQualified
  else if r.headFault then .headFault
  else if !p.heldFresh s.head then .noFrame
  else if p.oru.settings.shapes[s.head].channels ≤ s.position.val then .outOfShape
  else if r.state = .suspect then .usableSuspect
  else .usable

/-- Whether a source is usable (R28). -/
def Part.sourceUsable (p : Part) (s : Source) : Bool :=
  p.verdict s == .usable || p.verdict s == .usableSuspect

/-- The holding value of a source: mean × gain / 4096 toward zero, plus the offset (R31). -/
def Part.holdingValue (p : Part) (s : Source) : Int :=
  let mean := ((p.hlu.heads[s.head].held.map HeldFrame.means).getD []).getD s.position.val 0
  (mean * s.gain).tdiv 4096 + s.offset

/-- What the SHU supplies for one channel: the value with its mark, and the source it came from (R32). -/
structure Supplied where
  sample : Sample
  source : Source
deriving DecidableEq, Repr

/-- The channel value of one source. -/
def Part.supply (p : Part) (m : SourceMark) (s : Source) : Supplied := ⟨⟨p.holdingValue s, m⟩, s⟩

/-- The decision of R32 for one channel. -/
def Part.channelValue (p : Part) (e : Option MapEntry) : Option Supplied :=
  match e with
  | none => none
  | some e =>
    if p.sourceUsable e.primary then some (p.supply .primary e.primary)
    else
      match e.standby with
      | some s => if p.sourceUsable s then some (p.supply .standby s) else none
      | none => none

/-- Whether a channel is inertially referenced: VPL, VPR, LPL, LPR (R34). -/
def inertial (i : Fin 7) : Bool := decide (2 ≤ i.val) && decide (i.val ≤ 5)

/-- Whether the speed blanks the inertial channels: absent, or below the minimum measuring speed (R34). -/
def Part.belowMinSpeed (p : Part) (speed : Option Nat) : Bool :=
  match speed with
  | none => true
  | some v => decide (v < p.oru.settings.minSpeed)

/-- The seven channels of a capture, blanked for speed (R32, R34). -/
def Part.channelValues (p : Part) (speed : Option Nat) : Vector (Option Supplied) 7 :=
  Vector.ofFn (fun i => if p.belowMinSpeed speed && inertial i then none else p.channelValue p.shu.map[i])

/-- STANDBY_USED over the values that the entry finally carries (R33). -/
def standbyUsed (v : Vector (Option Supplied) 7) : Bool :=
  v.toList.any (fun x => match x with | some y => y.sample.mark == .standby | none => false)

/-- SUSPECT_SOURCE over the values that the entry finally carries (R33). -/
def Part.suspectUsed (p : Part) (v : Vector (Option Supplied) 7) : Bool :=
  v.toList.any (fun x => match x with | some y => p.hlu.heads[y.source.head].state == .suspect | none => false)

/-! ## The input map orders (R36 to R39) -/

/-- A source that passes the checks of R37. -/
def RawSource.checked (r : RawSource) : Option Source :=
  match headOfAddress r.head with
  | none => none
  | some h => if hp : r.position < 16 then some ⟨h, ⟨r.position, hp⟩, r.gain, r.offset⟩ else none

/-- An entry that passes the checks of R37: the new content of its map entry, or none where it is refused. -/
def RawEntry.checked (e : RawEntry) : Option (Option MapEntry) :=
  match e.primary, e.standby with
  | none, none => some none
  | none, some _ => none
  | some p, none => (p.checked).map (fun s => some ⟨s, none⟩)
  | some p, some q =>
    match p.checked, q.checked with
    | some s, some t => some (some ⟨s, some t⟩)
    | _, _ => none

/-- Entries written one by one from an index up to the first refused: the map, the count written, the result (R37). -/
def writeEntries : Nat → List RawEntry → Vector (Option MapEntry) 7 → Vector (Option MapEntry) 7 × Nat × Result
  | _, [], m => (m, 0, .done)
  | i, e :: es, m =>
    if h : i < 7 then
      match e.checked with
      | some x =>
        let (m1, n, r) := writeEntries (i + 1) es (vmodify m ⟨i, h⟩ (fun _ => x))
        (m1, n + 1, r)
      | none => (m, 0, .badValue)
    else (m, 0, .badValue)

/-- One source of a READ INPUT MAP reply: present mark, four fields, verdict; zeros where there is none (R38, R39; log 18). -/
def Part.sourceBytes (p : Part) : Option Source → List Byte
  | none => List.replicate 8 0#8
  | some s =>
    byteOf 1 ++ byteOf (Head.address s.head) ++ byteOf s.position.val ++ bytesOfInt 2 s.gain ++
      bytesOfInt 2 s.offset ++ byteOf (p.verdict s).code

/-- One entry of a READ INPUT MAP reply, 16 bytes. -/
def Part.entryBytes (p : Part) : Option MapEntry → List Byte
  | none => p.sourceBytes none ++ p.sourceBytes none
  | some e => p.sourceBytes (some e.primary) ++ p.sourceBytes e.standby

end Sys2Proof.Machine
end

