-- ==== Sys2Proof/Machine/Trace.lean ====
section
/-! DEFINITION. The Trace Unit: capture, derivation, grading, emission, retention and flush, and the GR queue with its drops (Chapter 5, R173). -/

namespace Sys2Proof.Machine

/-! ## Capture (R85, R86) -/

/-- What a tick carries to the blocks that act on it (R46). -/
structure TickData where
  time : Time
  speed : Option Nat
  slip : Bool
  saturated : Bool
deriving DecidableEq, Repr

/-- The trace entry of a capture (R84, R86). -/
def Part.entryOf (p : Part) (t : TickData) : TraceEntry :=
  let chans := p.channelValues t.speed
  let sec := p.currentSection
  { seq := p.tru.nextSeq
    time := t.time
    route := p.pfu.routeDistance
    label := p.label
    speed := t.speed
    position := p.pfu.position
    correction := p.pfu.pendingCorrection
    sectionLabel := sec.map TrackSection.label
    cls := (sec.map TrackSection.cls).getD 0
    cant := (sec.bind TrackSection.cant).getD 0
    suppressed := (sec.map TrackSection.suppressed).getD 0
    channels := chans.map (fun x => x.map Supplied.sample)
    flags :=
      { slip := t.slip
        speedSaturated := t.saturated
        belowMinSpeed := p.belowMinSpeed t.speed
        noSection := sec.isNone
        standbyUsed := standbyUsed chans
        suspectSource := p.suspectUsed chans } }

/-- An entry appended to the window (R83, R85). -/
def Tru.append (t : Tru) (e : TraceEntry) : Tru where
  window := t.window ++ [e]
  nextSeq := t.nextSeq + 1
  segStart := if t.window.isEmpty then some e.seq else t.segStart
  nextEmit := if t.window.isEmpty then some e.seq else t.nextEmit

/-- The capture alone: the entry appended and the pending correction taken (R73, R85). -/
def Part.captureEntry (p : Part) (t : TickData) : Part :=
  let p1 := p.withTru (p.tru.append (p.entryOf t))
  (p1.withPfu { p1.pfu with pendingCorrection := none }).bump .captures

/-! ## Lag and retention depth (R87, R88) -/

/-- The lag L (R87). -/
def Settings.lag (s : Settings) : Nat := max s.chordLevel s.chordAlign / 2

/-- The retention depth B (R88). -/
def Settings.depth (s : Settings) : Nat := max (max s.twistShort s.twistLong) s.lag

/-! ## Derivation (R89 to R94) -/

/-- The entry of the window at a sequence; a point that is missing has none (R89). -/
def Tru.entryAt (t : Tru) (s : Seq) : Option TraceEntry := t.window.find? (fun e => e.seq == s)

/-- The points and channels that a parameter of the entry at sequence `i` uses, in the order of section 5.4's table: for a versine the middle, the point behind and the point ahead. -/
def paramPoints (s : Settings) (i : Seq) (q : Param) : List (Seq × Fin 7) :=
  let level := BitVec.ofNat 32 (s.chordLevel / 2)
  let align := BitVec.ofNat 32 (s.chordAlign / 2)
  match q with
  | 0 => [(i, 0), (i, 1)]
  | 1 => [(i, 6)]
  | 2 => [(i, 6), (i - BitVec.ofNat 32 s.twistShort, 6)]
  | 3 => [(i, 6), (i - BitVec.ofNat 32 s.twistLong, 6)]
  | 4 => [(i, 2), (i - level, 2), (i + level, 2)]
  | 5 => [(i, 3), (i - level, 3), (i + level, 3)]
  | 6 => [(i, 4), (i - align, 4), (i + align, 4)]
  | 7 => [(i, 5), (i - align, 5), (i + align, 5)]

/-- Whether a parameter is a versine. -/
def isVersine (q : Param) : Bool := decide (4 ≤ q.val)

/-- The value of a parameter from the values at its points (R91, R92, R93). -/
def combine (s : Settings) (cant : Int) (q : Param) (v : List Int) : Int :=
  let a := v.getD 0 0
  let b := v.getD 1 0
  let c := v.getD 2 0
  match q with
  | 0 => s.gaugeBase + a + b - s.nominalGauge
  | 1 => a - cant
  | 2 => a - b
  | 3 => a - b
  | _ => a - (b + c).tdiv 2

/-- Saturation of a parameter to ±32767 (R94). -/
def saturateParam (z : Int) : Int := clampInt (-32767) 32767 z

/-- Every item of a list, or none where one is absent. -/
def allPresent {α : Type} : List (Option α) → Option (List α)
  | [] => some []
  | none :: _ => none
  | some x :: l => (allPresent l).map (fun xs => x :: xs)

/-- A derived parameter before saturation: its full-width value and whether a versine's points carry unequal source marks, or its absence cause (R90, R93). -/
inductive Derived where
  | value (v : Int) (mixed : Bool)
  | absent (cause : AbsenceCause)
deriving DecidableEq, Repr

/-- Whether the marks of a list of samples differ. -/
def marksDiffer : List Sample → Bool
  | [] => false
  | x :: l => l.any (fun y => y.mark != x.mark)

/-- The derivation of one parameter of an emit entry (R90 to R93). -/
def Part.derive (p : Part) (e : TraceEntry) (q : Param) : Derived :=
  let s := p.oru.settings
  if e.suppressed.getLsbD q.val then .absent .suppressed
  else
    match allPresent ((paramPoints s e.seq q).map (fun x => (p.tru.entryAt x.1).map (fun y => (y, x.2)))) with
    | none => .absent .incompleteChord
    | some points =>
      match allPresent (points.map (fun x => x.1.channels[x.2])) with
      | none => .absent .noInput
      | some samples =>
        .value (combine s e.cant q (samples.map Sample.value)) (isVersine q && marksDiffer samples)

/-- Whether a derived value is limited (R94). -/
def Derived.limited : Derived → Bool
  | .value v _ => saturateParam v != v
  | .absent _ => false

/-- Whether a derived versine marks its record SOURCE_SWITCH_IN_CHORD (R93). -/
def Derived.mixed : Derived → Bool
  | .value _ m => m
  | .absent _ => false

/-- A derived parameter saturated and graded (R94, R95). -/
def Derived.graded (r : LimitRow) : Derived → ParamValue
  | .value v _ => .present (saturateParam v) (r.grade (saturateParam v))
  | .absent c => .absent c

/-- The eight derived parameters of an emit entry. -/
def Part.deriveAll (p : Part) (e : TraceEntry) : Vector Derived 8 := Vector.ofFn (fun q => p.derive e q)

/-- The record that the Trace Unit hands to the tracker (R96). -/
def Part.emitted (p : Part) (e : TraceEntry) : Emitted :=
  let ds := p.deriveAll e
  { seq := e.seq
    route := e.route
    label := e.label
    position := e.position
    cls := e.cls
    sectionLabel := e.sectionLabel
    values := Vector.ofFn (fun q => (ds[q]).graded (p.limitRow e.cls q))
    sourceSwitch := ds.toList.any Derived.mixed
    suspectSource := e.flags.suspectSource }

/-! ## The Geometry Record and its queue (R97, R173) -/

/-- The value of a parameter, if it is present. -/
def ParamValue.value? : ParamValue → Option Int
  | .present v _ => some v
  | .absent _ => none

/-- The grade of a parameter, 0 when it is absent (R95). -/
def ParamValue.grade : ParamValue → Nat
  | .present _ g => g
  | .absent _ => 0

/-- Whether a parameter is absent for a cause. -/
def ParamValue.absentFor (c : AbsenceCause) : ParamValue → Bool
  | .present _ _ => false
  | .absent d => d == c

/-- The GR of an emitted record (R97). -/
def Part.record (p : Part) (e : TraceEntry) (r : Emitted) (untracked : Bool) : GeometryRecord where
  run := p.rnc.runIndex
  runNumber := p.rnc.runNumber
  seq := e.seq
  droppedBefore := 0
  time := e.time
  route := e.route
  label := e.label
  speed := e.speed
  position := e.position
  correction := e.correction
  sectionLabel := e.sectionLabel
  cls := e.cls
  values := r.values.map ParamValue.value?
  grades := r.values.map ParamValue.grade
  flags := e.flags
  incompleteChord := r.values.toList.any (ParamValue.absentFor .incompleteChord)
  suppressed := r.values.toList.any (ParamValue.absentFor .suppressed)
  sourceSwitch := r.sourceSwitch
  untracked := untracked

/-- The dropped GR's count carried to the GR after it, if that belongs to the same run (R173). -/
def carryDrop (d : GeometryRecord) : List GeometryRecord → List GeometryRecord
  | [] => []
  | g :: l =>
    if g.run = d.run then
      { g with droppedBefore := min (g.droppedBefore + (d.droppedBefore + 1)) Config.counterTop } :: l
    else g :: l

/-- Whether the head of the GR queue is the frame in transmission. -/
def Rlu.sendingGr (r : Rlu) : Bool :=
  match r.tx with
  | some t => t.queue == .gr && !t.forgotten
  | none => false

/-- The drop for an offered GR: the dropped GR, and the queue with the offered GR at its tail (R173). -/
def dropOldest (sending : Bool) (q : List GeometryRecord) (g : GeometryRecord) :
    Option GeometryRecord × List GeometryRecord :=
  match sending, q with
  | true, h :: d :: l => (some d, h :: carryDrop d (l ++ [g]))
  | false, d :: l => (some d, carryDrop d (l ++ [g]))
  | _, l => (none, l ++ [g])

/-- A drop counted and GR_DROPPED raised (R173). The GR dropped count stays at 2^32 - 1 (the model's choice, log 44). -/
def Part.countDrop (p : Part) (d : GeometryRecord) : Part :=
  let n := if d.run = p.rnc.runIndex then counterUp 1 p.rlu.grDropped else p.rlu.grDropped
  ((p.withRlu { p.rlu with grDropped := n }).bump .grDrops).raise .grDropped

/-- A GR offered to the GR queue (R173). -/
def Part.offerGr (p : Part) (g : GeometryRecord) : Part :=
  if p.rlu.gr.length < Config.grCapacity then p.withRlu { p.rlu with gr := p.rlu.gr ++ [g] }
  else
    let x := dropOldest p.rlu.sendingGr p.rlu.gr g
    match x.1 with
    | some d => (p.withRlu { p.rlu with gr := x.2 }).countDrop d
    | none => p.withRlu { p.rlu with gr := x.2 }

/-! ## Emission, retention and flush (R87, R88, R95 to R98) -/

/-- The emission of one entry: derived, graded, judged, built into a GR and offered (section 5.5). -/
def Part.emit (p : Part) (e : TraceEntry) : Part :=
  let r := p.emitted e
  let p1 := p.bumpBy .parameterSaturations ((p.deriveAll e).toList.countP Derived.limited)
  let x := p1.judge r
  let p2 := x.1.offerGr (x.1.record e r x.2)
  (p2.withTru { p2.tru with nextEmit := some (e.seq + 1) }).bump .emissions

/-- Whether an entry lies more than `b` records behind sequence `s`. -/
def behindBy (b : Nat) (s : Seq) (e : TraceEntry) : Bool :=
  decide (b < (s - e.seq).toNat) && decide ((s - e.seq).toNat < 2 ^ 31)

/-- The entries that the retention discards after an emission (R88). -/
def Part.retain (p : Part) (s : Seq) : Part :=
  p.withTru { p.tru with window := p.tru.window.dropWhile (behindBy p.oru.settings.depth s) }

/-- The emit entry: L places behind the newest, in the window and not yet emitted (R87). -/
def Part.emitEntry (p : Part) : Option TraceEntry :=
  if p.oru.settings.lag < p.tru.window.length then
    match p.tru.window[p.tru.window.length - 1 - p.oru.settings.lag]? with
    | some e => if p.tru.nextEmit = some e.seq then some e else none
    | none => none
  else none

/-- What follows a capture: the emission of the emit entry, if there is one, and the retention. -/
def Part.emitNext (p : Part) : Part :=
  match p.emitEntry with
  | some e => (p.emit e).retain e.seq
  | none => p

/-- A capture with the emission that it causes (R85, R87). -/
def Part.capture (p : Part) (t : TickData) : Part := (p.captureEntry t).emitNext

/-- The entries not yet emitted. -/
def Tru.waiting (t : Tru) : List TraceEntry :=
  match t.nextEmit with
  | some s => t.window.dropWhile (fun e => e.seq != s)
  | none => []

/-- A flush (R98). -/
def Part.flush (p : Part) : Part :=
  let p1 := p.tru.waiting.foldl Part.emit p
  (p1.withTru { p1.tru with window := [], segStart := none, nextEmit := none }).bumpBy .flushes p.tru.waiting.length

end Sys2Proof.Machine
end

