-- ==== Sys2Proof/Machine/RunControl.lean ====
section
/-! DEFINITION. Run Control: the run states, START RUN and STOP RUN, the park timer, parking and resuming (Chapter 8), and the watchdogs and speed history that they touch (R16, R56). -/

namespace Sys2Proof.Machine

/-- The speed history emptied and the last speed absent (R56). -/
def Part.emptySpeed (p : Part) : Part := p.withOdu { p.odu with history := [], lastSpeed := none }

/-- The deadline of a watchdog or of a held frame that starts at a time: twice the frame period later (R10, R16, R29). -/
def Part.frameDeadline (p : Part) (t : Time) : Time := laterBy t (2 * p.oru.settings.framePeriod)

/-- A fresh watchdog deadline for every head not in ABSENT (R16). -/
def Part.freshWatchdogs (p : Part) : Part :=
  p.withHlu { p.hlu with heads := p.hlu.heads.map (fun r =>
    if r.state = .absent then r else { r with watchdog := some (p.frameDeadline p.time) }) }

/-- Every watchdog stopped (R16). -/
def Part.stopWatchdogs (p : Part) : Part :=
  p.withHlu { p.hlu with heads := p.hlu.heads.map (fun r => { r with watchdog := none }) }

/-- The run state written. -/
def Part.setRunState (p : Part) (x : RunState) : Part := p.withRnc { p.rnc with runState := x }

/-- The park timer started or restarted at a tick (R156). -/
def Part.startParkTimer (p : Part) (t : Time) : Part :=
  p.withRnc { p.rnc with parkDeadline := some (laterBy t (p.oru.settings.parkDelay * 1000)) }

/-- The park timer stopped. -/
def Part.stopParkTimer (p : Part) : Part := p.withRnc { p.rnc with parkDeadline := none }

/-- Whether the park timer expires now (R156). -/
def Part.parkDue (p : Part) : Bool :=
  p.rnc.runState == .measuring &&
    (match p.rnc.parkDeadline with
     | some d => reached p.time d
     | none => false)

/-- Entry into PARKED (R157). -/
def Part.enterParked (p : Part) : Part :=
  let p1 := ((p.stopParkTimer.setRunState .parked).bump .parks).raise .parkChange
  p1.stopWatchdogs.emptySpeed

/-- The expiry of the park timer (R156, R157). -/
def Part.parkEvent (p : Part) : Part := if p.parkDue then p.enterParked else p

/-- What Run Control does at a tick (R154, R155, R159). -/
def Part.runTick (p : Part) (t : Time) : Part :=
  match p.rnc.runState with
  | .halted => p
  | .armed => (p.setRunState .measuring).startParkTimer t
  | .measuring => p.startParkTimer t
  | .parked => (((p.setRunState .measuring).raise .parkChange).freshWatchdogs).startParkTimer t

/-- Why a START RUN is refused, if it is (R152). -/
def Part.startRefusal (p : Part) : Option Result :=
  if p.rnc.runState != .halted then some .badState
  else if p.pfu.position == .unset then some .badState
  else if !p.ext.pendingList.isEmpty then some .busy
  else none

/-- An accepted START RUN (R153). -/
def Part.beginRun (p : Part) (n : BitVec 16) : Part :=
  let p1 := p.withRnc { p.rnc with runState := .armed, runNumber := n, runIndex := p.rnc.runIndex + 1 }
  let p2 := p1.withTru { p1.tru with nextSeq := 0 }
  let p3 := (p2.withRlu { p2.rlu with grDropped := 0 }).emptySpeed
  (p3.withPfu { p3.pfu with pendingCorrection := none }).bump .runsStarted

/-- The halt of a STOP RUN (R161 phase 3). -/
def Part.haltRun (p : Part) : Part :=
  let p1 := (p.stopParkTimer.setRunState .halted).bump .runsStopped
  if p.rnc.runState = .parked then (p1.raise .parkChange).freshWatchdogs else p1

/-- A STOP RUN (R161, R162). -/
def Part.endRun (p : Part) : Part :=
  if p.rnc.runState = .halted then p else ((p.flush).cut .stop).haltRun

/-- PARK_TIMER_EXPIRY (R156, R157). -/
def execParkTimerExpiry (s : State) : Host.Outcome State Fault Refusal := live s Part.parkEvent

end Sys2Proof.Machine
end

