-- ==== Sys2Proof/Machine/Odometry.lean ====
section
/-! DEFINITION. The Odometry Unit: steps, ahead distance, comparison of the channels, ticks, watch points, reversal, speed and history expiry (Chapter 3), with the commands of the encoders and of the motion events. -/

namespace Sys2Proof.Machine

/-! ## Channels -/

/-- One channel of the ODU. -/
def Odu.channel (o : Odu) : Encoder → Channel
  | .e1 => o.e1
  | .e2 => o.e2

/-- A channel replaced. -/
def Odu.withChannel (o : Odu) (c : Encoder) (x : Channel) : Odu :=
  match c with
  | .e1 => { o with e1 := x }
  | .e2 => { o with e2 := x }

/-- The other channel. -/
def otherEncoder : Encoder → Encoder
  | .e1 => .e2
  | .e2 => .e1

/-- The step distance of a channel, µm (R41). -/
def Settings.stepDistance (s : Settings) : Encoder → Nat
  | .e1 => s.stepE1
  | .e2 => s.stepE2

/-- The quadrature error counter of a channel. -/
def quadratureCounter : Encoder → Counter
  | .e1 => .quadratureE1
  | .e2 => .quadratureE2

/-- The encoder fault counter of a channel. -/
def faultCounter : Encoder → Counter
  | .e1 => .faultsE1
  | .e2 => .faultsE2

/-- What a change of the phase levels means (R41, R198). -/
inductive Decoded where
  | same
  | up
  | down
  | quadratureError
deriving DecidableEq, Repr

/-- The decoding of a change from (a, b) to (c, d): up through 00, 10, 11, 01, 00 (R41, R198). -/
def decodePhases (a b c d : Bool) : Decoded :=
  if c = a ∧ d = b then .same
  else if c = !b ∧ d = a then .up
  else if c = b ∧ d = !a then .down
  else .quadratureError

/-- The phase levels of a channel written. -/
def Part.setPhases (p : Part) (c : Encoder) (a b : Bool) : Part :=
  p.withOdu (p.odu.withChannel c { p.odu.channel c with phaseA := a, phaseB := b })

/-- A step's distance, positive ahead: +1 is ahead in AHEAD_POSITIVE (R42). -/
def aheadDistance (sense : Sense) (countsUp : Bool) (distance : Nat) : Int :=
  match sense, countsUp with
  | .aheadPositive, true => distance
  | .aheadNegative, false => distance
  | _, _ => -(distance : Int)

/-- A channel after a step: its window distance moved, and a fault cleared (R41, R50, R53). -/
def Channel.stepBy (x : Channel) (d : Int) : Channel :=
  { x with
    window := x.window + d
    stepped := true
    faulted := false
    zeroSteps := if x.faulted then 0 else x.zeroSteps }

/-- The sign by which movement ahead moves the route distance (R42). -/
def Part.routeSign (p : Part) : Int := p.odu.direction.sign

/-- The ahead distance and the high-water mark after a movement ahead or back by `d` (R45). -/
def Odu.advance (o : Odu) (d : Int) : Odu :=
  let a := sat64 (o.ahead + d)
  { o with ahead := a, high := if o.high < a then a else o.high }

/-- The mark of a reversal that has come due at a step back (R48). -/
def Part.reversalTest (p : Part) (d : Int) : Part :=
  if d < 0 ∧ (p.oru.settings.reversalDistance : Int) * 1000 ≤ p.odu.high - p.odu.ahead then
    p.withOdu { p.odu with reversalDue := true }
  else p

/-- A step of the active channel moves A, H, the route distance and the distance since last fix (R43, R45, R67, R68). -/
def Part.activeStep (p : Part) (d : Int) : Part :=
  let p1 := p.withOdu (p.odu.advance d)
  (((p1.moveRoute (p1.routeSign * d)).addTravel d.natAbs).validityTest).reversalTest d

/-- A step of a channel (R41). -/
def Part.stepChannel (p : Part) (c : Encoder) (d : Int) : Part :=
  let p1 := p.withOdu (p.odu.withChannel c ((p.odu.channel c).stepBy d))
  if p.odu.active = c then p1.activeStep d else p1

/-- A phase change of a channel decoded and taken (R41). -/
def Part.phaseChange (p : Part) (c : Encoder) (a b : Bool) : Part :=
  let x := p.odu.channel c
  let p1 := p.setPhases c a b
  let distance := p.oru.settings.stepDistance c
  match decodePhases x.phaseA x.phaseB a b with
  | .same => p
  | .quadratureError => p1.bump (quadratureCounter c)
  | .up => p1.stepChannel c (aheadDistance p.odu.sense true distance)
  | .down => p1.stepChannel c (aheadDistance p.odu.sense false distance)

/-! ## Comparison (R50 to R53) -/

/-- Whether a channel's zero-step count rises at a comparison (R53). -/
def Part.missesSteps (p : Part) (c : Encoder) : Bool :=
  !(p.odu.channel c).stepped && (p.odu.channel (otherEncoder c)).stepped

/-- A channel after the zero-step update of a comparison (R53). -/
def Channel.zeroUpdate (x : Channel) (misses : Bool) : Channel :=
  if misses then
    { x with zeroSteps := min (x.zeroSteps + 1) 4, faulted := x.faulted || decide (3 ≤ x.zeroSteps) }
  else if x.stepped then { x with zeroSteps := 0 }
  else x

/-- The zero-step update of one channel, a new fault counted (R53). -/
def Part.zeroUpdate (p : Part) (c : Encoder) : Part :=
  let x := p.odu.channel c
  let p1 := p.withOdu (p.odu.withChannel c (x.zeroUpdate (p.missesSteps c)))
  if p.missesSteps c && x.zeroSteps == 3 then p1.bump (faultCounter c) else p1

/-- The slip test: whether the window distances differ by more than the slip limit (R51). -/
def Part.slipFound (p : Part) : Bool :=
  decide (p.oru.settings.slipLimit * 1000 < (p.odu.e1.window - p.odu.e2.window).natAbs)

/-- The predicted distance of the window, µm: last speed × elapsed time / 36 (R52). -/
def predictedDistance (speed : Nat) (elapsed : Time) : Int := ((speed * elapsed.toNat / 36 : Nat) : Int)

/-- Whether the prediction changes the active channel (R52). -/
def Part.predictionSwitches (p : Part) : Bool :=
  match p.odu.lastSpeed with
  | none => false
  | some x =>
    let d := predictedDistance x.speed (p.time - p.odu.lastComparison)
    let wa := (p.odu.channel p.odu.active).window
    let wo := (p.odu.channel (otherEncoder p.odu.active)).window
    decide ((wo - d).natAbs < (wa - d).natAbs)

/-- The change of the active channel: the old channel's movement in the window is replaced by the new one's (R52). -/
def Part.switchChannel (p : Part) : Part :=
  let o := otherEncoder p.odu.active
  let d := (p.odu.channel o).window - (p.odu.channel p.odu.active).window
  let p1 := p.withOdu (Odu.advance { p.odu with active := o } d)
  ((p1.moveRoute (p1.routeSign * d)).validityTest).bump .channelSwitches

/-- The slip test's effects (R51). -/
def Part.countSlip (p : Part) (found : Bool) : Part := if found then (p.bump .slips).raise .slip else p

/-- The slip test and the decision on the active channel, where the other channel is not faulted (R50 step 3). -/
def Part.judgeChannels (p : Part) : Part × Bool :=
  let found := p.slipFound
  let p1 := p.countSlip found
  if (p.odu.channel p.odu.active).faulted || (found && p.predictionSwitches) then (p1.switchChannel, found)
  else (p1, found)

/-- Both windows started anew (R50). -/
def Part.newWindow (p : Part) : Part :=
  p.withOdu { p.odu with
    e1 := { p.odu.e1 with window := 0, stepped := false }
    e2 := { p.odu.e2 with window := 0, stepped := false }
    lastComparison := p.time }

/-- Both zero-step updates (R50 step 1), each judged on the window's steps. -/
def Part.zeroUpdates (p : Part) : Part := (p.zeroUpdate .e1).zeroUpdate .e2

/-- A comparison of the channels; the mark says whether it found a slip (R50). -/
def Part.comparison (p : Part) : Part × Bool :=
  let p1 := p.zeroUpdates
  if (p1.odu.channel (otherEncoder p1.odu.active)).faulted then (p1.newWindow, false)
  else ((p1.judgeChannels).1.newWindow, (p1.judgeChannels).2)

/-! ## Ticks (R45, R46, R55) -/

/-- The speed of a tick and whether it is saturated (R55). The quotient compared with 5000 is the one rounded toward zero: an exact value between 5000 and 5001 is not saturated (the model's choice, log 42). -/
def tickSpeed (spacing : Nat) (now : Time) (history : List Time) : Option Nat × Bool :=
  match history with
  | [] => (none, false)
  | oldest :: _ =>
    let dt := (now - oldest).toNat
    if dt = 0 ∨ 5000 < history.length * spacing * 36000 / dt then (some 5000, true)
    else (some (history.length * spacing * 36000 / dt), false)

/-- A tick time joined to the history, which keeps eight (R55). -/
def historyWith (history : List Time) (t : Time) : List Time :=
  if history.length < 8 then history ++ [t] else (history ++ [t]).drop 1

/-- What a tick carries, with a slip found by the comparison in progress or carried (R46, R51). -/
def Part.tickData (p : Part) (found : Bool) : TickData :=
  let x := tickSpeed p.oru.settings.recordSpacing p.time p.odu.history
  { time := p.time, speed := x.1, slip := found || p.odu.slipCarried, saturated := x.2 }

/-- The speed worked out at a tick: the history and the last speed written, a saturation counted, a carried slip cleared (R51, R55). -/
def Part.speedTick (p : Part) (t : TickData) : Part :=
  let p1 := p.withOdu { p.odu with
    history := historyWith p.odu.history t.time
    lastSpeed := t.speed.map (fun v => ⟨v, t.time⟩)
    slipCarried := false }
  if t.saturated then p1.bump .speedSaturations else p1

/-- Compare-and-advance of both lists at a tick, once a position is set (R62, R109). -/
def Part.tickAdvance (p : Part) : Part :=
  if p.pfu.position = .unset then p else (p.routeAdvance false).sectionAdvance

/-- A tick goes on to Run Control, the PFU, the LMU and, in MEASURING, the TRU (R46, R85). -/
def Part.deliverTick (p : Part) (t : TickData) : Part :=
  let p1 := ((p.bump .ticks).runTick t.time).tickAdvance
  if p1.rnc.runState = .measuring then p1.capture t else p1

/-- One tick with its speed (R46). -/
def Part.tickOnce (p : Part) (found : Bool) : Part :=
  (p.speedTick (p.tickData found)).deliverTick (p.tickData found)

/-- The next tick boundary moved on by one record spacing (R45). -/
def Part.nextBoundary (p : Part) : Part :=
  p.withOdu { p.odu with nextTick := satU64 (p.odu.nextTick + p.oru.settings.recordSpacing * 1000) }

/-- Whether H has reached the next tick boundary (R45). -/
def Part.tickDue (p : Part) : Bool := decide (p.odu.nextTick ≤ p.odu.high)

/-- The ticks of a change of channel, one for each boundary passed, in boundary order (R45, R52). -/
def Part.switchTicks (p : Part) (found : Bool) : Nat → Part
  | 0 => p
  | n + 1 => if p.tickDue then (p.nextBoundary.tickOnce found).switchTicks found n else p

/-- How many boundaries lie between the next one and H, at most. -/
def Part.boundariesPassed (p : Part) : Nat :=
  ((p.odu.high - p.odu.nextTick) / 250000 + 1).toNat

/-- A tick: boundary, comparison, speed, delivery, then the ticks that a change of channel makes (R45, R46, R52). -/
def Part.tickEvent (p : Part) : Part :=
  if p.tickDue then
    let x := p.nextBoundary.comparison
    let p1 := x.1.tickOnce x.2
    p1.switchTicks x.2 p1.boundariesPassed
  else p

/-- Whether a watch point is reached: the other channel's window distance is twice the record spacing ahead, with no tick due (R50). It is due from then on, and also where a SET of the record spacing or of the lead encoder, and no step, has brought the distance there (the model's choices, log 14). -/
def Part.watchDue (p : Part) : Bool :=
  decide ((p.oru.settings.recordSpacing : Int) * 2000 ≤ (p.odu.channel (otherEncoder p.odu.active)).window) &&
    !p.tickDue

/-- Slip carried, where the comparison of a watch point has found a slip (R51). -/
def Part.carrySlip (p : Part) (found : Bool) : Part :=
  p.withOdu { p.odu with slipCarried := p.odu.slipCarried || found }

/-- A watch point (R50, R51, R52). -/
def Part.watchEvent (p : Part) : Part :=
  if p.watchDue then
    let x := p.comparison
    let p1 := x.1.carrySlip x.2
    p1.switchTicks x.2 p1.boundariesPassed
  else p

/-! ## Reversal and history expiry (R49, R56) -/

/-- A channel at a reversal: its window and its zero-step count start anew, its faulted mark stays (R49). -/
def Channel.reversed (x : Channel) : Channel := { x with window := 0, stepped := false, zeroSteps := 0 }

/-- What the ODU does at a REVERSAL (R49). -/
def Odu.reversed (o : Odu) (now : Time) (spacing : Nat) : Odu :=
  { o with
    direction := o.direction.flip
    sense := o.sense.flip
    e1 := o.e1.reversed
    e2 := o.e2.reversed
    lastComparison := now
    slipCarried := false
    ahead := 0
    high := 0
    nextTick := spacing * 1000
    history := []
    lastSpeed := none
    reversalDue := false }

/-- Both look-ahead lists emptied and the last passed post made none by a REVERSAL (R65, R114). -/
def Part.loseLists (p : Part) : Part :=
  let p1 := p.emptyRoute.emptySections
  p1.withPfu { p1.pfu with lastPost := none }

/-- The flush of a REVERSAL, made in MEASURING and PARKED (R100). -/
def Part.reversalFlush (p : Part) : Part :=
  match p.rnc.runState with
  | .measuring => p.flush
  | .parked => p.flush
  | _ => p

/-- A REVERSAL with what every block does at it (R49, R65, R100, R114, R138). -/
def Part.reverse (p : Part) : Part :=
  let p1 := ((p.withOdu (p.odu.reversed p.time p.oru.settings.recordSpacing)).bump .reversals).raise .reversal
  (p1.loseLists.reversalFlush).cut .reversal

/-- A REVERSAL, where a step back has brought it due (R48). -/
def Part.reversalEvent (p : Part) : Part := if p.odu.reversalDue then p.reverse else p

/-- Whether the history expires: 2^31 µs have passed since its newest time (R56). -/
def Part.historyDue (p : Part) : Bool :=
  match p.odu.history.getLast? with
  | some t => decide (2 ^ 31 ≤ (p.time - t).toNat)
  | none => false

/-- History expiry (R56). -/
def Part.historyEvent (p : Part) : Part := if p.historyDue then p.emptySpeed else p

/-- The motion events that are due, taken before the next step of an encoder (log 3). -/
def Part.settleMotion (p : Part) : Part := ((p.reversalEvent).tickEvent).watchEvent

/-! ## Commands -/

/-- ENCODER_STEP (R41): the levels that a channel's phase lines now have. While the part is held in hard reset only the levels are followed (log 8). -/
def execEncoderStep (c : Encoder) (a b : Bool) (s : State) : Host.Outcome State Fault Refusal :=
  if s.part.resetHeld then .next { s with part := s.part.setPhases c a b }
  else live s (fun p => p.settleMotion.phaseChange c a b)

/-- TICK (R46). -/
def execTick (s : State) : Host.Outcome State Fault Refusal := live s Part.tickEvent

/-- WATCH_POINT (R50). -/
def execWatchPoint (s : State) : Host.Outcome State Fault Refusal := live s Part.watchEvent

/-- REVERSAL (R49). -/
def execReversal (s : State) : Host.Outcome State Fault Refusal := live s Part.reversalEvent

/-- HISTORY_EXPIRY (R56). -/
def execHistoryExpiry (s : State) : Host.Outcome State Fault Refusal := live s Part.historyEvent

/-- FIX_VALIDITY_EXCEEDED (R68). -/
def execFixValidityExceeded (s : State) : Host.Outcome State Fault Refusal := live s Part.validityTest

/-- Whether the tracker's counts stand still: in PARKED no record is judged, so no clear count and no records since end move (R157). -/
def Part.countsHeld (p : Part) : Bool := p.rnc.runState == .parked

/-- CLOSE_LENGTH_REACHED (R132): the inside record at which a CLOSING slot's clear count reaches the close length (log 5); in PARKED nothing (R157). -/
def Part.closeEvent (p : Part) (n : SlotNo) : Part :=
  match p.ext.slots[n].hold with
  | .active .closing ex =>
    if p.countsHeld then p
    else if p.oru.settings.closeLength ≤ ex.clearCount + 1 then p.insideStep n ex (ex.clearCount + 1)
    else p
  | _ => p

/-- CLOSE_LENGTH_REACHED (R132). -/
def execCloseLengthReached (n : SlotNo) (s : State) : Host.Outcome State Fault Refusal :=
  live s (fun p => p.closeEvent n)

/-- MERGE_GAP_EXCEEDED (R133): the record at which a HELD slot's records since end exceed the merge gap (log 5); in PARKED nothing (R157). -/
def Part.gapEvent (p : Part) (n : SlotNo) : Part :=
  match p.ext.slots[n].hold with
  | .active .held ex =>
    if p.countsHeld then p
    else if p.oru.settings.mergeGap < ex.sinceEnd + 1 then p.heldStep n ex
    else p
  | _ => p

/-- MERGE_GAP_EXCEEDED (R133). -/
def execMergeGapExceeded (n : SlotNo) (s : State) : Host.Outcome State Fault Refusal :=
  live s (fun p => p.gapEvent n)

end Sys2Proof.Machine
end

