-- ==== Sys2Proof/Machine/Report.lean ====
section
/-! DEFINITION. What the orders that read return: the blocks' state for READ STATE (R57, R81, R104, R122, R149, R163, R175, R185), the limit rows, the map entries and the counters (R38, R121, R194), in the widths of R197. -/

namespace Sys2Proof.Machine

/-! ## READ STATE -/

/-- The relay slot: free, or head, tag and deadline (R185). -/
def relaySlotBytes (x : RelaySlot) : List Byte :=
  byteOf (Head.address x.head) ++ [x.tag] ++ optionalItem 4 bytesOf32 x.deadline

/-- One head of the HEAD LINK selection (R185). The last sequence is a sequence and takes four bytes (R197; log 18). -/
def Part.headBytes (p : Part) (h : Head) : List Byte :=
  let r := p.hlu.heads[h]
  byteOf r.state.code ++ byteOf r.score ++ bytesOfNat 2 r.goodRun ++
  optionalItem 4 bytesOf32 r.lastArrival ++ optionalItem 4 (fun b => bytesOfNat 4 (BitVec.toNat b)) r.lastSequence ++
  optionalItem 4 bytesOf32 r.watchdog ++ [r.status, r.riseMask, r.fallMask] ++
  byteOfBool r.held.isSome ++ byteOfBool (p.heldFresh h)

/-- Selection HEAD LINK (R185). The relay tag counter is a counter and takes four bytes (R197; log 18). -/
def Part.headLinkState (p : Part) : List Byte :=
  byteOfBool p.hlu.locked ++ byteOf p.hlu.linkErrors ++ byteOf p.hlu.idleRun ++ bytesOfNat 4 p.hlu.relayTag.toNat ++
  optionalItem 7 relaySlotBytes p.hlu.relay ++ (List.finRange 8).flatMap p.headBytes

/-- A channel's marks in the ODOMETRY selection (R57). -/
def Channel.bytes (x : Channel) : List Byte := byteOfBool x.faulted ++ byteOf x.zeroSteps

/-- Selection ODOMETRY (R57). The active channel has the codes that section 12.3 lists for the lead encoder, E1 1 and E2 2; the last speed and its tick time share one presence byte (the model's choices, log 18). -/
def Part.odometryState (p : Part) : List Byte :=
  let o := p.odu
  byteOf o.direction.code ++ [Config.senseCode o.sense] ++ byteOf o.active.code ++
  o.e1.bytes ++ o.e2.bytes ++ bytesOfInt 8 o.ahead ++ bytesOfInt 8 o.high ++ bytesOfInt 8 o.nextTick ++
  byteOf o.history.length ++ optionalItem 6 (fun x => bytesOfNat 2 (TickSpeed.speed x) ++ bytesOf32 x.time) o.lastSpeed

/-- A kilometre post as POSITION gives it. -/
def postBytes (x : Post) : List Byte := bytesOfInt 4 x.distance ++ bytesOfNat 2 x.kilometre

/-- A route list entry in the layout of APPEND ROUTE. -/
def routeEntryBytes (e : RouteEntry) : List Byte :=
  match e.kind with
  | .marker c m => byteOf 0 ++ bytesOfInt 4 e.distance ++ bytesOf32 c ++ bytesOf32 m
  | .kpost km => byteOf 1 ++ bytesOfInt 4 e.distance ++ bytesOfNat 4 km ++ bytesOfNat 4 0

/-- Selection POSITION (R81). -/
def Part.positionState (p : Part) : List Byte :=
  let f := p.pfu
  bytesOfInt 4 f.routeDistance ++ byteOf f.position.code ++ optionalItem 8 (bytesOfNat 8) f.sinceFix ++
  byteOf f.missCount ++ optionalItem 6 postBytes f.lastPost ++ optionalItem 6 labelBytes p.label ++
  byteOf f.routeList.length ++ optionalItem 13 routeEntryBytes f.routeList.head? ++
  optionalItem 4 (bytesOfInt 4) f.pendingCorrection

/-- Selection TRACE (R104). L and B are those that the settings of the moment give, also between a SET of a chord or twist base and the next capture (the model's choice, log 45). -/
def Part.traceState (p : Part) : List Byte :=
  bytesOfNat 2 p.tru.window.length ++ optionalItem 4 bytesOf32 p.tru.segStart ++
  optionalItem 4 bytesOf32 p.tru.nextEmit ++
  optionalItem 4 bytesOf32 (p.tru.window.getLast?.map TraceEntry.seq) ++ bytesOf32 p.tru.nextSeq ++
  byteOf p.oru.settings.lag ++ byteOf p.oru.settings.depth

/-- A section in the layout of APPEND SECTIONS. -/
def sectionBytes (x : TrackSection) : List Byte :=
  bytesOfInt 4 x.start ++ bytesOfInt 4 x.finish ++ byteOf x.cls.val ++ [x.suppressed] ++
  optionalItem 2 (bytesOfInt 2) x.cant ++ bytesOfNat 2 x.label.toNat

/-- Selection SECTIONS (R122). -/
def Part.sectionsState (p : Part) : List Byte :=
  byteOf p.lmu.sections.length ++ byteOfBool p.lmu.lowArmed ++
  optionalItem 15 sectionBytes p.lmu.sections.head? ++ byteOfBool p.currentSection.isSome

/-- The exceedance that a slot holds, active or PENDING. -/
def SlotHold.ex? : SlotHold → Option Exceedance
  | .free => none
  | .active _ ex => some ex
  | .pending ex _ => some ex

/-- The number of a pair (R197). -/
def pairNumber (param : Param) (s : Polarity) : Nat := param.val * 2 + s.code

/-- What TRACKER gives of an exceedance (R149). -/
def exceedanceBytes (ex : Exceedance) : List Byte :=
  bytesOfNat 4 ex.serial ++ byteOf (pairNumber ex.param ex.polarity) ++ byteOf ex.grade ++ bytesOf32 ex.startSeq

/-- One slot of the TRACKER selection (R149). One presence byte covers the serial, pair, highest grade and start sequence, which are present together (the model's choice, log 18). -/
def slotBytes (x : Slot) : List Byte :=
  byteOf x.hold.code ++ byteOfBool x.urgentOwed ++ optionalItem 10 exceedanceBytes x.hold.ex?

/-- One latch of the TRACKER selection (R149). -/
def latchBytes (x : Latch) : List Byte :=
  byteOfBool x.isSet ++ byteOfBool x.urgentRaised ++ byteOfBool x.urgentOwed

/-- Selection TRACKER (R149). -/
def Part.trackerState (p : Part) : List Byte :=
  p.ext.slots.toList.flatMap slotBytes ++ p.ext.latches.toList.flatMap latchBytes ++
  p.ext.pendingList.flatMap (fun n => byteOf n.val) ++ byteOf p.ext.owed.length ++
  bytesOfNat 4 p.ext.nextSerial

/-- Selection RUN (R163). -/
def Part.runBytes (p : Part) : List Byte :=
  byteOf p.rnc.runState.code ++ bytesOfNat 2 p.rnc.runNumber.toNat ++ optionalItem 4 bytesOf32 p.rnc.parkDeadline

/-- Selection RECORDER LINK (R175). -/
def Part.recorderState (p : Part) : List Byte :=
  let r := p.rlu
  byteOf r.link.code ++ byteOf r.linkErrors ++ byteOf r.credits ++
  byteOf (r.control.length - r.nonUrgent) ++ byteOf r.nonUrgent ++ byteOf r.reservations ++
  byteOf r.xr.length ++ byteOf r.gr.length ++ byteOf r.mirror.length ++
  optionalItem 1 (fun t => [Config.queueCode (Transmission.queue t)]) r.tx ++ bytesOfNat 4 r.grDropped

/-- Selection ORDERS (R185). One presence byte covers the code and the tag of the head order reservation (the model's choice, log 18). -/
def Part.ordersState (p : Part) : List Byte :=
  byteOf p.oru.buffer.length ++
  optionalItem 2 (fun r => [HeadReservation.code r, r.tag]) p.oru.headReservation ++
  bytesOfNat 4 p.evu.mask.toNat

/-- The items of a selection, 1 to 9 in the order of R185. -/
def Part.selection (p : Part) (n : Nat) : Option (List Byte) :=
  match n with
  | 1 => some p.headLinkState
  | 2 => some p.odometryState
  | 3 => some p.positionState
  | 4 => some p.traceState
  | 5 => some p.sectionsState
  | 6 => some p.trackerState
  | 7 => some p.runBytes
  | 8 => some p.recorderState
  | 9 => some p.ordersState
  | _ => none

/-! ## Limit rows -/

/-- A row in the layout of WRITE LIMITS (R121). -/
def LimitRow.bytes (r : LimitRow) : List Byte :=
  (r.plus.written ++ r.minus.written).flatMap (bytesOfNat 2) ++ byteOf r.hysteresis ++ byteOf r.minLength

/-- The rows from an address on, at most `n`, up to address 63. -/
def Part.rowsFrom (p : Part) (a n : Nat) : List LimitRow := (p.lmu.limits.toList.drop a).take n

/-! ## Counters -/

/-- The places of the counters of a group, in reply order, for a head address that fits it (R194, section 12.3). -/
def counterGroup (group a : Nat) : Option (List Nat) :=
  if group = 2 then
    (headOfAddress a).map (fun h => (List.range 6).map (fun i => 61 + 6 * h.val + i))
  else if a ≠ 0 then none
  else
    match group with
    | 1 => some (List.range' 0 11)
    | 3 => some (List.range' 11 18)
    | 4 => some (List.range' 29 16)
    | 5 => some (List.range' 45 9)
    | 6 => some (List.range' 54 7)
    | _ => none

/-- The counters at a list of places. -/
def Part.counterBytes (p : Part) (l : List Nat) : List Byte :=
  l.flatMap (fun i => bytesOfNat 4 (p.evu.counters.toList.getD i 0))

/-- The counters at a list of places set to 0. -/
def Part.clearCounters (p : Part) (l : List Nat) : Part :=
  p.withEvu { p.evu with counters := p.evu.counters.mapFinIdx (fun i v _ => if l.contains i then 0 else v) }

end Sys2Proof.Machine
end

