-- ==== Sys2Proof/Machine/HeadLink.lean ====
section
/-! DEFINITION. The Head Link Unit: the character receiver, lock and hunt, the checks of a frame, head qualification, the four kinds of frame, mirroring, the relay of head orders and the deadlines of the head link (Chapter 1, R29). -/

namespace Sys2Proof.Machine

/-! ## Head records -/

/-- A head record changed. -/
def Part.onHead (p : Part) (h : Head) (f : HeadRecord → HeadRecord) : Part :=
  p.withHlu { p.hlu with heads := vmodify p.hlu.heads h f }

/-- A head record replaced, HEAD_CHANGE raised where its state changes (section 1.3). -/
def Part.writeHead (p : Part) (h : Head) (r : HeadRecord) : Part :=
  let p1 := p.onHead h (fun _ => r)
  if r.state = (p.hlu.heads[h]).state then p1 else p1.raise .headChange

/-! ## Lock and hunt (R1 to R3) -/

/-- The receiver's place written. -/
def Part.setRx (p : Part) (x : HeadRx) : Part := p.withHlu { p.hlu with rx := x }

/-- A head record at the loss of lock: good run 0, and a proven head drops to ACQUIRING (R3). -/
def HeadRecord.unlocked (r : HeadRecord) : HeadRecord :=
  if r.state = .absent then r
  else { r with goodRun := 0, state := if r.state.proven then .acquiring else r.state }

/-- The link becomes UNLOCKED (R3). -/
def Part.unlock (p : Part) : Part :=
  let changed := p.hlu.heads.toList.countP (fun r => r.state.proven)
  let p1 := p.withHlu { p.hlu with
    locked := false, linkErrors := 0, idleRun := 0, rx := .outside
    heads := p.hlu.heads.map HeadRecord.unlocked }
  ((p1.raiseTimes .headChange changed).bump .lockLosses).raise .headLinkLost

/-- The link error count raised and compared with its threshold (R2). -/
def Part.linkError (p : Part) : Part :=
  let n := min (p.hlu.linkErrors + 1) 15
  let p1 := p.withHlu { p.hlu with linkErrors := n }
  if p.oru.settings.headErrorThreshold ≤ n then p1.unlock else p1

/-- Whether the hunt has seen 32 IDLE characters in a row (R3). -/
def Part.lockDue (p : Part) : Bool := !p.hlu.locked && decide (32 ≤ p.hlu.idleRun)

/-- The link becomes LOCKED (R3). -/
def Part.lockEvent (p : Part) : Part :=
  if p.lockDue then p.withHlu { p.hlu with locked := true, idleRun := 0 } else p

/-- Loss of signal (R1, R3). -/
def Part.headLoss (p : Part) : Part :=
  let p1 := p.lockEvent
  if p1.hlu.locked then p1.unlock else p1.withHlu { p1.hlu with idleRun := 0 }

/-! ## The checks and their failures (R5 to R9, R12) -/

/-- A framing error; the receiver goes on from `x` (R5). -/
def Part.framingError (p : Part) (x : HeadRx) : Part := ((p.setRx x).bump .framingErrors).linkError

/-- An uncorrectable or impossible header (R6). -/
def Part.headerError (p : Part) : Part := ((p.setRx .passing).bump .uncorrectableHeaders).linkError

/-- A head record after a bad frame; `drop` marks a shape mismatch, which takes a proven head to ACQUIRING (R8, R9, R12). -/
def HeadRecord.bad (r : HeadRecord) (drop : Bool) : HeadRecord :=
  let score := min (r.score + 8) 255
  let state :=
    if score = 255 then HeadState.excluded
    else if drop && r.state.proven then .acquiring
    else if r.state = .qualified ∧ 96 ≤ score then .suspect
    else r.state
  { r with score := score, goodRun := 0, state := state }

/-- A bad frame of a head, an exclusion counted (R8, R9, R12). -/
def Part.badFrame (p : Part) (h : Head) (drop : Bool) : Part :=
  let old := p.hlu.heads[h]
  let new := old.bad drop
  let p1 := p.writeHead h new
  if new.state = .excluded ∧ old.state ≠ .excluded then p1.bump (.exclusions h) else p1

/-! ## Valid frames (R10 to R13) -/

/-- The head state of a proven-or-not head whose good run and score stand as given (R11). -/
def qualifiedState (pass goodRun score : Nat) : HeadState :=
  if pass ≤ goodRun then (if score < 96 then .qualified else .suspect) else .acquiring

/-- The score, good run and head state after a valid frame (R10 to R13). -/
def HeadRecord.good (r : HeadRecord) (pass : Nat) : HeadRecord :=
  let score := r.score - 1
  let run := min (r.goodRun + 1) 1023
  match r.state with
  | .absent => { r with score := score, goodRun := 1, state := qualifiedState pass 1 score }
  | .acquiring => { r with score := score, goodRun := run, state := qualifiedState pass run score }
  | .qualified => { r with score := score, goodRun := run }
  | .suspect =>
    { r with score := score, goodRun := run, state := if score < 64 then .qualified else .suspect }
  | .excluded =>
    if r.goodRun = 1023 then { r with score := 0, goodRun := 0, state := .acquiring }
    else { r with goodRun := run }

/-- The gap of a sequence number after the last one (R10). -/
def sequenceGap (last : Option (BitVec 8)) (new : BitVec 8) : Nat :=
  match last with
  | none => 0
  | some l => (new - l - 1).toNat

/-- A head record after a valid frame (R10 to R13, R16). -/
def Part.goodRecord (p : Part) (h : Head) (sequence : BitVec 8) : HeadRecord :=
  { (p.hlu.heads[h]).good p.oru.settings.passThreshold with
    lastArrival := some p.time
    lastSequence := some sequence
    watchdog := if p.rnc.runState = .parked then (p.hlu.heads[h]).watchdog else some (p.frameDeadline p.time) }

/-- The common effects of a valid frame (R10). -/
def Part.validFrame (p : Part) (h : Head) (sequence : BitVec 8) : Part :=
  let gap := sequenceGap (p.hlu.heads[h]).lastSequence sequence
  let p1 := (p.bump (.validFrames h)).bumpBy (.lostFrames h) gap
  let p2 := p1.withHlu { p1.hlu with linkErrors := p1.hlu.linkErrors - 1 }
  p2.writeHead h (p.goodRecord h sequence)

/-! ## SAMPLE and STATUS frames, mirroring (R17, R18, R21, R29, R174) -/

/-- The mean of a channel position over a frame's samples, toward zero (R17). -/
def channelMean (payload : List Byte) (channels samples c : Nat) : Int :=
  (((List.range samples).map (fun t => fieldInt payload (2 * (t * channels + c)) 2)).foldl (fun a b => a + b) 0).tdiv samples

/-- The channel means of a SAMPLE payload (R17). -/
def channelMeans (payload : List Byte) (channels samples : Nat) : List Int :=
  (List.range channels).map (channelMean payload channels samples)

/-- A valid SAMPLE frame held, fresh until its deadline (R17, R29). -/
def Part.holdSample (p : Part) (h : Head) (hd : Header) (payload : List Byte) : Part :=
  let p1 := p.onHead h (fun r => { r with held := some ⟨p.time, channelMeans payload hd.channels hd.samples⟩ })
  p1.withShu { p1.shu with freshness := vmodify p1.shu.freshness h (fun _ => some (p.frameDeadline p.time)) }

/-- A copy offered to the mirror queue (R174). -/
def Part.offerMirror (p : Part) (m : MirrorFrame) : Part :=
  if p.rlu.mirror.length < Config.mirrorCapacity then p.withRlu { p.rlu with mirror := p.rlu.mirror ++ [m] }
  else p.bump .mirrorDrops

/-- The copy of a SAMPLE or STATUS frame of a mirrored head, except while PARKED (R21). -/
def Part.mirrorCopy (p : Part) (h : Head) (k : HeadKind) (bytes : List Byte) : Part :=
  if p.oru.settings.mirrors[h] && p.rnc.runState != .parked then p.offerMirror ⟨h, k, bytes⟩ else p

/-- The masked rises of a status change (R18). -/
def HeadRecord.rises (r : HeadRecord) (new : BitVec 8) : BitVec 8 := (~~~r.status &&& new) &&& r.riseMask

/-- The masked falls of a status change (R18). -/
def HeadRecord.falls (r : HeadRecord) (new : BitVec 8) : BitVec 8 := (r.status &&& ~~~new) &&& r.fallMask

/-- A valid STATUS frame taken (R18). -/
def Part.takeStatus (p : Part) (h : Head) (new : BitVec 8) : Part :=
  let r := p.hlu.heads[h]
  let p1 := p.onHead h (fun x => { x with
    status := new, riseLatch := x.riseLatch ||| r.rises new, fallLatch := x.fallLatch ||| r.falls new })
  if (r.rises new ||| r.falls new) = 0#8 then p1 else p1.raise .headStatus

/-! ## MARKER and REPLY frames (R20, R23) -/

/-- A valid MARKER frame taken (R20). -/
def Part.takeMarker (p : Part) (h : Head) (code : BitVec 32) : Part :=
  if headOfAddress p.oru.settings.markerHead = some h then
    if (p.hlu.heads[h]).state.proven && !(p.hlu.heads[h]).headFault then p.detect code
    else p.bump .withheldMarkers
  else p.bump .strayMarkers

/-- The relay completed with a result and reply bytes: the reserved entry filled, the slot and the head order reservation freed (R23, R24, R187). -/
def Part.completeRelay (p : Part) (x : RelaySlot) (result : Result) (reply : List Byte) : Part :=
  let p1 := p.withHlu { p.hlu with relay := none, relayLine := p.hlu.relayLine.map (fun f => { f with forSlot := false }) }
  match p.oru.headReservation with
  | some r =>
    (p1.withOru { p1.oru with headReservation := none }).fillReservation
      (.reply r.code r.tag result (byteOf (Head.address x.head) ++ reply))
  | none => p1

/-- A valid REPLY frame taken: its relay tag, then its reply bytes (R23). -/
def Part.takeReply (p : Part) (h : Head) (payload : List Byte) : Part :=
  match p.hlu.relay with
  | some x =>
    if x.head = h ∧ payload.getD 0 0#8 = x.tag then p.completeRelay x .done (payload.drop 1)
    else p.bump .wrongTagReplies
  | none => (p.bump .lateReplies).raise .headReplyLate

/-! ## A frame judged whole (section 1.2) -/

/-- The payload of a frame's bytes: without the header and the payload CRC. -/
def payloadOf (bytes : List Byte) : List Byte := (bytes.drop 4).take (bytes.length - 6)

/-- Check 4: the payload CRC over the header as received and the payload (R8). -/
def payloadCrcOk (bytes : List Byte) : Bool :=
  crcBytes (bytes.take (bytes.length - 2)) == bytes.drop (bytes.length - 2)

/-- Check 5: the shape of a SAMPLE frame (R9). -/
def Part.shapeOk (p : Part) (h : Head) (hd : Header) : Bool :=
  match hd.kind with
  | .sample => p.oru.settings.shapes[h] == ⟨hd.channels, hd.samples⟩
  | _ => true

/-- What each kind of valid frame does beyond R10. -/
def Part.takeKind (p : Part) (h : Head) (hd : Header) (bytes : List Byte) : Part :=
  match hd.kind with
  | .sample => (p.holdSample h hd (payloadOf bytes)).mirrorCopy h .sample bytes
  | .marker => p.takeMarker h (BitVec.ofNat 32 (natOfBytes (payloadOf bytes)))
  | .status => (p.takeStatus h ((payloadOf bytes).getD 0 0#8)).mirrorCopy h .status bytes
  | .reply => p.takeReply h (payloadOf bytes)

/-- Checks 3 to 6 on a well-framed frame (R7 to R10). -/
def Part.judgeFrame (p : Part) (bytes : List Byte) (hd : Header) : Part :=
  match hd.head? with
  | none => p.bump .foreignAddress
  | some h =>
    if !payloadCrcOk bytes then (p.bump (.crcFailures h)).badFrame h false
    else if !p.shapeOk h hd then (p.bump (.shapeMismatches h)).badFrame h true
    else (p.validFrame h hd.sequence).takeKind h hd bytes

/-! ## The receiver -/

/-- A data character inside a frame (R4, R5, R6). -/
def Part.frameData (p : Part) (bytes : List Byte) (hd : Option Header) (b : Byte) : Part :=
  let bytes1 := bytes ++ [b]
  match hd with
  | none =>
    if bytes1.length < 4 then p.setRx (.inFrame bytes1 none)
    else
      match decodeHeader (headerWord bytes1) with
      | none => p.headerError
      | some (h, false) => p.setRx (.inFrame bytes1 (some h))
      | some (h, true) => (p.setRx (.inFrame bytes1 (some h))).bump .correctedHeaders
  | some h =>
    if h.impliedLength < bytes1.length then p.framingError .passing
    else p.setRx (.inFrame bytes1 (some h))

/-- A FRAME END inside a frame (R4, R5). -/
def Part.frameEnd (p : Part) (bytes : List Byte) (hd : Option Header) : Part :=
  match hd with
  | none => p.framingError .passing
  | some h =>
    if bytes.length < h.impliedLength then p.framingError .passing
    else (p.setRx .outside).judgeFrame bytes h

/-- A character inside a frame (R1, R5). -/
def Part.charInFrame (p : Part) (bytes : List Byte) (hd : Option Header) (c : LineChar) : Part :=
  match c with
  | .idle => p
  | .violation => p.framingError .passing
  | .frameStart =>
    let p1 := p.framingError .passing
    if p1.hlu.locked then p1.setRx (.inFrame [] none) else p1
  | .data b => p.frameData bytes hd b
  | .frameEnd => p.frameEnd bytes hd

/-- A character outside any frame; `counted` says that a run of stray characters has been counted (R5). -/
def Part.charOutside (p : Part) (counted : Bool) (c : LineChar) : Part :=
  match c with
  | .frameStart => p.setRx (.inFrame [] none)
  | .idle => p.setRx .outside
  | .violation => p
  | .data _ => if counted then p else p.framingError .stray
  | .frameEnd => if counted then p else p.framingError .stray

/-- A character while the receiver passes over characters (R5, R6). -/
def Part.charPassing (p : Part) (c : LineChar) : Part :=
  match c with
  | .frameStart => p.setRx (.inFrame [] none)
  | _ => p

/-- A character while the link hunts (R3). -/
def Part.charHunting (p : Part) (c : LineChar) : Part :=
  match c with
  | .idle => p.withHlu { p.hlu with idleRun := min (p.hlu.idleRun + 1) 32 }
  | _ => p.withHlu { p.hlu with idleRun := 0 }

/-- A character taken by the receiver as it stands. -/
def Part.charTaken (p : Part) (c : LineChar) : Part :=
  if p.hlu.locked then
    match p.hlu.rx with
    | .outside => p.charOutside false c
    | .stray => p.charOutside true c
    | .passing => p.charPassing c
    | .inFrame bytes hd => p.charInFrame bytes hd c
  else p.charHunting c

/-- A code violation counted, whatever the lock state (R1). -/
def Part.countViolation (p : Part) (c : LineChar) : Part :=
  match c with
  | .violation => p.bump .headCodeViolations
  | _ => p

/-- A character recovered on the head link (R1); a lock that is due is made before it (log 3). -/
def Part.headChar (p : Part) (c : LineChar) : Part := (p.lockEvent.countViolation c).charTaken c

/-- The characters of one frame, after its FRAME START (R4). -/
def Part.headFrame (p : Part) (chars : List LineChar) : Part :=
  (LineChar.frameStart :: chars).foldl Part.headChar p

/-! ## The relay's line and the deadlines (R14, R22, R24, R29) -/

/-- The relay frame on the line has been sent whole: the relay deadline is set, where the slot waits on it (R22). The relay timeout is the setting as it stood when this relay was accepted: a SET taken since then applies from the next relay (R182). R22 names the setting at the FRAME END alone, so the choice is the model's (log 39). -/
def Part.relaySentEvent (p : Part) : Part :=
  match p.hlu.relayLine with
  | [] => p
  | f :: rest =>
    let p1 := p.withHlu { p.hlu with relayLine := rest }
    match p.hlu.relay with
    | some x =>
      if f.forSlot then
        p1.withHlu { p1.hlu with relay := some { x with deadline := some (laterBy p.time (x.timeout * 1000)) } }
      else p1
    | none => p1

/-- Whether the relay deadline has passed (R24). -/
def Part.relayDue (p : Part) : Option RelaySlot :=
  match p.hlu.relay with
  | some x =>
    (match x.deadline with
     | some d => if reached p.time d then some x else none
     | none => none)
  | none => none

/-- The relay timeout (R24). -/
def Part.relayTimeoutEvent (p : Part) : Part :=
  match p.relayDue with
  | some x => (p.completeRelay x .headTimeout []).bump .relayTimeouts
  | none => p

/-- Whether a head's frame watchdog expires now (R14, R16). -/
def Part.watchdogDue (p : Part) (h : Head) : Bool :=
  p.rnc.runState != .parked &&
    (match (p.hlu.heads[h]).watchdog with
     | some d => reached p.time d
     | none => false)

/-- A head record at a watchdog expiry (R14). -/
def HeadRecord.expired (r : HeadRecord) : HeadRecord :=
  { r with watchdog := none, goodRun := 0, state := if r.state.proven then .acquiring else r.state }

/-- The expiry of a head's frame watchdog (R14). -/
def Part.watchdogEvent (p : Part) (h : Head) : Part :=
  if p.watchdogDue h then (p.bump (.watchdogExpiries h)).writeHead h (p.hlu.heads[h]).expired else p

/-- Whether a head's held frame goes stale now (R29). -/
def Part.freshnessDue (p : Part) (h : Head) : Bool :=
  match p.shu.freshness[h] with
  | some d => reached p.time d
  | none => false

/-- A head's freshness deadline stopped. -/
def Part.stopFreshness (p : Part) (h : Head) : Part :=
  p.withShu { p.shu with freshness := vmodify p.shu.freshness h (fun _ => none) }

/-- The freshness deadline of a head's held frame (R29). -/
def Part.freshnessEvent (p : Part) (h : Head) : Part := if p.freshnessDue h then p.stopFreshness h else p

/-! ## Commands -/

/-- HEAD_LINK_CHARACTER (R1). -/
def execHeadLinkCharacter (line : BitVec 10) (s : State) : Host.Outcome State Fault Refusal :=
  live s (fun p => p.headChar (lineCharOf line))

/-- HEAD_LINK_LOSS_OF_SIGNAL (R1). -/
def execHeadLinkLossOfSignal (s : State) : Host.Outcome State Fault Refusal := live s Part.headLoss

/-- HEAD_LINK_LOCK (R3). -/
def execHeadLinkLock (s : State) : Host.Outcome State Fault Refusal := live s Part.lockEvent

/-- SAMPLE_FRAME (R17). -/
def execSampleFrame (chars : List LineChar) (s : State) : Host.Outcome State Fault Refusal :=
  live s (fun p => p.headFrame chars)

/-- MARKER_FRAME (R20). -/
def execMarkerFrame (chars : List LineChar) (s : State) : Host.Outcome State Fault Refusal :=
  live s (fun p => p.headFrame chars)

/-- STATUS_FRAME (R18). -/
def execStatusFrame (chars : List LineChar) (s : State) : Host.Outcome State Fault Refusal :=
  live s (fun p => p.headFrame chars)

/-- REPLY_FRAME (R23). -/
def execReplyFrame (chars : List LineChar) (s : State) : Host.Outcome State Fault Refusal :=
  live s (fun p => p.headFrame chars)

/-- WATCHDOG_EXPIRY (R14). -/
def execWatchdogExpiry (h : Head) (s : State) : Host.Outcome State Fault Refusal :=
  live s (fun p => p.watchdogEvent h)

/-- FRESHNESS_DEADLINE (R29). -/
def execFreshnessDeadline (h : Head) (s : State) : Host.Outcome State Fault Refusal :=
  live s (fun p => p.freshnessEvent h)

/-- RELAY_FRAME_SENT (R22). -/
def execRelayFrameSent (s : State) : Host.Outcome State Fault Refusal := live s Part.relaySentEvent

/-- RELAY_TIMEOUT (R24). -/
def execRelayTimeout (s : State) : Host.Outcome State Fault Refusal := live s Part.relayTimeoutEvent

end Sys2Proof.Machine
end

