-- ==== Sys2Proof/Machine/Reset.lean ====
section
/-! DEFINITION. The two kinds of reset, block by block: the hard reset and the RESTART (00_scope.md section 3.6, R26, R40, R58, R82, R105, R123, R150, R164, R177, R188, R189, R195, R198). -/

namespace Sys2Proof.Machine

/-! ## Hard reset -/

/-- A reset channel with the phase levels that its pins have (R58; log 8). -/
def Channel.fresh (x : Channel) : Channel := { Channel.reset with phaseA := x.phaseA, phaseB := x.phaseB }

/-- The hard-reset state of the part, held while RESET_N stays low (R198). -/
def Part.hardReset (p : Part) (held : Bool) : Part :=
  { Part.reset with
    resetHeld := held
    odu := { Odu.reset with e1 := p.odu.e1.fresh, e2 := p.odu.e2.fresh } }

/-- The part after a cause of hard reset: power-on, a pulse of at least 1 µs, a shorter pulse that is ignored, or RESET_N held low (R198; log 7). A power-on and a long pulse leave RESET_N high, so they end a hold (the model's choice, log 46). -/
def Part.resetBy (p : Part) : ResetCause → Part
  | .powerOn => p.hardReset false
  | .pulse ns => if 1000 ≤ ns then p.hardReset false else p
  | .heldLow => p.hardReset true

/-- HARD_RESET (R198). -/
def execHardReset (c : ResetCause) (s : State) : Host.Outcome State Fault Refusal :=
  .next { s with part := (s.part.resetBy c).moveOwed }

/-- RESET_N_RISING_EDGE (R198): the end of a hard reset that is held; without one it changes nothing. -/
def execResetNRisingEdge (s : State) : Host.Outcome State Fault Refusal :=
  if s.part.resetHeld then .next { s with part := s.part.hardReset false } else live s id

/-! ## RESTART -/

/-- A head record after a RESTART: reset but for its masks (R26). -/
def HeadRecord.restarted (r : HeadRecord) : HeadRecord :=
  { HeadRecord.reset with riseMask := r.riseMask, fallMask := r.fallMask }

/-- R26: the link state, the relay tag counter, a frame being received and a relay frame being sent stay. -/
def Hlu.restarted (x : Hlu) : Hlu :=
  { x with
    relay := none
    relayLine := x.relayLine.map (fun f => { f with forSlot := false })
    heads := x.heads.map HeadRecord.restarted }

/-- R40: the input map stays. -/
def Shu.restarted (x : Shu) : Shu := { x with freshness := Vector.replicate 8 none }

/-- R58 at the settings as they stand. -/
def Odu.restarted (x : Odu) (now : Time) (s : Settings) : Odu :=
  { Odu.reset with
    active := s.leadEncoder
    e1 := x.e1.fresh
    e2 := x.e2.fresh
    lastComparison := now
    nextTick := s.recordSpacing * 1000 }

/-- R123: the limit table stays. -/
def Lmu.restarted (x : Lmu) : Lmu := { x with sections := [], lowArmed := false }

/-- The RESTARTED status notice: cause 20, READY alone set, next record sequence 0, route distance 0 (R177, R191). -/
def restartedNotice : ControlFrame := .status 20 1#20 0 0

/-- R177: the link state, its counts and the credits stay, a frame in transmission is forgotten. -/
def Rlu.restarted (x : Rlu) : Rlu :=
  { x with
    control := [restartedNotice]
    reservations := 0
    xr := []
    gr := []
    mirror := []
    tx := x.tx.map (fun t => { t with forgotten := true })
    grDropped := 0 }

/-- R188, R189: the settings and the bodies in the buffer stay. -/
def Oru.restarted (x : Oru) : Oru := { x with headReservation := none }

/-- The part after a RESTART (R188). -/
def Part.restarted (p : Part) : Part where
  time := p.time
  resetHeld := p.resetHeld
  hlu := p.hlu.restarted
  shu := p.shu.restarted
  odu := p.odu.restarted p.time p.oru.settings
  pfu := Pfu.reset
  tru := Tru.reset
  lmu := p.lmu.restarted
  ext := Ext.reset
  rnc := Rnc.reset
  rlu := p.rlu.restarted
  oru := p.oru.restarted
  evu := Evu.reset

end Sys2Proof.Machine
end

