-- ==== Sys2Proof/Machine/Orders.lean ====
section
/-! DEFINITION. The Order Unit: taking an order from the buffer, its checks and its reply, and the twenty orders (Chapter 10, with the order rules of the other chapters). -/

namespace Sys2Proof.Machine

/-! ## From the buffer to the reply (R179 to R181) -/

/-- An order's answer: the part it leaves, its result and its data. -/
structure Answer where
  part : Part
  result : Result
  data : List Byte

/-- A reply that carries an order's code and tag. -/
def replyTo (body : List Byte) (r : Result) (data : List Byte) : ControlFrame :=
  .reply (orderCode body) (orderTag body) r data

/-- The taking of the order at the head of the buffer: the reservation made, the body removed, the taking counted (R179). -/
def Part.taken (p : Part) : Part :=
  ((p.withRlu { p.rlu with reservations := p.rlu.reservations + 1 }).withOru
    { p.oru with buffer := p.oru.buffer.drop 1 }).bump .ordersTaken

/-- The order at the head of the buffer, when a reservation can be made for it (R179). -/
def Part.readyOrder (p : Part) : Option (List Byte) :=
  match p.oru.buffer with
  | body :: _ => if p.rlu.admitsNonUrgent then some body else none
  | [] => none

/-- A refusal for a wrong length (R180). -/
def Part.refuseLength (p : Part) (body : List Byte) : Part :=
  (p.bump .badLengths).fillReservation (replyTo body .badLength [])

/-- An order handed to `carry` after its length check (R180). -/
def Part.carryOut (p : Part) (body : List Byte) (carry : Part → List Byte → Part) : Part :=
  if lengthOk body then carry p body else p.refuseLength body

/-- The order row of a code: where the order at the head of the buffer has that code, is accepted by `sel`, and can be taken, it is taken and carried out; otherwise nothing happens. -/
def Part.orderRow (code : Nat) (sel : List Byte → Bool) (carry : Part → List Byte → Part) (p : Part) : Part :=
  match p.readyOrder with
  | some body =>
    if (orderCode body).toNat = code ∧ sel (orderParams body) then p.taken.carryOut body carry else p
  | none => p

/-- An order that is answered within its taking: its reply fills the reservation (R181). -/
def answered (owner : Part → List Byte → Answer) (p : Part) (body : List Byte) : Part :=
  let x := owner p (orderParams body)
  x.part.fillReservation (replyTo body x.result x.data)

/-- An order row without a selection among its parameters, answered within its taking. -/
def Part.answeredRow (code : Nat) (owner : Part → List Byte → Answer) (p : Part) : Part :=
  p.orderRow code (fun _ => true) (answered owner)

/-! ## SET and GET (R182, R183) -/

/-- Setting number, head address and value in force. -/
def settingData (s : Settings) (n a : Nat) : List Byte := byteOf n ++ byteOf a ++ bytesOfNat 4 (s.value n a)

/-- The head's held sample frame discarded and its freshness deadline stopped by a change of its shape (R15, R29). -/
def Part.dropHeld (p : Part) (a : Nat) : Part :=
  match headOfAddress a with
  | some h => (p.onHead h (fun r => { r with held := none })).stopFreshness h
  | none => p

/-- The first multiple of a spacing in µm that is strictly greater than H (R47). -/
def boundaryAfter (high : Int) (spacing : Nat) : Int := (high / (spacing * 1000) + 1) * (spacing * 1000)

/-- What the owner of a setting does at once when it is written (R15, R47, R54, R64, R68, R112). A SET of the record spacing that comes between the step which brings H to the boundary and its TICK is taken first: the boundary moves above H and that tick is not made (the model's choice, log 41). -/
def Part.settingEffect (p : Part) (n a : Nat) : Part :=
  match n with
  | 1 => (p.withOdu { p.odu with nextTick := boundaryAfter p.odu.high p.oru.settings.recordSpacing }).emptySpeed
  | 4 => p.withOdu { p.odu with active := p.oru.settings.leadEncoder }
  | 12 => p.dropHeld a
  | 17 => p.validityTest
  | 28 => p.armRoute
  | 29 => p.armSections
  | _ => p

/-- Why a SET is refused: the result, and whether its data is left out (R182). -/
def Part.setRefusal (p : Part) (n a v : Nat) : Option (Result × Bool) :=
  if !settingNamed n a then some (.badValue, true)
  else if !settingInRange n v then some (.badValue, false)
  else if haltedOnlySetting n && p.rnc.runState != .halted then some (.badState, false)
  else none

/-- SET of a setting (R182). -/
def Part.setOrder (p : Part) (ps : List Byte) : Answer :=
  let n := fieldNat ps 0 1
  let a := fieldNat ps 1 1
  let v := fieldNat ps 2 4
  match p.setRefusal n a v with
  | some (r, true) => ⟨p, r, []⟩
  | some (r, false) => ⟨p, r, settingData p.oru.settings n a⟩
  | none =>
    let p1 := (p.withSettings (p.oru.settings.write n a v)).settingEffect n a
    ⟨p1, .done, settingData p1.oru.settings n a⟩

/-- GET (R183). -/
def Part.getOrder (p : Part) (ps : List Byte) : Answer :=
  let n := fieldNat ps 0 1
  let a := fieldNat ps 1 1
  if settingNamed n a then ⟨p, .done, settingData p.oru.settings n a⟩ else ⟨p, .badValue, []⟩

/-- A SET row of one setting number. -/
def Part.setRow (n : Nat) (p : Part) : Part :=
  p.orderRow 2 (fun ps => fieldNat ps 0 1 == n) (answered Part.setOrder)

/-! ## The run orders (R152, R161) -/

/-- START RUN (R152, R153). -/
def Part.startOrder (p : Part) (ps : List Byte) : Answer :=
  match p.startRefusal with
  | some r => ⟨p, r, bytesOfNat 2 p.rnc.runNumber.toNat⟩
  | none => ⟨p.beginRun (BitVec.ofNat 16 (fieldNat ps 0 2)), .done, bytesOfNat 2 (fieldNat ps 0 2)⟩

/-- STOP RUN (R161, R162). -/
def Part.stopOrder (p : Part) (_ps : List Byte) : Answer :=
  let p1 := p.endRun
  ⟨p1, .done, bytesOfNat 2 p1.rnc.runNumber.toNat ++ bytesOf32 p1.tru.nextSeq ++ byteOf p1.ext.pendingList.length⟩

/-! ## Position and lists (R60, R61, R78, R107, R108) -/

/-- A direction code. -/
def directionOf (n : Nat) : Option Direction :=
  if n = 0 then some .up else if n = 1 then some .down else none

/-- SET POSITION (R78, R79). -/
def Part.positionOrder (p : Part) (ps : List Byte) : Answer :=
  match directionOf (fieldNat ps 4 1) with
  | none => ⟨p, .badValue, []⟩
  | some d =>
    if p.rnc.runState.inRun ∧ d ≠ p.odu.direction then ⟨p, .badState, []⟩
    else ⟨p.setPositionTo (fieldInt ps 0 4) d, .done, []⟩

/-- APPEND ROUTE (R60). -/
def Part.appendRouteOrder (p : Part) (ps : List Byte) : Answer :=
  let n := fieldNat ps 0 1
  if n = 0 ∨ 8 < n then ⟨p, .badValue, byteOf 0⟩
  else
    let x := p.appendRouteList ((pieces 13 n (ps.drop 1)).map rawRoute)
    ⟨x.1, x.2.2, byteOf x.2.1⟩

/-- APPEND SECTIONS (R107). -/
def Part.appendSectionsOrder (p : Part) (ps : List Byte) : Answer :=
  let n := fieldNat ps 0 1
  if n = 0 ∨ 8 < n then ⟨p, .badValue, byteOf 0⟩
  else
    let x := p.appendSectionList ((pieces 15 n (ps.drop 1)).map rawSection)
    ⟨x.1, x.2.2, byteOf x.2.1⟩

/-- CLEAR LISTS (R61, R108). -/
def Part.clearOrder (p : Part) (ps : List Byte) : Answer :=
  let n := fieldNat ps 0 1
  if n = 1 then ⟨p.emptyRoute, .done, []⟩
  else if n = 2 then ⟨p.emptySections, .done, []⟩
  else if n = 3 then ⟨p.emptyRoute.emptySections, .done, []⟩
  else ⟨p, .badValue, []⟩

/-! ## Tables (R36 to R38, R119, R121) -/

/-- WRITE LIMITS (R119). -/
def Part.writeLimitsOrder (p : Part) (ps : List Byte) : Answer :=
  let n := fieldNat ps 1 1
  if n = 0 ∨ 16 < n then ⟨p, .badValue, byteOf 0⟩
  else
    let x := writeRows (fieldNat ps 0 1) ((pieces 14 n (ps.drop 2)).map rawRow) p.lmu.limits
    ⟨p.withLmu { p.lmu with limits := x.1 }, x.2.2, byteOf x.2.1⟩

/-- READ LIMITS (R121). -/
def Part.readLimitsOrder (p : Part) (ps : List Byte) : Answer :=
  let a := fieldNat ps 0 1
  let n := fieldNat ps 1 1
  if 63 < a ∨ n = 0 ∨ 16 < n then ⟨p, .badValue, byteOf 0⟩
  else
    let rows := p.rowsFrom a n
    ⟨p, if 64 < a + n then .badValue else .done, byteOf rows.length ++ rows.flatMap LimitRow.bytes⟩

/-- WRITE INPUT MAP (R36, R37). A count above 7 writes entries up to index 6 like any count that runs past the end of the map (the model's choice, log 43). -/
def Part.writeMapOrder (p : Part) (ps : List Byte) : Answer :=
  let a := fieldNat ps 0 1
  let n := fieldNat ps 1 1
  if p.rnc.runState ≠ .halted then ⟨p, .badState, byteOf 0⟩
  else if 6 < a ∨ n = 0 then ⟨p, .badValue, byteOf 0⟩
  else
    let x := writeEntries a (rawEntries n (ps.drop 2)) p.shu.map
    ⟨p.withShu { p.shu with map := x.1 }, x.2.2, byteOf x.2.1⟩

/-- READ INPUT MAP (R38, R39). -/
def Part.readMapOrder (p : Part) (ps : List Byte) : Answer :=
  let a := fieldNat ps 0 1
  let n := fieldNat ps 1 1
  if 6 < a ∨ n = 0 then ⟨p, .badValue, byteOf 0⟩
  else
    let es := (p.shu.map.toList.drop a).take n
    ⟨p, if 7 < a + n then .badValue else .done, byteOf es.length ++ es.flatMap p.entryBytes⟩

/-! ## State, counters and events (R185, R192 to R194) -/

/-- READ STATE (R185). -/
def Part.readStateOrder (p : Part) (ps : List Byte) : Answer :=
  match p.selection (fieldNat ps 0 1) with
  | some l => ⟨p, .done, byteOf (fieldNat ps 0 1) ++ l⟩
  | none => ⟨p, .badValue, []⟩

/-- READ COUNTERS (R194). -/
def Part.readCountersOrder (p : Part) (ps : List Byte) : Answer :=
  let g := fieldNat ps 0 1
  let a := fieldNat ps 1 1
  match counterGroup g a with
  | some l =>
    ⟨if fieldNat ps 2 1 = 0 then p else p.clearCounters l, .done, byteOf g ++ byteOf a ++ p.counterBytes l⟩
  | none => ⟨p, .badValue, []⟩

/-- The rise latch and fall latch of every head. -/
def Part.latchPairs (p : Part) : List Byte :=
  p.hlu.heads.toList.flatMap (fun r => [r.riseLatch, r.fallLatch])

/-- Bits cleared from a set. -/
def clearedBy (x y : BitVec 8) : BitVec 8 := x &&& ~~~y

/-- The flags and latches cleared as a READ EVENTS selects (R193). -/
def Part.clearEvents (p : Part) (ps : List Byte) : Part :=
  let p1 := p.withEvu { p.evu with flags := p.evu.flags &&& ~~~(BitVec.ofNat 20 (fieldNat ps 0 4)) }
  p1.withHlu { p1.hlu with heads := p1.hlu.heads.mapFinIdx (fun i r _ =>
    { r with
      riseLatch := clearedBy r.riseLatch (ps.getD (4 + 2 * i) 0#8)
      fallLatch := clearedBy r.fallLatch (ps.getD (5 + 2 * i) 0#8) }) }

/-- READ EVENTS (R193). -/
def Part.readEventsOrder (p : Part) (ps : List Byte) : Answer :=
  ⟨p.clearEvents ps, .done, bytesOfNat 4 p.evu.flags.toNat ++ p.latchPairs⟩

/-- The masks written by SET NOTICE MASK (R192). -/
def Part.writeMasks (p : Part) (ps : List Byte) : Part :=
  let p1 := p.withEvu { p.evu with mask := BitVec.ofNat 20 (fieldNat ps 0 4) }
  p1.withHlu { p1.hlu with heads := p1.hlu.heads.mapFinIdx (fun i r _ =>
    { r with riseMask := ps.getD (4 + 2 * i) 0#8, fallMask := ps.getD (5 + 2 * i) 0#8 }) }

/-- The masks as written, in 20 bytes. -/
def Part.maskBytes (p : Part) : List Byte :=
  bytesOfNat 4 p.evu.mask.toNat ++ p.hlu.heads.toList.flatMap (fun r => [r.riseMask, r.fallMask])

/-- SET NOTICE MASK (R192). -/
def Part.noticeMaskOrder (p : Part) (ps : List Byte) : Answer :=
  let p1 := p.writeMasks ps
  ⟨p1, .done, p1.maskBytes⟩

/-! ## General orders (R184, R186, R187, R188) -/

/-- The identity and capacities (R184). -/
def identity : List Byte :=
  bytesOfNat 2 Config.partNumber ++ [Config.siliconRevision] ++ Config.capacities.flatMap (bytesOfNat 2)

/-- IDENTIFY (R184). -/
def Part.identifyOrder (p : Part) (_ps : List Byte) : Answer := ⟨p, .done, identity⟩

/-- An EXCLUDED head restored (R13). -/
def HeadRecord.restored (r : HeadRecord) : HeadRecord := { r with state := .acquiring, score := 0, goodRun := 0 }

/-- RESTORE HEAD (R13, R186). An address of no head is answered without data (the model's choice, log 40). -/
def Part.restoreOrder (p : Part) (ps : List Byte) : Answer :=
  match headOfAddress (fieldNat ps 0 1) with
  | none => ⟨p, .badValue, []⟩
  | some h =>
    let r := p.hlu.heads[h]
    if r.state = .excluded then
      ⟨p.writeHead h r.restored, .done, byteOf (Head.address h) ++ byteOf HeadState.acquiring.code⟩
    else ⟨p, .badState, byteOf (Head.address h) ++ byteOf r.state.code⟩

/-- Why a HEAD ORDER is refused, or the head it goes to (R187). -/
def Part.headOrderCheck (p : Part) (ps : List Byte) : Except Result Head :=
  match headOfAddress (fieldNat ps 0 1) with
  | none => .error .badValue
  | some h =>
    if fieldNat ps 1 1 = 0 ∨ 32 < fieldNat ps 1 1 then .error .badValue
    else if p.hlu.relay.isSome ∨ p.oru.headReservation.isSome then .error .busy
    else if !p.hlu.locked then .error .badState
    else if (p.hlu.heads[h]).state = .absent then .error .headAbsent
    else .ok h

/-- A head order relayed: the slot outstanding, the relay tag taken, the relay frame put on the line, the reservation kept (R22, R187). -/
def Part.relayOrder (p : Part) (h : Head) (body : List Byte) : Part :=
  let tag := p.hlu.relayTag
  let p1 := p.withHlu { p.hlu with
    relay := some ⟨h, tag, none, p.oru.settings.relayTimeout⟩
    relayTag := tag + 1
    relayLine := p.hlu.relayLine ++ [⟨relayBytes h tag ((orderParams body).drop 2), 0, true⟩] }
  p1.withOru { p1.oru with headReservation := some ⟨orderCode body, orderTag body⟩ }

/-- HEAD ORDER (R187). -/
def Part.headOrder (p : Part) (body : List Byte) : Part :=
  match p.headOrderCheck (orderParams body) with
  | .ok h => p.relayOrder h body
  | .error r => p.fillReservation (replyTo body r (byteOf (fieldNat (orderParams body) 0 1)))

/-- RESTART (R188): its answer is the RESTARTED notice. -/
def Part.restartOrder (p : Part) (_body : List Byte) : Part := p.restarted

/-- An order whose code names none of the twenty (R180). -/
def Part.unknownRow (p : Part) : Part :=
  match p.readyOrder with
  | some body =>
    if (orderCode body).toNat = 0 ∨ 20 < (orderCode body).toNat then
      (p.taken.bump .unknownOrders).fillReservation (replyTo body .unknownOrder [])
    else p
  | none => p

/-! ## Commands -/

/-- UNKNOWN_ORDER (R180). -/
def execUnknownOrder (s : State) : Host.Outcome State Fault Refusal := live s Part.unknownRow

/-- IDENTIFY (R184). -/
def execIdentify (s : State) : Host.Outcome State Fault Refusal := live s (Part.answeredRow 1 Part.identifyOrder)

/-- SET (R182). -/
def execSet (s : State) : Host.Outcome State Fault Refusal := live s (Part.answeredRow 2 Part.setOrder)

/-- SET_RECORD_SPACING (R47). -/
def execSetRecordSpacing (s : State) : Host.Outcome State Fault Refusal := live s (Part.setRow 1)

/-- SET_HEAD_SHAPE (R15). -/
def execSetHeadShape (s : State) : Host.Outcome State Fault Refusal := live s (Part.setRow 12)

/-- SET_LEAD_ENCODER (R54). -/
def execSetLeadEncoder (s : State) : Host.Outcome State Fault Refusal := live s (Part.setRow 4)

/-- SET_FIX_VALIDITY_DISTANCE (R68). -/
def execSetFixValidityDistance (s : State) : Host.Outcome State Fault Refusal := live s (Part.setRow 17)

/-- SET_ROUTE_LOW_WATER (R64). -/
def execSetRouteLowWater (s : State) : Host.Outcome State Fault Refusal := live s (Part.setRow 28)

/-- SET_SECTION_LOW_WATER (R112). -/
def execSetSectionLowWater (s : State) : Host.Outcome State Fault Refusal := live s (Part.setRow 29)

/-- GET (R183). -/
def execGet (s : State) : Host.Outcome State Fault Refusal := live s (Part.answeredRow 3 Part.getOrder)

/-- START_RUN (R153). -/
def execStartRun (s : State) : Host.Outcome State Fault Refusal := live s (Part.answeredRow 4 Part.startOrder)

/-- STOP_RUN (R161). -/
def execStopRun (s : State) : Host.Outcome State Fault Refusal := live s (Part.answeredRow 5 Part.stopOrder)

/-- SET_POSITION (R79). -/
def execSetPosition (s : State) : Host.Outcome State Fault Refusal := live s (Part.answeredRow 6 Part.positionOrder)

/-- APPEND_ROUTE (R60). -/
def execAppendRoute (s : State) : Host.Outcome State Fault Refusal := live s (Part.answeredRow 7 Part.appendRouteOrder)

/-- APPEND_SECTIONS (R107). -/
def execAppendSections (s : State) : Host.Outcome State Fault Refusal := live s (Part.answeredRow 8 Part.appendSectionsOrder)

/-- CLEAR_LISTS (R61). -/
def execClearLists (s : State) : Host.Outcome State Fault Refusal := live s (Part.answeredRow 9 Part.clearOrder)

/-- WRITE_LIMITS (R119). -/
def execWriteLimits (s : State) : Host.Outcome State Fault Refusal := live s (Part.answeredRow 10 Part.writeLimitsOrder)

/-- READ_LIMITS (R121). -/
def execReadLimits (s : State) : Host.Outcome State Fault Refusal := live s (Part.answeredRow 11 Part.readLimitsOrder)

/-- WRITE_INPUT_MAP (R37). -/
def execWriteInputMap (s : State) : Host.Outcome State Fault Refusal := live s (Part.answeredRow 12 Part.writeMapOrder)

/-- READ_INPUT_MAP (R38). -/
def execReadInputMap (s : State) : Host.Outcome State Fault Refusal := live s (Part.answeredRow 13 Part.readMapOrder)

/-- READ_STATE (R185). -/
def execReadState (s : State) : Host.Outcome State Fault Refusal := live s (Part.answeredRow 14 Part.readStateOrder)

/-- READ_COUNTERS (R194). -/
def execReadCounters (s : State) : Host.Outcome State Fault Refusal := live s (Part.answeredRow 15 Part.readCountersOrder)

/-- READ_EVENTS (R193). -/
def execReadEvents (s : State) : Host.Outcome State Fault Refusal := live s (Part.answeredRow 16 Part.readEventsOrder)

/-- SET_NOTICE_MASK (R192). -/
def execSetNoticeMask (s : State) : Host.Outcome State Fault Refusal := live s (Part.answeredRow 17 Part.noticeMaskOrder)

/-- RESTORE_HEAD (R186). -/
def execRestoreHead (s : State) : Host.Outcome State Fault Refusal := live s (Part.answeredRow 18 Part.restoreOrder)

/-- HEAD_ORDER (R187). -/
def execHeadOrder (s : State) : Host.Outcome State Fault Refusal :=
  live s (Part.orderRow 19 (fun _ => true) Part.headOrder)

/-- RESTART (R188). -/
def execRestart (s : State) : Host.Outcome State Fault Refusal :=
  live s (Part.orderRow 20 (fun _ => true) Part.restartOrder)

end Sys2Proof.Machine
end

