-- ==== Sys2Proof/Machine/RecorderLink.lean ====
section
/-! DEFINITION. The Recorder Link Unit: the receiver and the link states, credits, the inbound order buffer's intake, the outbound arbiter and the leaving of frames (Chapter 9, R178). -/

namespace Sys2Proof.Machine

/-! ## Link states (R165 to R167) -/

/-- A frame in transmission cut by a going DOWN (R167). -/
def Part.cutTransmission (p : Part) : Part :=
  match p.rlu.tx with
  | some _ => (p.withRlu { p.rlu with tx := none }).bump .framesCut
  | none => p

/-- Going DOWN (R167). -/
def Part.goDown (p : Part) : Part :=
  let p1 := p.cutTransmission
  (p1.withRlu { p1.rlu with link := .down, linkErrors := 0, idleRun := 0, idleTally := 0, rx := none, credits := 0 }).bump .linkDowns

/-- The link error count raised and compared with its threshold (R166). -/
def Part.recorderError (p : Part) : Part :=
  let n := min (p.rlu.linkErrors + 1) 63
  let p1 := p.withRlu { p.rlu with linkErrors := n }
  if p.oru.settings.recorderErrorThreshold ≤ n then p1.goDown else p1

/-- Whether the hunt has seen 64 IDLE characters in a row (R165). -/
def Part.linkUpDue (p : Part) : Bool := p.rlu.link == .hunt && decide (64 ≤ p.rlu.idleRun)

/-- The link goes UP (R165). -/
def Part.linkUpEvent (p : Part) : Part :=
  if p.linkUpDue then p.withRlu { p.rlu with link := .up, idleRun := 0, idleTally := 0 } else p

/-- Loss of signal (R165). -/
def Part.recorderLoss (p : Part) : Part :=
  let p1 := p.linkUpEvent
  if p1.rlu.link = .down then p1 else p1.goDown

/-! ## Inbound frames (R168, R169, R178) -/

/-- A check failure of an inbound frame (R168). -/
def Part.checkFailure (p : Part) : Part :=
  ((p.withRlu { p.rlu with rx := none }).bump .checkFailures).recorderError

/-- A credit value taken (R169). -/
def Part.takeCredit (p : Part) (v : Nat) : Part :=
  (p.withRlu { p.rlu with credits := min (p.rlu.credits + v) 255 }).bumpBy .creditExcess (p.rlu.credits + v - 255)

/-- The credit of a CREDIT body (R169; log 38). -/
def creditOf (body : List Byte) : Nat :=
  match body with
  | [v] => v.toNat
  | l => (Config.oddCredit l).toNat

/-- The body of an ORDER frame offered to the inbound order buffer (R178). -/
def Part.offerOrder (p : Part) (body : List Byte) : Part :=
  if body.length < 2 then p.bump .malformedOrders
  else if p.oru.buffer.length < Config.bufferCapacity then
    p.withOru { p.oru with buffer := p.oru.buffer ++ [body] }
  else (p.bump .orderOverruns).raise .orderOverrun

/-- The length field of an inbound frame whose first three bytes have arrived. -/
def inboundLength (bytes : List Byte) : Nat := natOfBytes ((bytes.drop 1).take 2)

/-- The check of an inbound frame at its FRAME END: it is as long as its length field says and its CRC matches (R168). -/
def inboundOk (bytes : List Byte) : Bool :=
  decide (3 ≤ bytes.length) && bytes.length == 5 + inboundLength bytes &&
    crcBytes (bytes.take (bytes.length - 2)) == bytes.drop (bytes.length - 2)

/-- The body of an inbound frame that passed its check. -/
def inboundBody (bytes : List Byte) : List Byte := (bytes.drop 3).take (inboundLength bytes)

/-- A frame that passed its check, taken by its kind (R168). -/
def Part.takeInbound (p : Part) (bytes : List Byte) : Part :=
  let p1 := p.withRlu { p.rlu with rx := none, linkErrors := p.rlu.linkErrors - 1 }
  let kind := (bytes.getD 0 0#8).toNat
  if kind = 16 then p1.offerOrder (inboundBody bytes)
  else if kind = 17 then p1.takeCredit (creditOf (inboundBody bytes))
  else p1.bump .unknownKinds

/-- Whether the bytes so far already fail: too long a body length, or a character beyond the length (R168). -/
def inboundTooLong (bytes : List Byte) : Bool :=
  decide (3 ≤ bytes.length) &&
    (decide (1024 < inboundLength bytes) || decide (5 + inboundLength bytes < bytes.length))

/-! ## The receiver -/

/-- An IDLE character in UP: the idle tally, and the fall of the link error count at 256 (R166). -/
def Part.tallyIdle (p : Part) : Part :=
  if p.rlu.idleTally = 255 then
    p.withRlu { p.rlu with idleTally := 0, linkErrors := p.rlu.linkErrors - 1 }
  else p.withRlu { p.rlu with idleTally := p.rlu.idleTally + 1 }

/-- The inbound frame's bytes written. -/
def Part.setInbound (p : Part) (x : Option (List Byte)) : Part := p.withRlu { p.rlu with rx := x }

/-- A FRAME START in UP: inside a frame it is a check failure and opens a new frame where the link is still UP (R168). -/
def Part.inboundStart (p : Part) : Part :=
  match p.rlu.rx with
  | none => p.setInbound (some [])
  | some _ =>
    let p1 := p.checkFailure
    if p1.rlu.link = .up then p1.setInbound (some []) else p1

/-- A data character in UP (R168). -/
def Part.inboundData (p : Part) (b : Byte) : Part :=
  match p.rlu.rx with
  | none => p
  | some bytes => if inboundTooLong (bytes ++ [b]) then p.checkFailure else p.setInbound (some (bytes ++ [b]))

/-- A FRAME END in UP (R168). -/
def Part.inboundEnd (p : Part) : Part :=
  match p.rlu.rx with
  | none => p
  | some bytes => if inboundOk bytes then p.takeInbound bytes else p.checkFailure

/-- A code violation in UP (R166, R168). -/
def Part.inboundViolation (p : Part) : Part :=
  match p.rlu.rx with
  | none => p.recorderError
  | some _ => p.checkFailure

/-- A character in UP. -/
def Part.charUp (p : Part) (c : LineChar) : Part :=
  match c with
  | .idle => p.tallyIdle
  | .violation => p.inboundViolation
  | .frameStart => p.inboundStart
  | .data b => p.inboundData b
  | .frameEnd => p.inboundEnd

/-- A character in HUNT (R165). -/
def Part.charHunt (p : Part) (c : LineChar) : Part :=
  match c with
  | .idle => p.withRlu { p.rlu with idleRun := min (p.rlu.idleRun + 1) 64 }
  | _ => p.withRlu { p.rlu with idleRun := 0 }

/-- A character taken in the link state as it stands (R165). -/
def Part.recorderTaken (p : Part) (c : LineChar) : Part :=
  match p.rlu.link with
  | .down => (p.withRlu { p.rlu with link := .hunt, idleRun := 0 }).charHunt c
  | .hunt => p.charHunt c
  | .up => p.charUp c

/-- A code violation counted, in any link state (R166). -/
def Part.countRecorderViolation (p : Part) (c : LineChar) : Part :=
  match c with
  | .violation => p.bump .recorderCodeViolations
  | _ => p

/-- A character recovered on the recorder link (R165); a going UP that is due is made before it (log 3). -/
def Part.recorderChar (p : Part) (c : LineChar) : Part :=
  (p.linkUpEvent.countRecorderViolation c).recorderTaken c

/-- The characters of one inbound frame, after its FRAME START (R168). -/
def Part.recorderFrame (p : Part) (chars : List LineChar) : Part :=
  (LineChar.frameStart :: chars).foldl Part.recorderChar p

/-! ## The outbound arbiter (R170) -/

/-- The queue entry that a start would send, with its kind and body: the head of the first queue that is not empty, in the order control, XR, GR, mirror (R170). -/
def Rlu.nextFrame (r : Rlu) : Option (QueueId × Nat × List Byte) :=
  match r.control, r.xr, r.gr, r.mirror with
  | c :: _, _, _, _ => some (.control, c.kind, c.body)
  | [], x :: _, _, _ => some (.xr, 2, x.body)
  | [], [], g :: _, _ => some (.gr, 1, g.body)
  | [], [], [], m :: _ => some (.mirror, 6, m.body)
  | [], [], [], [] => none

/-- Whether the arbiter may start a frame: the link is UP, none is in transmission, and there is credit (R170). -/
def Rlu.mayStart (r : Rlu) : Bool := r.link == .up && r.tx == none && decide (1 ≤ r.credits)

/-- The start of a frame (R170). -/
def Part.arbiterEvent (p : Part) : Part :=
  if p.rlu.mayStart then
    match p.rlu.nextFrame with
    | some x =>
      (p.withRlu { p.rlu with
        credits := p.rlu.credits - 1
        tx := some ⟨x.1, outboundBytes x.2.1 x.2.2, 0, false⟩ }).bump .framesStarted
    | none => p
  else p

/-- A frame that has left its queue: the entry freed, and of the XR queue the head of the pending list promoted (R143, R170). -/
def Part.leaveQueue (p : Part) (q : QueueId) : Part :=
  match q with
  | .control => p.withRlu { p.rlu with control := p.rlu.control.drop 1 }
  | .xr => (p.withRlu { p.rlu with xr := p.rlu.xr.drop 1 }).promotePending
  | .gr => p.withRlu { p.rlu with gr := p.rlu.gr.drop 1 }
  | .mirror => p.withRlu { p.rlu with mirror := p.rlu.mirror.drop 1 }

/-- The FRAME END of the frame in transmission has been sent (R170, R177). -/
def Part.leavingEvent (p : Part) : Part :=
  match p.rlu.tx with
  | none => p
  | some t =>
    let p1 := p.withRlu { p.rlu with tx := none }
    if t.forgotten then p1 else p1.leaveQueue t.queue

/-- Whether the frame in transmission is one whose leaving frees a control entry. -/
def Part.sendingControl (p : Part) : Bool :=
  match p.rlu.tx with
  | none => false
  | some t => !t.forgotten && t.queue == .control

/-- A leaving, and the owed urgent notices that take the freed control entry at once (R148), unless the command says that a reservation or a status notice of the same moment comes first, and one can be admitted (R171): the notices then move at the end of the next command, or on an empty queue before anything else (log 17). -/
def Part.leavingWith (p : Part) (owedFirst : Bool) : Part :=
  if !owedFirst && p.sendingControl && p.leavingEvent.rlu.admitsNonUrgent then p.leavingEvent
  else p.leavingEvent.moveOwed

/-! ## Commands -/

/-- RECORDER_LINK_CHARACTER (R165). -/
def execRecorderLinkCharacter (line : BitVec 10) (s : State) : Host.Outcome State Fault Refusal :=
  live s (fun p => p.recorderChar (lineCharOf line))

/-- RECORDER_LOSS_OF_SIGNAL (R165). -/
def execRecorderLossOfSignal (s : State) : Host.Outcome State Fault Refusal := live s Part.recorderLoss

/-- RECORDER_LINK_UP (R165). -/
def execRecorderLinkUp (s : State) : Host.Outcome State Fault Refusal := live s Part.linkUpEvent

/-- ORDER_FRAME (R178). -/
def execOrderFrame (chars : List LineChar) (s : State) : Host.Outcome State Fault Refusal :=
  live s (fun p => p.recorderFrame chars)

/-- CREDIT_FRAME (R169). -/
def execCreditFrame (chars : List LineChar) (s : State) : Host.Outcome State Fault Refusal :=
  live s (fun p => p.recorderFrame chars)

/-- UNKNOWN_KIND (R168). -/
def execUnknownKind (chars : List LineChar) (s : State) : Host.Outcome State Fault Refusal :=
  live s (fun p => p.recorderFrame chars)

/-- ARBITER_START (R170). -/
def execArbiterStart (s : State) : Host.Outcome State Fault Refusal := live s Part.arbiterEvent

/-- FRAME_LEAVING (R170). -/
def execFrameLeaving (owedFirst : Bool) (s : State) : Host.Outcome State Fault Refusal :=
  unheld s (fun p => p.leavingWith owedFirst)

end Sys2Proof.Machine
end

