-- ==== Sys2Proof/Machine/Idle.lean ====
section
/-! DEFINITION. What the part does while no command waits: the first internal event that is due, or else one microsecond of its clock (log 2). -/

namespace Sys2Proof.Machine

/-- The row that takes an order by its code (section 12.3). -/
def orderRowOf (code : Nat) : Instr :=
  match code with
  | 1 => .identify
  | 2 => .set
  | 3 => .get
  | 4 => .startRun
  | 5 => .stopRun
  | 6 => .setPosition
  | 7 => .appendRoute
  | 8 => .appendSections
  | 9 => .clearLists
  | 10 => .writeLimits
  | 11 => .readLimits
  | 12 => .writeInputMap
  | 13 => .readInputMap
  | 14 => .readState
  | 15 => .readCounters
  | 16 => .readEvents
  | 17 => .setNoticeMask
  | 18 => .restoreHead
  | 19 => .headOrder
  | 20 => .restart
  | _ => .unknownOrder

/-- An event where a condition holds. -/
def eventIf (b : Bool) (i : Instr) : Option Instr := if b then some i else none

/-- Whether the frame in transmission has been sent whole, with its FRAME START and FRAME END. -/
def Part.transmissionDone (p : Part) : Bool :=
  match p.rlu.tx with
  | some t => decide (t.bytes.length + 2 ≤ t.sent)
  | none => false

/-- Whether the relay frame on the line has been sent whole. -/
def Part.relayDone (p : Part) : Bool :=
  match p.hlu.relayLine with
  | f :: _ => decide (f.bytes.length + 2 ≤ f.sent)
  | [] => false

/-- The internal events that may be due, in the order in which they are taken (log 2). -/
def Part.dueEvents (p : Part) : List (Option Instr) :=
  [eventIf p.odu.reversalDue .reversal,
   eventIf p.tickDue .tick,
   eventIf p.watchDue .watchPoint,
   eventIf (p.pfu.position == .fixed && p.fixExpired) .fixValidityExceeded,
   eventIf p.lockDue .headLinkLock,
   eventIf p.linkUpDue .recorderLinkUp,
   ((List.finRange 8).find? p.watchdogDue).map Instr.watchdogExpiry,
   ((List.finRange 8).find? p.freshnessDue).map Instr.freshnessDeadline,
   eventIf p.relayDue.isSome .relayTimeout,
   eventIf p.parkDue .parkTimerExpiry,
   eventIf p.historyDue .historyExpiry,
   eventIf p.transmissionDone (.frameLeaving true),
   eventIf p.relayDone .relayFrameSent,
   p.readyOrder.map (fun body => orderRowOf (orderCode body).toNat),
   eventIf (p.rlu.mayStart && p.rlu.nextFrame.isSome) .arbiterStart]

/-- The first internal event that is due. -/
def Part.due (p : Part) : Option Instr := p.dueEvents.findSome? (fun x => x)

/-- The frame in transmission ten characters further (section 12.4: 10 million characters a second). -/
def Transmission.onward (t : Transmission) : Transmission :=
  { t with sent := min (t.sent + 10) (t.bytes.length + 2) }

/-- The relay frame on the line four characters further (section 12.4: 4 million characters a second). -/
def relayOnward : List RelayFrame → List RelayFrame
  | [] => []
  | f :: l => { f with sent := min (f.sent + 4) (f.bytes.length + 2) } :: l

/-- Whether an owed urgent notice stands beside a free control entry: the last command was a leaving that has freed it and let others of the same moment come first (R148, R171; log 17). -/
def Part.owedWaits (p : Part) : Bool := !p.ext.owed.isEmpty && decide (1 ≤ p.rlu.freeEntries)

/-- One microsecond of the part's clock with nothing due (00_scope.md section 3.1; log 2, log 22). -/
def Part.elapse (p : Part) : Part :=
  let p1 := p.withTime (p.time + 1)
  let p2 := p1.withRlu { p1.rlu with tx := p1.rlu.tx.map Transmission.onward }
  p2.withHlu { p2.hlu with relayLine := relayOnward p2.hlu.relayLine }

end Sys2Proof.Machine
end

