-- ==== Sys2Proof/Machine/Dispatch.lean ====
section
/-! DEFINITION. One arm per command: each calls the command's meaning. -/

namespace Sys2Proof.Machine

def exec (i : Instr) (s : State) : Host.Outcome State Fault Refusal :=
  match i with
  | .hardReset cause => Sys2Proof.Machine.execHardReset cause s
  | .headLinkCharacter line => Sys2Proof.Machine.execHeadLinkCharacter line s
  | .headLinkLossOfSignal => Sys2Proof.Machine.execHeadLinkLossOfSignal s
  | .headLinkLock => Sys2Proof.Machine.execHeadLinkLock s
  | .sampleFrame chars => Sys2Proof.Machine.execSampleFrame chars s
  | .markerFrame chars => Sys2Proof.Machine.execMarkerFrame chars s
  | .statusFrame chars => Sys2Proof.Machine.execStatusFrame chars s
  | .replyFrame chars => Sys2Proof.Machine.execReplyFrame chars s
  | .watchdogExpiry head => Sys2Proof.Machine.execWatchdogExpiry head s
  | .freshnessDeadline head => Sys2Proof.Machine.execFreshnessDeadline head s
  | .relayFrameSent => Sys2Proof.Machine.execRelayFrameSent s
  | .relayTimeout => Sys2Proof.Machine.execRelayTimeout s
  | .encoderStep channel phaseA phaseB => Sys2Proof.Machine.execEncoderStep channel phaseA phaseB s
  | .tick => Sys2Proof.Machine.execTick s
  | .closeLengthReached slot => Sys2Proof.Machine.execCloseLengthReached slot s
  | .mergeGapExceeded slot => Sys2Proof.Machine.execMergeGapExceeded slot s
  | .watchPoint => Sys2Proof.Machine.execWatchPoint s
  | .reversal => Sys2Proof.Machine.execReversal s
  | .historyExpiry => Sys2Proof.Machine.execHistoryExpiry s
  | .fixValidityExceeded => Sys2Proof.Machine.execFixValidityExceeded s
  | .parkTimerExpiry => Sys2Proof.Machine.execParkTimerExpiry s
  | .recorderLinkCharacter line => Sys2Proof.Machine.execRecorderLinkCharacter line s
  | .recorderLossOfSignal => Sys2Proof.Machine.execRecorderLossOfSignal s
  | .recorderLinkUp => Sys2Proof.Machine.execRecorderLinkUp s
  | .orderFrame chars => Sys2Proof.Machine.execOrderFrame chars s
  | .creditFrame chars => Sys2Proof.Machine.execCreditFrame chars s
  | .unknownKind chars => Sys2Proof.Machine.execUnknownKind chars s
  | .arbiterStart => Sys2Proof.Machine.execArbiterStart s
  | .frameLeaving owedFirst => Sys2Proof.Machine.execFrameLeaving owedFirst s
  | .unknownOrder => Sys2Proof.Machine.execUnknownOrder s
  | .identify => Sys2Proof.Machine.execIdentify s
  | .set => Sys2Proof.Machine.execSet s
  | .setRecordSpacing => Sys2Proof.Machine.execSetRecordSpacing s
  | .setHeadShape => Sys2Proof.Machine.execSetHeadShape s
  | .setLeadEncoder => Sys2Proof.Machine.execSetLeadEncoder s
  | .setFixValidityDistance => Sys2Proof.Machine.execSetFixValidityDistance s
  | .setRouteLowWater => Sys2Proof.Machine.execSetRouteLowWater s
  | .setSectionLowWater => Sys2Proof.Machine.execSetSectionLowWater s
  | .get => Sys2Proof.Machine.execGet s
  | .startRun => Sys2Proof.Machine.execStartRun s
  | .stopRun => Sys2Proof.Machine.execStopRun s
  | .setPosition => Sys2Proof.Machine.execSetPosition s
  | .appendRoute => Sys2Proof.Machine.execAppendRoute s
  | .appendSections => Sys2Proof.Machine.execAppendSections s
  | .clearLists => Sys2Proof.Machine.execClearLists s
  | .writeLimits => Sys2Proof.Machine.execWriteLimits s
  | .readLimits => Sys2Proof.Machine.execReadLimits s
  | .writeInputMap => Sys2Proof.Machine.execWriteInputMap s
  | .readInputMap => Sys2Proof.Machine.execReadInputMap s
  | .readState => Sys2Proof.Machine.execReadState s
  | .readCounters => Sys2Proof.Machine.execReadCounters s
  | .readEvents => Sys2Proof.Machine.execReadEvents s
  | .setNoticeMask => Sys2Proof.Machine.execSetNoticeMask s
  | .restoreHead => Sys2Proof.Machine.execRestoreHead s
  | .headOrder => Sys2Proof.Machine.execHeadOrder s
  | .restart => Sys2Proof.Machine.execRestart s
  | .resetNRisingEdge => Sys2Proof.Machine.execResetNRisingEdge s

end Sys2Proof.Machine
end

