-- ==== Sys2Proof/Machine/Step.lean ====
section
/-! DEFINITION. One step: the command at the front of the queue, or, on an empty queue, the first internal event that is due or one microsecond (log 2). -/

namespace Sys2Proof.Machine

/-- A step with no command waiting: nothing while the part is held in hard reset, else owed urgent notices into free control entries (R148, log 17), else the first event that is due, else 1 µs passes (R198; log 2). -/
def idle (s : State) : Host.Outcome State Fault Refusal :=
  if s.part.resetHeld then .next s
  else if s.part.owedWaits then .next { s with part := s.part.moveOwed }
  else
    match s.part.due with
    | some i => exec i s
    | none => .next { s with part := s.part.elapse }

/-- One step. -/
def step (s : State) : Host.Outcome State Fault Refusal :=
  match s.pending with
  | c :: rest => exec c { s with pending := rest }
  | [] => idle s

/-- The state with the command that a word spells at the front of its queue; the table gives no row any bits, so no word spells one (log 33). -/
def State.withFetchWord (s : State) (nbits w : Nat) : State :=
  match decodeTableWord nbits w with
  | some i => { s with pending := i :: s.pending }
  | none => s

end Sys2Proof.Machine
end

