-- ==== Sys2Proof/WellFormed.lean ====
section
/-! DEFINITION. Which commands can be events of the hardware by their form alone: a frame row carries one frame of its own kind. -/

namespace Sys2Proof

/-- Characters that are part of a frame and do not end it: data characters, and IDLE characters, which are passed over (R1, R168). -/
def LineChar.inside : LineChar → Bool
  | .data _ => true
  | .idle => true
  | _ => false

/-- The bytes carried by the data characters of a list. -/
def dataBytes (chars : List LineChar) : List Byte :=
  chars.filterMap (fun c => match c with | .data b => some b | _ => none)

/-- The characters after one FRAME START up to the one at which the frame ends, in the usual way or by an error: none but the last may end a frame, and a FRAME START, which opens the next frame, is not among them (R4, R5, R168). -/
def oneFrame (chars : List LineChar) : Bool :=
  chars.dropLast.all LineChar.inside && chars.getLast? != some .frameStart

/-- The kind that a head frame's characters show, where they show one: four header bytes that check 2 accepts (R6). -/
def headFrameKind? (chars : List LineChar) : Option HeadKind :=
  if (dataBytes chars).length < 4 then none
  else (decodeHeader (headerWord (dataBytes chars))).map (fun x => x.1.kind)

/-- A frame of kind `k`, or one whose kind an error has hidden. -/
def headFrameOf (k : HeadKind) (chars : List LineChar) : Bool :=
  oneFrame chars && (headFrameKind? chars == none || headFrameKind? chars == some k)

/-- The kind byte of an inbound recorder frame (R168), where it has arrived. -/
def recorderKind? (chars : List LineChar) : Option Nat :=
  (dataBytes chars).head?.map BitVec.toNat

/-- Well-formed commands. -/
def WellFormed : Instr → Bool
  | .sampleFrame chars => headFrameOf .sample chars
  | .markerFrame chars => headFrameOf .marker chars
  | .statusFrame chars => headFrameOf .status chars
  | .replyFrame chars => headFrameOf .reply chars
  | .orderFrame chars => oneFrame chars && (recorderKind? chars == none || recorderKind? chars == some 16)
  | .creditFrame chars => oneFrame chars && (recorderKind? chars == none || recorderKind? chars == some 17)
  | .unknownKind chars =>
      oneFrame chars && recorderKind? chars != some 16 && recorderKind? chars != some 17
  | .hardReset _ => true
  | .headLinkCharacter _ => true
  | .headLinkLossOfSignal => true
  | .headLinkLock => true
  | .watchdogExpiry _ => true
  | .freshnessDeadline _ => true
  | .relayFrameSent => true
  | .relayTimeout => true
  | .encoderStep _ _ _ => true
  | .tick => true
  | .closeLengthReached _ => true
  | .mergeGapExceeded _ => true
  | .watchPoint => true
  | .reversal => true
  | .historyExpiry => true
  | .fixValidityExceeded => true
  | .parkTimerExpiry => true
  | .recorderLinkCharacter _ => true
  | .recorderLossOfSignal => true
  | .recorderLinkUp => true
  | .arbiterStart => true
  | .frameLeaving _ => true
  | .unknownOrder => true
  | .identify => true
  | .set => true
  | .setRecordSpacing => true
  | .setHeadShape => true
  | .setLeadEncoder => true
  | .setFixValidityDistance => true
  | .setRouteLowWater => true
  | .setSectionLowWater => true
  | .get => true
  | .startRun => true
  | .stopRun => true
  | .setPosition => true
  | .appendRoute => true
  | .appendSections => true
  | .clearLists => true
  | .writeLimits => true
  | .readLimits => true
  | .writeInputMap => true
  | .readInputMap => true
  | .readState => true
  | .readCounters => true
  | .readEvents => true
  | .setNoticeMask => true
  | .restoreHead => true
  | .headOrder => true
  | .restart => true
  | .resetNRisingEdge => true

end Sys2Proof
end

