-- ==== Sys2Proof/Safety.lean ====
section
/-! DEFINITION. What it means for a state of the part to be legal: the invariants of the manual that every step keeps, block by block; and the vocabulary in which the statements speak of commands, frames and orders. -/

namespace Sys2Proof.Machine

/-! ## Queues (R169, R171 to R174, R178, R187) -/

/-- Reservations and the relay: a reservation stands between two commands only for an outstanding head order (R179, R187). -/
def Part.ReservationsMatch (p : Part) : Prop :=
  p.rlu.reservations = (if p.oru.headReservation.isSome then 1 else 0) ∧
  p.hlu.relay.isSome = p.oru.headReservation.isSome

/-- The bounds of the credit count, the four queues and the order buffer (R169, R171 to R174, R178). -/
def Part.QueuesBounded (p : Part) : Prop :=
  p.ReservationsMatch ∧
  p.rlu.control.length + p.rlu.reservations ≤ 16 ∧
  p.rlu.nonUrgent + p.rlu.reservations ≤ 12 ∧
  p.rlu.xr.length ≤ 32 ∧ p.rlu.gr.length ≤ 64 ∧ p.rlu.mirror.length ≤ 8 ∧
  p.rlu.credits ≤ 255 ∧ p.oru.buffer.length ≤ 4

/-- The recorder link outside UP: no error count, no credit, no frame in transmission, no frame being received (R165 to R167). -/
def Part.LinkDownIdle (p : Part) : Prop :=
  p.rlu.link ≠ .up →
    p.rlu.linkErrors = 0 ∧ p.rlu.credits = 0 ∧ p.rlu.tx = none ∧ p.rlu.rx = none

/-! ## Head link (R2, R3, R10, R12) -/

/-- The ranges of a head record, and EXCLUDED exactly at score 255 (R10, R12). -/
def HeadRecord.Legal (r : HeadRecord) : Prop :=
  r.score ≤ 255 ∧ r.goodRun ≤ 1023 ∧ (r.state = .excluded ↔ r.score = 255)

/-- Every head record legal; an UNLOCKED link holds its error count at 0 and receives no frame (R2, R3). -/
def Part.HeadsLegal (p : Part) : Prop :=
  (∀ h : Head, (p.hlu.heads[h]).Legal) ∧
  (p.hlu.locked = false → p.hlu.linkErrors = 0 ∧ p.hlu.rx = .outside)

/-! ## Odometry and position (R43 to R45, R53, R59, R64, R68) -/

/-- The residue lies in 0-999 and the route distance in 32 bits, and both are 0 while the position state is UNSET (R43, R44). -/
def Part.RoutePlaced (p : Part) : Prop :=
  0 ≤ p.odu.residue ∧ p.odu.residue ≤ 999 ∧
  -2147483648 ≤ p.pfu.routeDistance ∧ p.pfu.routeDistance ≤ 2147483647 ∧
  (p.pfu.position = .unset → p.pfu.routeDistance = 0 ∧ p.odu.residue = 0) ∧
  (∀ e ∈ p.pfu.routeList, -2147483648 ≤ e.distance ∧ e.distance ≤ 2147483647)

/-- A never lies beyond H, and H lies in the 64-bit range from the origin on (R45). -/
def Part.OdometerPlaced (p : Part) : Prop :=
  p.odu.ahead ≤ p.odu.high ∧ 0 ≤ p.odu.high ∧ p.odu.high ≤ 9223372036854775807

/-- A channel that has counted a step in the window is not faulted, and the two channels are never faulted at once (R53). -/
def Part.OneFaultAtMost (p : Part) : Prop :=
  (p.odu.e1.stepped → p.odu.e1.faulted = false) ∧
  (p.odu.e2.stepped → p.odu.e2.faulted = false) ∧
  ¬ (p.odu.e1.faulted = true ∧ p.odu.e2.faulted = true)

/-- FIXED only while the distance since last fix is at most the fix validity distance (R68). -/
def Part.FixValid (p : Part) : Prop :=
  p.pfu.position = .fixed →
    ∃ x, p.pfu.sinceFix = some x ∧ x ≤ p.oru.settings.fixValidity * 1000000

/-- The route list holds at most 128 entries, each strictly beyond every earlier one in the travel direction (R59). -/
def Part.RouteOrdered (p : Part) : Prop :=
  p.pfu.routeList.length ≤ 128 ∧
  p.pfu.routeList.Pairwise (fun a b => beyond p.odu.direction b.distance a.distance = true)

/-- The section list holds at most 64 sections, each with its end beyond its start, each starting at or beyond the end of every earlier one (R106). -/
def Part.SectionsOrdered (p : Part) : Prop :=
  p.lmu.sections.length ≤ 64 ∧
  (∀ x ∈ p.lmu.sections, beyond p.odu.direction x.finish x.start = true) ∧
  p.lmu.sections.Pairwise (fun a b => beyond p.odu.direction a.finish b.start = false)

/-- Each low-water mark is armed exactly while its list holds more entries than its setting (R64, R112). -/
def Part.MarksArmed (p : Part) : Prop :=
  p.pfu.lowArmed = decide (p.oru.settings.routeLowWater < p.pfu.routeList.length) ∧
  p.lmu.lowArmed = decide (p.oru.settings.sectionLowWater < p.lmu.sections.length)

/-! ## Limits and settings (R116, R182) -/

/-- The limit table holds valid rows alone (R116). -/
def Part.RowsValid (p : Part) : Prop := ∀ i : Fin 64, (p.lmu.limits[i]).valid = true

/-- Every setting lies in its range (section 10.4, R182). -/
def Part.SettingsInRange (p : Part) : Prop :=
  ∀ n a, settingNamed n a = true → settingInRange n (p.oru.settings.value n a) = true

/-! ## Runs and exceedances (R125, R138, R142, R143, R147, R151) -/

/-- Whether a slot is active. -/
def Slot.isActive (x : Slot) : Bool := x.hold.active?.isSome

/-- In HALTED and ARMED the trace window is empty, no slot is active and no latch is set (R138, R151, R153). -/
def Part.QuietOutsideRun (p : Part) : Prop :=
  p.rnc.runState = .halted ∨ p.rnc.runState = .armed →
    p.tru.window = [] ∧ p.tru.nextEmit = none ∧ p.tru.segStart = none ∧
    (∀ n : SlotNo, (p.ext.slots[n]).isActive = false) ∧ (∀ k : Pair, (p.ext.latches[k]).isSet = false)

/-- For every pair at most one slot is active, and none while the pair's latch is set (R125). -/
def Part.OneSlotPerPair (p : Part) : Prop :=
  ∀ k : Pair,
    (∀ m n : SlotNo, (p.ext.slots[m]).hold.activeFor k = true → (p.ext.slots[n]).hold.activeFor k = true → m = n) ∧
    ((p.ext.latches[k]).isSet = true → ∀ n : SlotNo, (p.ext.slots[n]).hold.activeFor k = false)

/-- Whether a slot is PENDING. -/
def Slot.isPending (x : Slot) : Bool :=
  match x.hold with
  | .pending _ _ => true
  | _ => false

/-- The pending list holds exactly the PENDING slots, each once, and the XR queue is full while it is not empty (R142, R143). -/
def Part.PendingListed (p : Part) : Prop :=
  p.ext.pendingList.Nodup ∧
  (∀ n : SlotNo, n ∈ p.ext.pendingList ↔ (p.ext.slots[n]).isPending = true) ∧
  (p.ext.pendingList ≠ [] → 32 ≤ p.rlu.xr.length)

/-- The urgent owed mark of an owner. -/
def Part.owes (p : Part) : Owner → Bool
  | .slot n => (p.ext.slots[n]).urgentOwed
  | .latch k => (p.ext.latches[k]).urgentOwed

/-- Each owner has at most one notice in the urgent owed list, and its urgent owed mark tells whether it has one (R147). -/
def Part.OwedMarked (p : Part) : Prop :=
  (p.ext.owed.map Owed.owner).Nodup ∧ ∀ o : Owner, o ∈ p.ext.owed.map Owed.owner ↔ p.owes o = true

/-! ## The trace window (R83, R87, R88) -/

/-- The window's entries carry consecutive sequences up to the one before the next record sequence (R83). -/
def Tru.Consecutive (t : Tru) : Prop :=
  ∀ i : Nat, ∀ e : TraceEntry, t.window[i]? = some e →
    e.seq = t.nextSeq - BitVec.ofNat 32 (t.window.length - i)

/-- The entries of the window not yet emitted, at most L, and those kept behind them, at most B + 1 (R87, R88, R104). -/
def Part.WindowBounded (p : Part) : Prop :=
  p.tru.Consecutive ∧
  (p.tru.window = [] → p.tru.nextEmit = none) ∧
  (p.tru.window ≠ [] →
    ∃ j, j ≤ p.oru.settings.lag ∧ j ≤ p.tru.window.length ∧
      p.tru.window.length ≤ p.oru.settings.depth + 1 + j ∧
      p.tru.nextEmit = some (p.tru.nextSeq - BitVec.ofNat 32 j))

/-! ## Counters (R194) -/

/-- Every counter lies in 32 bits (R194). -/
def Part.CountersBounded (p : Part) : Prop := ∀ i : Fin 109, p.evu.counters[i] ≤ 4294967295

/-! ## The vocabulary of the statements -/

/-- A property of the part that every step keeps. -/
def StepKeeps (Inv : Part → Prop) : Prop :=
  ∀ s t : State, Inv s.part → step s = .next t → Inv t.part

/-- Owed urgent notices moved into the free control entries, oldest first, until none is owed or no entry is free (R148): each is counted as sent, its owner's urgent owed mark is cleared, and URGENT_SENT is set in the exceedance that an owning slot still holds. With nothing owed or no entry free, nothing. -/
def Part.owedMoved (p : Part) : Part :=
  let free := 16 - (p.rlu.control.length + p.rlu.reservations)
  let moved := p.ext.owed.take free
  if moved = [] then p
  else
    Part.bumpBy { p with
      rlu := { p.rlu with control := p.rlu.control ++ moved.map (fun x => .urgent x.notice) }
      ext := { p.ext with
        owed := p.ext.owed.drop free
        slots := Vector.ofFn (fun n =>
          if ∃ x ∈ moved, x.owner = .slot n then ⟨(p.ext.slots[n]).hold.markUrgentSent, false⟩ else p.ext.slots[n])
        latches := Vector.ofFn (fun k =>
          if ∃ x ∈ moved, x.owner = .latch k then { p.ext.latches[k] with urgentOwed := false } else p.ext.latches[k]) } }
      .urgentSent moved.length

/-- The answer that goes on with another part and the same waiting commands. -/
def nextAs (s : State) (q : Part) : Host.Outcome State Fault Refusal := .next { s with part := q }

/-- The answer that goes on with another part, in which owed urgent notices have moved into the control entries that are free (R148), and the same waiting commands. A notice stands beside a free entry only after a leaving that has let another take the entry first (log 17); elsewhere this is `nextAs`. -/
def nextWith (s : State) (q : Part) : Host.Outcome State Fault Refusal := nextAs s q.owedMoved

/-- The characters after a FRAME START that carry some bytes and end with FRAME END; IDLE characters may stand among them (R1, R168). -/
def Carries (chars : List LineChar) (bytes : List Byte) : Prop :=
  ∃ inner : List LineChar,
    chars = inner ++ [.frameEnd] ∧ inner.all LineChar.inside = true ∧ dataBytes inner = bytes

/-- How many IDLE characters stand among the characters of a frame. -/
def idlesIn (chars : List LineChar) : Nat := chars.countP (fun c => c == .idle)

/-- The part after `k` IDLE characters received in UP (R166). -/
def Part.afterIdles (p : Part) (k : Nat) : Part := Part.tallyIdle^[k] p

/-- The recorder link gone DOWN (R167): every count of the link and the credits at 0, no frame being received or sent, a frame in transmission cut with a count, the queues kept. -/
def Part.linkDowned (p : Part) : Part :=
  let cut : Part := if p.rlu.tx = none then p else p.bump .framesCut
  Part.bump { cut with rlu := { p.rlu with
    link := .down, linkErrors := 0, idleRun := 0, idleTally := 0, rx := none, credits := 0, tx := none } } .linkDowns

/-- A link error of the recorder link in UP (R166): the count up by 1, held at 63, with the receiver left as `rx`, below the threshold; at the threshold the link goes DOWN. -/
def Part.linkErred (p : Part) (rx : Option (List Byte)) : Part :=
  let n := min (p.rlu.linkErrors + 1) 63
  if n < p.oru.settings.recorderErrorThreshold then { p with rlu := { p.rlu with linkErrors := n, rx := rx } }
  else p.linkDowned

/-- The characters carry a head frame that passes checks 1 and 2, on a LOCKED link outside any frame, with RESET_N high; `corrected` says whether a header bit was corrected (R4 to R6). -/
def Part.TakesHeadFrame (p : Part) (chars : List LineChar) (bytes : List Byte) (hd : Header) (corrected : Bool) : Prop :=
  p.resetHeld = false ∧ p.hlu.locked = true ∧ (∀ b x, p.hlu.rx ≠ .inFrame b x) ∧ Carries chars bytes ∧
    decodeHeader (headerWord bytes) = some (hd, corrected) ∧ bytes.length = hd.impliedLength

/-- The characters carry a valid frame of head `h`: one that passes checks 1 to 5 (R4 to R10). -/
def Part.TakesValidFrame (p : Part) (chars : List LineChar) (bytes : List Byte) (hd : Header) (corrected : Bool)
    (h : Head) : Prop :=
  p.TakesHeadFrame chars bytes hd corrected ∧ hd.head? = some h ∧ payloadCrcOk bytes = true ∧
    (hd.kind = .sample → p.oru.settings.shapes[h] = ⟨hd.channels, hd.samples⟩)

/-- The counters are as they were, but for the named ones. -/
def Part.CountersKeptBut (p q : Part) (cs : List Counter) : Prop :=
  ∀ i : Fin 109, (∀ c ∈ cs, c.index ≠ i) → q.evu.counters[i] = p.evu.counters[i]

/-- The named events have been raised and no other but NOTICE_LOST, which a lost notice raises; the notice mask stands (R190, R191). -/
def Part.Raised (p q : Part) (es : List Event) : Prop :=
  q.evu.mask = p.evu.mask ∧
    ∀ e : Event, e ≠ .noticeLost → (q.flagSet e = true ↔ p.flagSet e = true ∨ e ∈ es)

/-- Nothing but status notices has joined the control queue (R191). -/
def Part.NoticesJoined (p q : Part) : Prop :=
  ∃ l : List ControlFrame, q.rlu.control = p.rlu.control ++ l ∧
    ∀ f ∈ l, ∃ cause flags seq route, f = .status cause flags seq route

/-- What every valid frame leaves on the link, in the other head records and in the sender's counters, with the sender's record as given (R10). -/
def Part.ValidFrameTaken (p q : Part) (h : Head) (hd : Header) (corrected : Bool) (r : HeadRecord) : Prop :=
  q.hlu.locked = true ∧ q.hlu.linkErrors = p.hlu.linkErrors - 1 ∧ q.hlu.idleRun = p.hlu.idleRun ∧
  q.hlu.rx = .outside ∧ q.hlu.relayTag = p.hlu.relayTag ∧
  q.hlu.heads[h] = r ∧ (∀ g : Head, g ≠ h → q.hlu.heads[g] = p.hlu.heads[g]) ∧
  q.counter (.validFrames h) = counterUp 1 (p.counter (.validFrames h)) ∧
  q.counter (.lostFrames h) =
    counterUp (sequenceGap (p.hlu.heads[h]).lastSequence hd.sequence) (p.counter (.lostFrames h)) ∧
  q.counter .correctedHeaders = (if corrected then counterUp 1 (p.counter .correctedHeaders) else p.counter .correctedHeaders)

/-- The bytes of one source of a WRITE INPUT MAP: a present mark, and six field bytes behind it where the mark is not 0 (R36, R197). -/
def MarkedSource (x : List Byte) : Prop :=
  ∃ (mark : Byte) (fields : List Byte), x = mark :: fields ∧ fields.length = if mark = 0 then 0 else 6

/-- An order with a code and a right length stands at the head of the buffer, and a reservation can be made for it (R171, R179, R180). -/
def Part.Ready (p : Part) (code : Nat) (body : List Byte) : Prop :=
  p.resetHeld = false ∧ p.oru.buffer.head? = some body ∧ (orderCode body).toNat = code ∧ lengthOk body = true ∧
    p.rlu.nonUrgent + p.rlu.reservations ≤ 11 ∧ p.rlu.control.length + p.rlu.reservations < 16

/-- The reply frame of an order: its code, its tag, the result and the data (R181). -/
def orderReply (body : List Byte) (r : Result) (data : List Byte) : ControlFrame :=
  .reply (orderCode body) (orderTag body) r data

/-- The part after an order that touches no other block has been taken and answered: its body has left the buffer, its reply stands at the tail of the control queue, and the orders taken counter has risen (R179, R181). -/
def Part.afterOrder (p : Part) (body : List Byte) (r : Result) (data : List Byte) : Part :=
  { p with
    rlu := { p.rlu with control := p.rlu.control ++ [orderReply body r data] }
    oru := { p.oru with buffer := p.oru.buffer.drop 1 }
    evu := { p.evu with counters := vmodify p.evu.counters Counter.ordersTaken.index (counterUp 1) } }

/-- The order has been taken, whatever it has done to the other blocks: its body has left the buffer, the reservations stand as before, and its reply is the last frame of the control queue (R179, R181). -/
def Part.OrderAnswered (p q : Part) (body : List Byte) (r : Result) (data : List Byte) : Prop :=
  q.oru.buffer = p.oru.buffer.drop 1 ∧ q.rlu.reservations = p.rlu.reservations ∧
    q.rlu.control.getLast? = some (orderReply body r data)

/-- The taking of the order at the head of the buffer: its reservation, its body gone from the buffer, the orders taken counter (R179). -/
def Part.orderTaken (p : Part) : Part :=
  Part.bump { p with
    rlu := { p.rlu with reservations := p.rlu.reservations + 1 }
    oru := { p.oru with buffer := p.oru.buffer.drop 1 } } .ordersTaken

/-- The reply of a taken order fills its reservation (R181). -/
def Part.replied (p : Part) (body : List Byte) (r : Result) (data : List Byte) : Part :=
  { p with rlu := { p.rlu with
      control := p.rlu.control ++ [orderReply body r data]
      reservations := p.rlu.reservations - 1 } }

/-! ## Bytes in plain values (R197) -/

/-- The number with bit `i` as the `i`-th of a list of marks. -/
def bitsOf (l : List Bool) : Nat := ∑ i : Fin l.length, (l[i]).toNat * 2 ^ i.val

/-- An item of a READ STATE reply that may be absent: 1 and its bytes, or `width` + 1 zeros (R197). -/
def itemOf (width : Nat) (x : Option (List Byte)) : List Byte :=
  match x with
  | some l => 1 :: l
  | none => List.replicate (width + 1) 0

/-- What READ STATE gives of each selection, item by item in the order of its rule, with the codes of section 12.3 and the widths of R197; which items share a presence byte and what has a free code is log 18, that L and B are those of the present settings log 45. -/
def Part.stateBytes (p : Part) (selection : Nat) : Option (List Byte) :=
  let n1 : Nat → List Byte := bytesOfNat 1
  let mark : Bool → List Byte := fun b => n1 b.toNat
  let time : Option (BitVec 32) → List Byte := fun x => itemOf 4 (x.map (fun t => bytesOfNat 4 t.toNat))
  let exceedance : Exceedance → List Byte := fun ex =>
    bytesOfNat 4 ex.serial ++ n1 (ex.param.val * 2 + ex.polarity.code) ++ n1 ex.grade ++ bytesOfNat 4 ex.startSeq.toNat
  match selection with
  | 1 => some (mark p.hlu.locked ++ n1 p.hlu.linkErrors ++ n1 p.hlu.idleRun ++ bytesOfNat 4 p.hlu.relayTag.toNat ++
      itemOf 7 (p.hlu.relay.map (fun x => n1 (x.head.val + 1) ++ [x.tag] ++ time x.deadline)) ++
      (List.finRange 8).flatMap (fun h =>
        let r := p.hlu.heads[h]
        n1 r.state.code ++ n1 r.score ++ bytesOfNat 2 r.goodRun ++ time r.lastArrival ++
          itemOf 4 (r.lastSequence.map (fun b => bytesOfNat 4 b.toNat)) ++ time r.watchdog ++
          [r.status, r.riseMask, r.fallMask] ++ mark r.held.isSome ++
          mark (r.held.isSome && (p.shu.freshness[h]).isSome)))
  | 2 => some (n1 p.odu.direction.code ++ [Config.senseCode p.odu.sense] ++ n1 p.odu.active.code ++
      [p.odu.e1, p.odu.e2].flatMap (fun x => mark x.faulted ++ n1 x.zeroSteps) ++
      bytesOfInt 8 p.odu.ahead ++ bytesOfInt 8 p.odu.high ++ bytesOfInt 8 p.odu.nextTick ++ n1 p.odu.history.length ++
      itemOf 6 (p.odu.lastSpeed.map (fun v => bytesOfNat 2 v.speed ++ bytesOfNat 4 v.time.toNat)))
  | 3 => some (bytesOfInt 4 p.pfu.routeDistance ++ n1 p.pfu.position.code ++
      itemOf 8 (p.pfu.sinceFix.map (bytesOfNat 8)) ++ n1 p.pfu.missCount ++
      itemOf 6 (p.pfu.lastPost.map (fun x => bytesOfInt 4 x.distance ++ bytesOfNat 2 x.kilometre)) ++
      itemOf 6 (p.label.map (fun x => bytesOfNat 2 x.kilometre ++ bytesOfInt 4 x.offset)) ++
      n1 p.pfu.routeList.length ++
      itemOf 13 (p.pfu.routeList.head?.map (fun e =>
        match e.kind with
        | .marker c m => n1 0 ++ bytesOfInt 4 e.distance ++ bytesOfNat 4 c.toNat ++ bytesOfNat 4 m.toNat
        | .kpost km => n1 1 ++ bytesOfInt 4 e.distance ++ bytesOfNat 4 km ++ bytesOfNat 4 0)) ++
      itemOf 4 (p.pfu.pendingCorrection.map (bytesOfInt 4)))
  | 4 =>
      let lag := max p.oru.settings.chordLevel p.oru.settings.chordAlign / 2
      some (bytesOfNat 2 p.tru.window.length ++ time p.tru.segStart ++ time p.tru.nextEmit ++
        time (p.tru.window.getLast?.map (fun e => e.seq)) ++ bytesOfNat 4 p.tru.nextSeq.toNat ++
        n1 lag ++ n1 (max (max p.oru.settings.twistShort p.oru.settings.twistLong) lag))
  | 5 => some (n1 p.lmu.sections.length ++ mark p.lmu.lowArmed ++
      itemOf 15 (p.lmu.sections.head?.map (fun x =>
        bytesOfInt 4 x.start ++ bytesOfInt 4 x.finish ++ n1 x.cls.val ++ [x.suppressed] ++
          itemOf 2 (x.cant.map (bytesOfInt 2)) ++ bytesOfNat 2 x.label.toNat)) ++ mark p.currentSection.isSome)
  | 6 => some (p.ext.slots.toList.flatMap (fun x => n1 x.hold.code ++ mark x.urgentOwed ++
        itemOf 10 (match x.hold with
          | .free => none
          | .active _ ex => some (exceedance ex)
          | .pending ex _ => some (exceedance ex))) ++
      p.ext.latches.toList.flatMap (fun x => mark x.isSet ++ mark x.urgentRaised ++ mark x.urgentOwed) ++
      p.ext.pendingList.flatMap (fun n => n1 n.val) ++ n1 p.ext.owed.length ++ bytesOfNat 4 p.ext.nextSerial)
  | 7 => some (n1 p.rnc.runState.code ++ bytesOfNat 2 p.rnc.runNumber.toNat ++ time p.rnc.parkDeadline)
  | 8 => some (n1 p.rlu.link.code ++ n1 p.rlu.linkErrors ++ n1 p.rlu.credits ++
      n1 (p.rlu.control.length - p.rlu.nonUrgent) ++ n1 p.rlu.nonUrgent ++ n1 p.rlu.reservations ++
      n1 p.rlu.xr.length ++ n1 p.rlu.gr.length ++ n1 p.rlu.mirror.length ++
      itemOf 1 (p.rlu.tx.map (fun t => [Config.queueCode t.queue])) ++ bytesOfNat 4 p.rlu.grDropped)
  | 9 => some (n1 p.oru.buffer.length ++ itemOf 2 (p.oru.headReservation.map (fun r => [r.code, r.tag])) ++
      bytesOfNat 4 p.evu.mask.toNat)
  | _ => none

/-- The body of a Geometry Record by the table of R197. -/
def GeometryRecord.spelled (g : GeometryRecord) : List Byte :=
  bytesOfNat 2 g.runNumber.toNat ++ bytesOfNat 4 g.seq.toNat ++ bytesOfNat 4 g.droppedBefore ++
  bytesOfNat 4 g.time.toNat ++ bytesOfInt 4 g.route ++
  bytesOfNat 1 (bitsOf [g.label.isSome, g.speed.isSome, g.correction.isSome, g.sectionLabel.isSome]) ++
  bytesOfNat 1 g.position.code ++
  (match g.label with | some x => bytesOfNat 2 x.kilometre ++ bytesOfInt 4 x.offset | none => [0, 0, 0, 0, 0, 0]) ++
  bytesOfNat 2 (g.speed.getD 0) ++ bytesOfInt 4 (g.correction.getD 0) ++
  bytesOfNat 2 ((g.sectionLabel.map BitVec.toNat).getD 0) ++ bytesOfNat 1 g.cls.val ++
  bytesOfNat 1 (∑ q : Fin 8, (g.values[q]).isSome.toNat * 2 ^ q.val) ++
  bytesOfNat 2 (∑ q : Fin 8, g.grades[q] * 4 ^ (7 - q.val)) ++
  bytesOfNat 2 (bitsOf [g.flags.slip, g.flags.speedSaturated, g.flags.belowMinSpeed, g.flags.noSection,
    g.flags.standbyUsed, g.flags.suspectSource, g.incompleteChord, g.suppressed, g.sourceSwitch, g.untracked]) ++
  (List.finRange 8).flatMap (fun q => match g.values[q] with | some v => bytesOfInt 2 v | none => [])

/-- The body of an Exceedance Report by the table of R197. -/
def Report.spelled (x : Report) : List Byte :=
  bytesOfNat 2 x.runNumber.toNat ++ bytesOfNat 4 x.serial ++
  bytesOfNat 1 x.param.val ++ bytesOfNat 1 x.polarity.code ++ bytesOfNat 1 x.grade ++
  bytesOfNat 1 (bitsOf [x.peak.label.isSome, x.startLabel.isSome, x.correction.isSome]) ++
  bytesOfNat 4 x.startSeq.toNat ++ bytesOfInt 4 x.startRoute ++
  bytesOfNat 4 x.endSeq.toNat ++ bytesOfInt 4 x.endRoute ++ bytesOfNat 4 x.length ++
  bytesOfInt 2 x.peak.value ++ bytesOfNat 4 x.peak.seq.toNat ++ bytesOfInt 4 x.peak.route ++
  (match x.peak.label with | some y => bytesOfNat 2 y.kilometre ++ bytesOfInt 4 y.offset | none => [0, 0, 0, 0, 0, 0]) ++
  bytesOfNat 2 ((x.startLabel.map BitVec.toNat).getD 0) ++
  bytesOfNat 1 x.peak.cls.val ++ bytesOfNat 1 x.peak.position.code ++
  bytesOfNat 2 x.merges ++ bytesOfInt 4 (x.correction.getD 0) ++
  bytesOfNat 2 (bitsOf [x.flags.cutInput, x.flags.cutSuppress, x.flags.cutReversal, x.flags.cutStop, x.flags.cutJump,
    x.flags.classChanged, x.flags.sourceMixed, x.flags.suspectSource, x.flags.positionDoubtful, x.flags.urgentSent,
    x.positionCorrected])

/-- The body of a control frame by R197: the UN's fields in order, the SN's, the RP's. -/
def ControlFrame.spelled : ControlFrame → List Byte
  | .urgent u =>
    bytesOfNat 1 u.param.val ++ bytesOfNat 1 u.polarity.code ++ bytesOfInt 2 u.value ++ bytesOfNat 1 u.grade ++
    bytesOfNat 1 (bitsOf [u.label.isSome, u.serial.isSome]) ++ bytesOfNat 4 u.seq.toNat ++ bytesOfInt 4 u.route ++
    (match u.label with | some y => bytesOfNat 2 y.kilometre ++ bytesOfInt 4 y.offset | none => [0, 0, 0, 0, 0, 0]) ++
    bytesOfNat 4 (u.serial.getD 0) ++ bytesOfNat 1 u.position.code
  | .status cause flags seq route =>
    bytesOfNat 1 cause ++ bytesOfNat 4 flags.toNat ++ bytesOfNat 4 seq.toNat ++ bytesOfInt 4 route
  | .reply code tag result data => [code, tag] ++ bytesOfNat 1 result.code ++ data

/-! ## The advances of the look-ahead lists, in plain values (R62 to R64, R76, R80, R109, R112, R113) -/

/-- What an advance makes of the route list: the entries that stay, the posts removed in list order, the number of MARKERs removed, the consecutive miss count and the position state after it, and whether a miss has found the position lost. -/
structure RouteScan where
  kept : List RouteEntry
  posts : List Post
  gone : Nat
  miss : Nat
  state : PositionState
  lost : Bool
deriving DecidableEq, Repr

/-- The advance at route distance `d`, from the head on, for a match window and a lost threshold. An entry whose distance is not passed ends it; a passed KPOST goes; a passed MARKER stays while its window end, four times as far in LOST, is not passed, and then goes as skipped (the set advance, R80) or as missed, which moves the miss count and the state (R62, R76). -/
def routeScan (dir : Direction) (d : Int) (window threshold : Nat) (skip : Bool) :
    List RouteEntry → PositionState → Nat → RouteScan
  | [], state, miss => ⟨[], [], 0, miss, state, false⟩
  | e :: es, state, miss =>
    if beyond dir d e.distance = false then ⟨e :: es, [], 0, miss, state, false⟩
    else
      match e.kind with
      | .kpost km =>
        let x := routeScan dir d window threshold skip es state miss
        { x with posts := ⟨e.distance, km⟩ :: x.posts }
      | .marker _ _ =>
        let w : Int := if state = .lost then 4 * window else window
        if beyond dir d (e.distance + dir.sign * w) = false then
          let x := routeScan dir d window threshold skip es state miss
          { x with kept := e :: x.kept }
        else if skip then
          let x := routeScan dir d window threshold skip es state miss
          { x with gone := x.gone + 1 }
        else
          let n := min (miss + 1) 7
          let after : PositionState :=
            if threshold ≤ n then .lost
            else
              match state with
              | .deadReckoned => .uncertain
              | .fixed => .uncertain
              | y => y
          let x := routeScan dir d window threshold skip es after n
          { x with gone := x.gone + 1, lost := x.lost || (decide (threshold ≤ n) && state != .lost) }

/-- Whether a removal that takes a list from one length to another reaches its armed low-water mark (R64, R112). -/
def lowReached (armed : Bool) (before after setting : Nat) : Bool :=
  armed && decide (after < before) && decide (after ≤ setting)

/-- The compare-and-advance of the route list, or the set advance (R62 to R64, R76, R80): the list, the state, the miss count and the last passed post; the missed or skipped markers counted; MARKER_MISSED, POSITION_LOST and ROUTE_LOW raised where they apply. -/
def Part.routeAdvanced (p : Part) (skip : Bool) : Part :=
  let x := routeScan p.odu.direction p.pfu.routeDistance p.oru.settings.matchWindow p.oru.settings.lostThreshold skip
    p.pfu.routeList p.pfu.position p.pfu.missCount
  let low := lowReached p.pfu.lowArmed p.pfu.routeList.length x.kept.length p.oru.settings.routeLowWater
  let p1 : Part := { p with pfu := { p.pfu with
    routeList := x.kept
    position := x.state
    missCount := x.miss
    lowArmed := p.pfu.lowArmed && !low
    lastPost :=
      match p.odu.direction with
      | .up => x.posts.getLast?.or p.pfu.lastPost
      | .down => p.pfu.lastPost } }
  let p2 :=
    if x.gone = 0 then p1
    else if skip = true then p1.bumpBy .skippedMarkers x.gone
    else (p1.bumpBy .missedMarkers x.gone).raise .markerMissed
  let p3 := if x.lost = true then p2.raise .positionLost else p2
  if low = true then p3.raise .routeLow else p3

/-- The compare-and-advance of the section list (R109, R112, R113): the sections whose end is passed go from the head and are counted; SECTION_LOW at the armed mark; SECTION_STARVED, with its count, where the list has been emptied in MEASURING. -/
def Part.sectionsAdvanced (p : Part) : Part :=
  let rest := p.lmu.sections.dropWhile (fun x => beyond p.odu.direction p.pfu.routeDistance x.finish)
  let low := lowReached p.lmu.lowArmed p.lmu.sections.length rest.length p.oru.settings.sectionLowWater
  if rest.length = p.lmu.sections.length then p
  else
    let p1 := Part.bumpBy { p with lmu := { p.lmu with sections := rest, lowArmed := p.lmu.lowArmed && !low } }
      .sectionsRetired (p.lmu.sections.length - rest.length)
    let p2 := if low = true then p1.raise .sectionLow else p1
    if rest = [] ∧ p.rnc.runState = .measuring then (p2.bump .sectionStarvations).raise .sectionStarved else p2

/-! ## Urgent notices, finalisation and cuts (R137, R140 to R142, R147, R148) -/

/-- An urgent notice that becomes due (R147): sent where the owed list is empty and a control entry free, with URGENT_SENT set in a slot that owns it; else it replaces the owner's owed notice, or joins the owed list with the owner's mark set. -/
def Part.urgentOffered (p : Part) (o : Owner) (u : UrgentNotice) : Part :=
  if p.ext.owed = [] ∧ p.rlu.control.length + p.rlu.reservations < 16 then
    Part.bump { p with
      rlu := { p.rlu with control := p.rlu.control ++ [.urgent u] }
      ext :=
        match o with
        | .slot n => { p.ext with
            slots := p.ext.slots.set n { p.ext.slots[n] with hold := (p.ext.slots[n]).hold.markUrgentSent } }
        | .latch _ => p.ext } .urgentSent
  else if ∃ x ∈ p.ext.owed, x.owner = o then
    Part.bump { p with ext := { p.ext with
      owed := p.ext.owed.map (fun x => if x.owner = o then ⟨o, u⟩ else x) } } .owedReplacements
  else
    Part.bump { p with ext :=
      match o with
      | .slot n => { p.ext with
          owed := p.ext.owed ++ [⟨o, u⟩]
          slots := p.ext.slots.set n ⟨(p.ext.slots[n]).hold, true⟩ }
      | .latch k => { p.ext with
          owed := p.ext.owed ++ [⟨o, u⟩]
          latches := p.ext.latches.set k { p.ext.latches[k] with urgentOwed := true } } } .urgentOwed

/-- An exceedance finalised in its slot (R140 to R142): discarded as short, its report placed in the XR queue, or PENDING at the tail of the pending list. -/
def Part.finalisedIn (p : Part) (n : SlotNo) (ex : Exceedance) : Part :=
  let put : SlotHold → Ext := fun hold => { p.ext with slots := p.ext.slots.set n ⟨hold, (p.ext.slots[n]).urgentOwed⟩ }
  if (ex.endSeq - ex.startSeq + 1).toNat < (p.limitRow ex.peak.cls ex.param).minLength ∧ ex.grade < 3 then
    Part.bump { p with ext := put .free } .shortDiscards
  else if p.rlu.xr.length < 32 then
    Part.bump { p with ext := put .free, rlu := { p.rlu with xr := p.rlu.xr ++ [ex.report p.rnc.runNumber] } } .reportsPlaced
  else
    Part.bump { p with ext := { put (.pending ex (ex.report p.rnc.runNumber)) with
      pendingList := p.ext.pendingList ++ [n] } } .pendings

/-- A list of slots holds each active slot once, in the order in which they were opened (R137): the earlier its serial, counted back from the next one, the earlier it stands (log 20). -/
def Part.OpeningOrder (p : Part) (order : List SlotNo) : Prop :=
  let age : Exceedance → Nat := fun ex => (p.ext.nextSerial + 4294967295 - ex.serial) % 4294967295
  order.Nodup ∧ (∀ n, n ∈ order ↔ (p.ext.slots[n]).isActive = true) ∧
    order.Pairwise (fun m n => ∀ ph ex ph' ex', (p.ext.slots[m]).hold = .active ph ex →
      (p.ext.slots[n]).hold = .active ph' ex' → age ex' ≤ age ex)

/-- A cut (R137): the slots of a list finalised in its order, each OPEN or CLOSING one with the cut's flag; then every latch cleared, its owed mark kept, and the cut counted. -/
def Part.cutThrough (p : Part) (mark : ExFlags → ExFlags) (order : List SlotNo) : Part :=
  let q := order.foldl (fun (q : Part) n =>
    match (q.ext.slots[n]).hold with
    | .active .held ex => q.finalisedIn n ex
    | .active _ ex => q.finalisedIn n { ex with flags := mark ex.flags }
    | _ => q) p
  Part.bump { q with ext := { q.ext with
    latches := q.ext.latches.map (fun l => { l with isSet := false, urgentRaised := false }) } } .cuts

/-! ## Emission, flush and capture (R84 to R88, R95 to R98) -/

/-- The tracker takes an emitted record: all 16 pairs in order, and whether any of them marks it UNTRACKED (R127, R135). -/
def Part.judgedBy (p : Part) (r : Emitted) : Part × Bool :=
  (List.finRange 16).foldl (fun x k => ((x.1.judgePair k r).1, x.2 || (x.1.judgePair k r).2)) (p, false)

/-- The Geometry Record of an emitted entry (R97): what the entry carries, the parameters with their grades, and the marks of the record. -/
def Part.recordBuilt (p : Part) (e : TraceEntry) (r : Emitted) (untracked : Bool) : GeometryRecord where
  run := p.rnc.runIndex
  runNumber := p.rnc.runNumber
  seq := e.seq
  droppedBefore := 0
  time := e.time
  route := e.route
  label := e.label
  speed := e.speed
  position := e.position
  correction := e.correction
  sectionLabel := e.sectionLabel
  cls := e.cls
  values := r.values.map (fun v => match v with | .present z _ => some z | .absent _ => none)
  grades := r.values.map (fun v => match v with | .present _ g => g | .absent _ => 0)
  flags := e.flags
  incompleteChord := decide (∃ q : Param, r.values[q] = .absent .incompleteChord)
  suppressed := decide (∃ q : Param, r.values[q] = .absent .suppressed)
  sourceSwitch := r.sourceSwitch
  untracked := untracked

/-- How many parameters of an entry lie outside ±32767 before they are limited (R94). -/
def Part.limitedOf (p : Part) (e : TraceEntry) : Nat :=
  (List.finRange 8).countP (fun q =>
    match p.derive e q with
    | .value v _ => decide (v < -32767 ∨ 32767 < v)
    | .absent _ => false)

/-- The emission of an entry (R94 to R97): its limited parameters counted, the record judged, the Geometry Record built and offered, the next emit sequence moved on. -/
def Part.emissionOf (p : Part) (e : TraceEntry) : Part :=
  let r := p.emitted e
  let x := (p.bumpBy .parameterSaturations (p.limitedOf e)).judgedBy r
  let y := x.1.offerGr (p.recordBuilt e r x.2)
  Part.bump { y with tru := { y.tru with nextEmit := some (e.seq + 1) } } .emissions

/-- A flush (R98): the entries from the next emit sequence on emitted in order, the window emptied, the emitted ones counted. -/
def Part.flushed (p : Part) : Part :=
  let waiting :=
    match p.tru.nextEmit with
    | some i => p.tru.window.dropWhile (fun (e : TraceEntry) => e.seq != i)
    | none => []
  let q := waiting.foldl Part.emissionOf p
  Part.bumpBy { q with tru := { q.tru with window := [], segStart := none, nextEmit := none } } .flushes waiting.length

/-- The trace entry that a capture builds from a tick's time, speed and flags and from the owners as they stand (R84, R86). -/
def Part.capturedEntry (p : Part) (speed : Option Nat) (slip saturated : Bool) : TraceEntry :=
  let channels := p.channelValues speed
  { seq := p.tru.nextSeq
    time := p.time
    route := p.pfu.routeDistance
    label := p.label
    speed := speed
    position := p.pfu.position
    correction := p.pfu.pendingCorrection
    sectionLabel := p.currentSection.map (fun x => x.label)
    cls := match p.currentSection with | some x => x.cls | none => 0
    cant := match p.currentSection with | some x => x.cant.getD 0 | none => 0
    suppressed := match p.currentSection with | some x => x.suppressed | none => 0
    channels := channels.map (fun x => x.map (fun y => y.sample))
    flags :=
      { slip := slip
        speedSaturated := saturated
        belowMinSpeed := decide (∀ v, speed = some v → v < p.oru.settings.minSpeed)
        noSection := p.currentSection.isNone
        standbyUsed := decide (∃ i : Fin 7, ∃ y, channels[i] = some y ∧ y.sample.mark = .standby)
        suspectSource := decide (∃ i : Fin 7, ∃ y, channels[i] = some y ∧
          (p.hlu.heads[y.source.head]).state = .suspect) } }

/-- A capture with the emission that it causes (R85, R87, R88): the entry joins the window; the entry L places behind it is emitted where it stands in the window as the next to be emitted; then the entries more than B records behind that one go from the head. -/
def Part.captured (p : Part) (speed : Option Nat) (slip saturated : Bool) : Part :=
  let e := p.capturedEntry speed slip saturated
  let st := p.oru.settings
  let lag := max st.chordLevel st.chordAlign / 2
  let depth := max (max st.twistShort st.twistLong) lag
  let first : Bool := p.tru.window.isEmpty
  let p1 := Part.bump { p with
    pfu := { p.pfu with pendingCorrection := none }
    tru :=
      { window := p.tru.window ++ [e]
        nextSeq := p.tru.nextSeq + 1
        segStart := if first = true then some e.seq else p.tru.segStart
        nextEmit := if first = true then some e.seq else p.tru.nextEmit } } .captures
  match p1.tru.window.reverse[lag]? with
  | none => p1
  | some x =>
    if p1.tru.nextEmit = some x.seq then
      let q := p1.emissionOf x
      { q with tru := { q.tru with window := q.tru.window.dropWhile (fun y =>
          decide (depth < (x.seq - y.seq).toNat) && decide ((x.seq - y.seq).toNat < 2 ^ 31)) } }
    else p1

/-! ## Comparison and tick (R45, R46, R50 to R53, R55, R154 to R156, R159) -/

/-- A channel after the zero-step update of a comparison, beside the other channel (R53). -/
def Channel.countedBeside (x y : Channel) : Channel :=
  if x.stepped = false ∧ y.stepped = true then
    { x with zeroSteps := min (x.zeroSteps + 1) 4, faulted := x.faulted || decide (3 ≤ x.zeroSteps) }
  else if x.stepped = true then { x with zeroSteps := 0 }
  else x

/-- The route position moved by a change of channel (R43, R44, R52, R63, R68, R69): exactly, or held at the limit with a count and a drop to UNCERTAIN. -/
def Part.RouteShifted (p c : Part) (d : Int) : Prop :=
  let fine : Int := p.pfu.routeDistance * 1000 + p.odu.residue + p.odu.direction.sign * d
  c.pfu = { p.pfu with
    routeDistance := c.pfu.routeDistance, position := c.pfu.position
    lastPost := p.pfu.lastPost.filter (fun post => decide (post.distance ≤ c.pfu.routeDistance)) } ∧
  (-2147483648000 ≤ fine → fine ≤ 2147483647999 →
    c.pfu.routeDistance * 1000 + c.odu.residue = fine ∧ 0 ≤ c.odu.residue ∧ c.odu.residue ≤ 999 ∧
    c.counter .routeSaturations = p.counter .routeSaturations ∧
    c.pfu.position = (if p.pfu.position = .fixed ∧
        (∃ n, p.pfu.sinceFix = some n ∧ p.oru.settings.fixValidity * 1000000 < n) then .deadReckoned
      else p.pfu.position)) ∧
  (fine < -2147483648000 ∨ 2147483647999 < fine →
    c.pfu.routeDistance = (if fine < 0 then -2147483648 else 2147483647) ∧
    c.odu.residue = (if fine < 0 then 0 else 999) ∧
    c.counter .routeSaturations = counterUp 1 (p.counter .routeSaturations) ∧
    c.pfu.position = (match p.pfu.position with
      | .deadReckoned => .uncertain
      | .fixed => .uncertain
      | y => y))

/-- What a comparison of the channels leaves, and whether it found a slip (R50 to R53): the zero-step counts and faults, new windows, the slip counted and raised, and, for a faulted active channel or a slip of which the other channel is strictly closer to the prediction, the change of channel with A, H and the route position moved by the difference of the window distances. -/
def Part.Compared (p c : Part) (found : Bool) : Prop :=
  let act := (p.odu.channel p.odu.active).countedBeside (p.odu.channel (otherEncoder p.odu.active))
  let oth := (p.odu.channel (otherEncoder p.odu.active)).countedBeside (p.odu.channel p.odu.active)
  let slip : Bool := !oth.faulted && decide (p.oru.settings.slipLimit * 1000 < (act.window - oth.window).natAbs)
  let predicted : Bool :=
    match p.odu.lastSpeed with
    | none => false
    | some v =>
      let e : Int := ((v.speed * (p.time - p.odu.lastComparison).toNat / 36 : Nat) : Int)
      decide ((oth.window - e).natAbs < (act.window - e).natAbs)
  let switch : Bool := !oth.faulted && (act.faulted || (slip && predicted))
  let d : Int := oth.window - act.window
  let newFault : Channel → Channel → Bool := fun x y => !x.stepped && y.stepped && decide (x.zeroSteps = 3)
  found = slip ∧
  c = { p with odu := c.odu, pfu := c.pfu, rlu := c.rlu, evu := c.evu } ∧
  c.odu = { p.odu with
    active := if switch = true then otherEncoder p.odu.active else p.odu.active
    e1 := { p.odu.e1.countedBeside p.odu.e2 with window := 0, stepped := false }
    e2 := { p.odu.e2.countedBeside p.odu.e1 with window := 0, stepped := false }
    lastComparison := p.time
    ahead := if switch = true then sat64 (p.odu.ahead + d) else p.odu.ahead
    high := if switch = true then max p.odu.high (sat64 (p.odu.ahead + d)) else p.odu.high
    residue := c.odu.residue } ∧
  c.rlu = { p.rlu with control := c.rlu.control } ∧ p.NoticesJoined c ∧
  p.Raised c (if slip = true then [.slip] else []) ∧
  c.counter .slips = (if slip = true then counterUp 1 (p.counter .slips) else p.counter .slips) ∧
  c.counter .channelSwitches =
    (if switch = true then counterUp 1 (p.counter .channelSwitches) else p.counter .channelSwitches) ∧
  c.counter .faultsE1 =
    (if newFault p.odu.e1 p.odu.e2 = true then counterUp 1 (p.counter .faultsE1) else p.counter .faultsE1) ∧
  c.counter .faultsE2 =
    (if newFault p.odu.e2 p.odu.e1 = true then counterUp 1 (p.counter .faultsE2) else p.counter .faultsE2) ∧
  p.CountersKeptBut c [.slips, .channelSwitches, .faultsE1, .faultsE2, .routeSaturations, .statusSent, .noticesLost] ∧
  (switch = false ∨ p.pfu.position = .unset →
    c.pfu = p.pfu ∧ c.odu.residue = p.odu.residue ∧ c.counter .routeSaturations = p.counter .routeSaturations) ∧
  (switch = true → p.pfu.position ≠ .unset → p.RouteShifted c d)

/-- The speed of a tick: absent with an empty history, else its ticks over the time since the oldest, held at 5000 (R55); and whether it is held there. -/
def Part.speedOfTick (p : Part) : Option Nat × Bool :=
  match p.odu.history with
  | [] => (none, false)
  | oldest :: _ =>
    let dt := (p.time - oldest).toNat
    let v := p.odu.history.length * p.oru.settings.recordSpacing * 36000 / dt
    if dt = 0 ∨ 5000 < v then (some 5000, true) else (some v, false)

/-- Run Control at a tick (R154 to R156, R159): out of HALTED the run is MEASURING with a new park deadline; leaving PARKED raises PARK_CHANGE and starts every watchdog anew (R16). -/
def Part.runTicked (p : Part) : Part :=
  let deadline : Option Time := some (p.time + BitVec.ofNat 32 (p.oru.settings.parkDelay * 1000))
  let q : Part := { p with rnc := { p.rnc with runState := .measuring, parkDeadline := deadline } }
  match p.rnc.runState with
  | .halted => p
  | .armed => q
  | .measuring => q
  | .parked =>
    let r := q.raise .parkChange
    { r with hlu := { r.hlu with heads := r.hlu.heads.map (fun x =>
      if x.state = .absent then x
      else { x with watchdog := some (p.time + BitVec.ofNat 32 (2 * p.oru.settings.framePeriod)) }) } }

/-- One tick after its comparison (R45, R46, R55, R62, R85, R109): the boundary moved on, the speed worked out, Run Control's part, both compare-and-advances once a position is set, and in MEASURING the capture with its emission. A slip found by the comparison or carried to the tick sets its SLIP flag. -/
def Part.tickDelivered (p : Part) (found : Bool) : Part :=
  let v := p.speedOfTick
  let p1 : Part := { p with odu := { p.odu with
    nextTick := satU64 (p.odu.nextTick + p.oru.settings.recordSpacing * 1000)
    slipCarried := false
    history := if p.odu.history.length < 8 then p.odu.history ++ [p.time] else (p.odu.history ++ [p.time]).drop 1
    lastSpeed := v.1.map (fun x => ⟨x, p.time⟩) } }
  let p2 := if v.2 = true then p1.bump .speedSaturations else p1
  let p3 := (p2.bump .ticks).runTicked
  let p4 := if p3.pfu.position = .unset then p3 else (p3.routeAdvanced false).sectionsAdvanced
  if p4.rnc.runState = .measuring then p4.captured v.1 (found || p.odu.slipCarried) v.2 else p4

/-- The ticks that a comparison leaves to be made, one for each boundary that H has passed, in boundary order (R45, R52). -/
def Part.TicksMade (c q : Part) (found : Bool) : Prop :=
  ∃ n, q = (fun x => x.tickDelivered found)^[n] c ∧
    (∀ m < n, let x := (fun x => x.tickDelivered found)^[m] c; x.odu.nextTick ≤ x.odu.high) ∧
    q.odu.high < q.odu.nextTick

end Sys2Proof.Machine
end

