-- ==== Sys2Proof/Certificates/Slice0/Obligations.lean ====
section
/-! DEFINITION. The statements about the model that the provers are asked to settle. Where one says what a command leaves and that nothing else changes, `nextWith` adds that an owed urgent notice which stands beside a free control entry moves into it at the command's end (R148); that one may come to stand there is the model's choice (log 17). -/

open Sys2Proof Sys2Proof.Machine

/-! ## Steps and resets -/

/-- A step with command `c` at the front of the queue is `c` carried out on the state with the queue's rest. -/
def Obligations.StepRunsFrontCommand : Prop :=
  ∀ (c : Instr) (s : State), step { s with pending := c :: s.pending } = exec c s

/-- On an empty queue: nothing while RESET_N is held low; else an owed urgent notice that stands beside a free control entry moves into it (log 17); else the first internal event that is due; else 1 µs passes. The model's choice (log 2). -/
def Obligations.EmptyQueueStep : Prop :=
  ∀ s : State, s.pending = [] →
    let waits : Prop := s.part.ext.owed ≠ [] ∧ s.part.rlu.control.length + s.part.rlu.reservations < 16
    (s.part.resetHeld = true → step s = .next s) ∧
    (s.part.resetHeld = false → waits → step s = nextAs s s.part.owedMoved) ∧
    (s.part.resetHeld = false → ¬ waits →
      (∀ i, s.part.due = some i → step s = exec i s) ∧
      (s.part.due = none →
        step s = nextAs s ({ s.part with
          time := s.part.time + 1
          rlu := { s.part.rlu with
            tx := s.part.rlu.tx.map (fun t => { t with sent := min (t.sent + 10) (t.bytes.length + 2) }) }
          hlu := { s.part.hlu with
            relayLine := match s.part.hlu.relayLine with
              | [] => []
              | f :: l => { f with sent := min (f.sent + 4) (f.bytes.length + 2) } :: l } })))

/-- Every command answers a next state, in every state, and leaves the commands that wait; so does every step. -/
def Obligations.EveryCommandAnswersNext : Prop :=
  (∀ (c : Instr) (s : State), ∃ q, exec c s = nextAs s q) ∧
  (∀ s : State, ∃ t, step s = .next t ∧ t.pending = s.pending.drop 1)

/-- HARD_RESET and RESET_N_RISING_EDGE: the reset state with the phase levels the pins have (log 8), a pulse under 1 µs ignored. The forms of the command are log 7, the end of a hold by a power-on or a long pulse log 46. -/
def Obligations.HardResetState : Prop :=
  ∀ s : State,
    let fresh : Bool → Part := fun held =>
      { Part.reset with
        resetHeld := held
        odu := { Odu.reset with
          e1 := { Channel.reset with phaseA := s.part.odu.e1.phaseA, phaseB := s.part.odu.e1.phaseB }
          e2 := { Channel.reset with phaseA := s.part.odu.e2.phaseA, phaseB := s.part.odu.e2.phaseB } } }
    exec (.hardReset .powerOn) s = nextWith s (fresh false) ∧
    (∀ ns, 1000 ≤ ns → exec (.hardReset (.pulse ns)) s = nextWith s (fresh false)) ∧
    (∀ ns, ns < 1000 → exec (.hardReset (.pulse ns)) s = nextWith s s.part) ∧
    exec (.hardReset .heldLow) s = nextWith s (fresh true) ∧
    (s.part.resetHeld = true → exec .resetNRisingEdge s = nextWith s (fresh false)) ∧
    (s.part.resetHeld = false → exec .resetNRisingEdge s = nextWith s s.part)

/-- While RESET_N is held low nothing happens but the end of the hold, a new hard reset and the following of the phase levels, and the alert output is deasserted. The following of the pins is log 8. -/
def Obligations.HeldResetFreezes : Prop :=
  ∀ s : State, s.part.resetHeld = true →
    s.part.alert = false ∧
    (∀ c : Instr, (∀ x, c ≠ .hardReset x) → c ≠ .resetNRisingEdge → (∀ e a b, c ≠ .encoderStep e a b) →
      exec c s = .next s) ∧
    (∀ a b, exec (.encoderStep .e1 a b) s =
      nextAs s ({ s.part with odu := { s.part.odu with
        e1 := { s.part.odu.e1 with phaseA := a, phaseB := b } } })) ∧
    (∀ a b, exec (.encoderStep .e2 a b) s =
      nextAs s ({ s.part with odu := { s.part.odu with
        e2 := { s.part.odu.e2 with phaseA := a, phaseB := b } } }))

/-- What a hard reset leaves, block by block, in the values the manual gives; those of the model's own fields are log 35, and that the READY notice is not counted as sent is log 36. -/
def Obligations.ResetValues : Prop :=
  let p := State.reset.part
  State.reset.pending = [] ∧ p.time = 0 ∧ p.resetHeld = false ∧
  (p.hlu.locked = false ∧ p.hlu.linkErrors = 0 ∧ p.hlu.idleRun = 0 ∧ p.hlu.relay = none ∧ p.hlu.relayTag = 0 ∧
    ∀ h : Head, (p.hlu.heads[h]).state = .absent ∧ (p.hlu.heads[h]).score = 0 ∧ (p.hlu.heads[h]).goodRun = 0 ∧
      (p.hlu.heads[h]).lastArrival = none ∧ (p.hlu.heads[h]).lastSequence = none ∧
      (p.hlu.heads[h]).watchdog = none ∧ (p.hlu.heads[h]).status = 0 ∧ (p.hlu.heads[h]).riseLatch = 0 ∧
      (p.hlu.heads[h]).fallLatch = 0 ∧ (p.hlu.heads[h]).riseMask = 0 ∧ (p.hlu.heads[h]).fallMask = 0 ∧
      (p.hlu.heads[h]).held = none ∧ p.shu.freshness[h] = none) ∧
  (∀ i : Fin 7, p.shu.map[i] = none) ∧
  (p.odu.direction = .up ∧ p.odu.sense = .aheadPositive ∧ p.odu.active = .e1 ∧ p.odu.ahead = 0 ∧ p.odu.high = 0 ∧
    p.odu.nextTick = 250000 ∧ p.odu.residue = 0 ∧ p.odu.history = [] ∧ p.odu.lastSpeed = none ∧
    p.odu.slipCarried = false ∧ p.odu.lastComparison = 0 ∧
    ∀ c : Encoder, (p.odu.channel c).window = 0 ∧ (p.odu.channel c).faulted = false ∧ (p.odu.channel c).zeroSteps = 0) ∧
  (p.pfu.routeDistance = 0 ∧ p.pfu.position = .unset ∧ p.pfu.routeList = [] ∧ p.pfu.lastPost = none ∧
    p.pfu.missCount = 0 ∧ p.pfu.sinceFix = none ∧ p.pfu.pendingCorrection = none ∧ p.pfu.lowArmed = false) ∧
  (p.tru.window = [] ∧ p.tru.nextSeq = 0 ∧ p.tru.segStart = none ∧ p.tru.nextEmit = none) ∧
  (p.lmu.sections = [] ∧ p.lmu.lowArmed = false ∧
    ∀ a : Fin 64, p.lmu.limits[a] = ⟨⟨none, none, none⟩, ⟨none, none, none⟩, 0, 0⟩) ∧
  ((∀ n : SlotNo, p.ext.slots[n] = ⟨.free, false⟩) ∧ (∀ k : Pair, p.ext.latches[k] = ⟨false, false, false⟩) ∧
    p.ext.nextSerial = 1 ∧ p.ext.pendingList = [] ∧ p.ext.owed = []) ∧
  (p.rnc.runState = .halted ∧ p.rnc.runNumber = 0 ∧ p.rnc.parkDeadline = none) ∧
  (p.rlu.link = .down ∧ p.rlu.linkErrors = 0 ∧ p.rlu.idleRun = 0 ∧ p.rlu.idleTally = 0 ∧ p.rlu.credits = 0 ∧
    p.rlu.control = [.status 0 1#20 0 0] ∧ p.rlu.reservations = 0 ∧ p.rlu.xr = [] ∧ p.rlu.gr = [] ∧
    p.rlu.mirror = [] ∧ p.rlu.tx = none ∧ p.rlu.grDropped = 0 ∧ p.rlu.rx = none) ∧
  (p.oru.buffer = [] ∧ p.oru.headReservation = none ∧
    p.oru.settings =
      { recordSpacing := 250, stepE1 := 2822, stepE2 := 2822, leadEncoder := .e1, slipLimit := 20, reversalDistance := 1000
        minSpeed := 50, parkDelay := 5000, framePeriod := 500, passThreshold := 4, headErrorThreshold := 3
        shapes := Vector.replicate 8 ⟨0, 1⟩, mirrors := Vector.replicate 8 false, markerHead := 0, matchWindow := 30000
        largeCorrection := 5000, fixValidity := 3000, lostThreshold := 2, chordLevel := 40, chordAlign := 40
        twistShort := 12, twistLong := 40, nominalGauge := 14350, gaugeBase := 14350, closeLength := 4, mergeGap := 8
        relayTimeout := 20, routeLowWater := 16, sectionLowWater := 8, recorderErrorThreshold := 8
        noticesEnabled := true }) ∧
  (p.evu.flags = 1#20 ∧ p.evu.mask = 0 ∧ (∀ i : Fin 109, p.evu.counters[i] = 0) ∧ p.alert = false)

/-! ## The head link -/

/-- The hunt of the head link: IDLE characters counted, any other character sets the idle run count to 0, and 32 in a row lock the link; in LOCKED an IDLE outside a frame changes nothing but the end of a run of stray characters. That HEAD_LINK_LOCK does nothing where it is not due is log 1, that a character after the 32nd IDLE finds the link LOCKED log 3. -/
def Obligations.HuntAndLock : Prop :=
  ∀ s : State, s.part.resetHeld = false →
    (∀ line, s.part.hlu.locked = false → s.part.hlu.idleRun < 32 →
      exec (.headLinkCharacter line) s =
        nextWith s (let p : Part := { s.part with hlu := { s.part.hlu with
            idleRun := if lineCharOf line = .idle then s.part.hlu.idleRun + 1 else 0 } }
          if lineCharOf line = .violation then p.bump .headCodeViolations else p)) ∧
    (s.part.hlu.locked = false → 32 ≤ s.part.hlu.idleRun →
      exec .headLinkLock s =
        nextWith s ({ s.part with hlu := { s.part.hlu with locked := true, idleRun := 0 } })) ∧
    ((s.part.hlu.locked = true ∨ s.part.hlu.idleRun < 32) → exec .headLinkLock s = nextWith s s.part) ∧
    (∀ line, s.part.hlu.locked = false → 32 ≤ s.part.hlu.idleRun →
      exec (.headLinkCharacter line) s =
        exec (.headLinkCharacter line) { s with part := { s.part with hlu := { s.part.hlu with
          locked := true, idleRun := 0 } } }) ∧
    (∀ line, s.part.hlu.locked = true → s.part.hlu.rx = .outside ∨ s.part.hlu.rx = .stray →
      lineCharOf line = .idle →
      exec (.headLinkCharacter line) s =
        nextWith s ({ s.part with hlu := { s.part.hlu with rx := .outside } }))

/-- HEAD_LINK_LOSS_OF_SIGNAL: a LOCKED link becomes UNLOCKED with all that R3 says, and so does one that has seen its 32 IDLE characters, whose lock comes first (log 3); a hunt starts over. That the silence is a command is log 21. -/
def Obligations.HeadLossOfSignal : Prop :=
  ∀ s : State, s.part.resetHeld = false →
    (s.part.hlu.locked = true ∨ 32 ≤ s.part.hlu.idleRun →
      ∃ q, exec .headLinkLossOfSignal s = nextWith s q ∧
        q = { s.part with hlu := q.hlu, rlu := q.rlu, evu := q.evu } ∧
        q.hlu = { s.part.hlu with
          locked := false, linkErrors := 0, idleRun := 0, rx := .outside, heads := q.hlu.heads } ∧
        (∀ h : Head, q.hlu.heads[h] =
          let r := s.part.hlu.heads[h]
          match r.state with
          | .absent => r
          | .acquiring => { r with goodRun := 0 }
          | .excluded => { r with goodRun := 0 }
          | .qualified => { r with goodRun := 0, state := .acquiring }
          | .suspect => { r with goodRun := 0, state := .acquiring }) ∧
        q.rlu = { s.part.rlu with control := q.rlu.control } ∧ s.part.NoticesJoined q ∧
        q.counter .lockLosses = counterUp 1 (s.part.counter .lockLosses) ∧
        s.part.CountersKeptBut q [.lockLosses, .statusSent, .noticesLost] ∧
        s.part.Raised q
          (if ∃ h : Head, (s.part.hlu.heads[h]).state.proven = true then [.headChange, .headLinkLost]
            else [.headLinkLost])) ∧
    (s.part.hlu.locked = false → s.part.hlu.idleRun < 32 →
      exec .headLinkLossOfSignal s =
        nextWith s ({ s.part with hlu := { s.part.hlu with idleRun := 0 } }))

/-- A fault of framing on a LOCKED link: a stray character, a FRAME START or a code violation inside a frame, a FRAME END too early, a data character too many, each of which counts one framing error; or a fourth data character that completes an uncorrectable or impossible header, which counts one of these. Each adds one link error, and after the faults that end a frame the receiver passes over characters up to the next FRAME START; below the threshold nothing else moves, at the threshold the link becomes UNLOCKED. A header that a correction makes impossible is not counted as corrected (log 11); which characters start and end a run of stray ones, and that a FRAME START at the threshold leaves no frame open, is log 12. -/
def Obligations.FramingErrors : Prop :=
  ∀ (s : State) (line : BitVec 10) (after : HeadRx) (fault : Counter), s.part.resetHeld = false →
    s.part.hlu.locked = true →
    ((∃ bytes b, s.part.hlu.rx = .inFrame bytes none ∧ bytes.length = 3 ∧ lineCharOf line = .data b ∧
        decodeHeader (headerWord (bytes ++ [b])) = none ∧ after = .passing ∧ fault = .uncorrectableHeaders) ∨
      (s.part.hlu.rx = .outside ∧ (lineCharOf line = .frameEnd ∨ ∃ b, lineCharOf line = .data b) ∧ after = .stray ∧
        fault = .framingErrors) ∨
      (∃ bytes hd, s.part.hlu.rx = .inFrame bytes hd ∧ fault = .framingErrors ∧
        ((lineCharOf line = .frameStart ∧ after = .inFrame [] none) ∨
          (lineCharOf line = .violation ∧ after = .passing) ∨
          (lineCharOf line = .frameEnd ∧ hd = none ∧ after = .passing) ∨
          (∃ h b, hd = some h ∧ after = .passing ∧
            ((lineCharOf line = .frameEnd ∧ bytes.length < h.impliedLength) ∨
              (lineCharOf line = .data b ∧ h.impliedLength ≤ bytes.length)))))) →
    let p0 : Part := if lineCharOf line = .violation then s.part.bump .headCodeViolations else s.part
    (min (s.part.hlu.linkErrors + 1) 15 < s.part.oru.settings.headErrorThreshold →
      exec (.headLinkCharacter line) s =
        nextWith s (Part.bump { p0 with hlu := { s.part.hlu with
          rx := after, linkErrors := min (s.part.hlu.linkErrors + 1) 15 } } fault)) ∧
    (s.part.oru.settings.headErrorThreshold ≤ min (s.part.hlu.linkErrors + 1) 15 →
      ∃ q, exec (.headLinkCharacter line) s = nextWith s q ∧
        q = { s.part with hlu := q.hlu, rlu := q.rlu, evu := q.evu } ∧
        q.hlu = { s.part.hlu with
          locked := false, linkErrors := 0, idleRun := 0, rx := .outside, heads := q.hlu.heads } ∧
        (∀ h : Head, q.hlu.heads[h] =
          let r := s.part.hlu.heads[h]
          match r.state with
          | .absent => r
          | .acquiring => { r with goodRun := 0 }
          | .excluded => { r with goodRun := 0 }
          | .qualified => { r with goodRun := 0, state := .acquiring }
          | .suspect => { r with goodRun := 0, state := .acquiring }) ∧
        q.rlu = { s.part.rlu with control := q.rlu.control } ∧ s.part.NoticesJoined q ∧
        q.counter fault = counterUp 1 (s.part.counter fault) ∧
        q.counter .lockLosses = counterUp 1 (s.part.counter .lockLosses) ∧
        q.counter .headCodeViolations = p0.counter .headCodeViolations ∧
        s.part.CountersKeptBut q [fault, .lockLosses, .headCodeViolations, .statusSent, .noticesLost] ∧
        s.part.Raised q
          (if ∃ h : Head, (s.part.hlu.heads[h]).state.proven = true then [.headChange, .headLinkLost]
            else [.headLinkLost]))

/-- The error score, good run and head state after a valid and after a bad frame, state by state: re-admission at the 1024th valid frame, SUSPECT from 96, back to QUALIFIED below 64, EXCLUDED at 255. With it, what else a valid frame writes into the record (arrival, sequence, watchdog deadline but in PARKED), and the sequence gap that it counts. -/
def Obligations.QualificationTable : Prop :=
  (∀ (p : Part) (h : Head) (sequence : BitVec 8),
    p.goodRecord h sequence = { (p.hlu.heads[h]).good p.oru.settings.passThreshold with
      lastArrival := some p.time
      lastSequence := some sequence
      watchdog := if p.rnc.runState = .parked then (p.hlu.heads[h]).watchdog
        else some (p.time + BitVec.ofNat 32 (2 * p.oru.settings.framePeriod)) }) ∧
  (∀ new : BitVec 8, sequenceGap none new = 0) ∧
  (∀ (last : BitVec 8) (gap : Nat), gap < 256 → sequenceGap (some last) (last + 1 + BitVec.ofNat 8 gap) = gap) ∧
  ∀ (r : HeadRecord) (pass : Nat), r.Legal →
    (r.state = .absent →
      r.good pass = { r with score := r.score - 1, goodRun := 1, state :=
        (if 1 < pass then .acquiring else if r.score - 1 < 96 then .qualified else .suspect) }) ∧
    (r.state = .acquiring →
      r.good pass = { r with score := r.score - 1, goodRun := min (r.goodRun + 1) 1023, state :=
        (if min (r.goodRun + 1) 1023 < pass then .acquiring
          else if r.score - 1 < 96 then .qualified else .suspect) }) ∧
    (r.state = .qualified →
      r.good pass = { r with score := r.score - 1, goodRun := min (r.goodRun + 1) 1023 }) ∧
    (r.state = .suspect →
      r.good pass = { r with score := r.score - 1, goodRun := min (r.goodRun + 1) 1023, state :=
        (if r.score - 1 < 64 then .qualified else .suspect) }) ∧
    (r.state = .excluded → r.goodRun < 1023 → r.good pass = { r with goodRun := r.goodRun + 1 }) ∧
    (r.state = .excluded → r.goodRun = 1023 →
      r.good pass = { r with score := 0, goodRun := 0, state := .acquiring }) ∧
    (∀ mismatch : Bool,
      (247 ≤ r.score → r.bad mismatch = { r with score := 255, goodRun := 0, state := .excluded }) ∧
      (r.score < 247 → mismatch = true → r.state = .qualified ∨ r.state = .suspect →
        r.bad mismatch = { r with score := r.score + 8, goodRun := 0, state := .acquiring }) ∧
      (r.score < 247 → mismatch = false → r.state = .qualified →
        r.bad mismatch = { r with score := r.score + 8, goodRun := 0, state :=
          (if 96 ≤ r.score + 8 then .suspect else .qualified) }) ∧
      (r.score < 247 → r.state = .absent ∨ r.state = .acquiring ∨ (r.state = .suspect ∧ mismatch = false) →
        r.bad mismatch = { r with score := r.score + 8, goodRun := 0 }))

/-- SAMPLE_FRAME with a valid frame: the frame becomes the head's held sample frame with its channel means, fresh for twice the frame period, with the common effects of a valid frame and, for a mirrored head outside PARKED, a copy in the mirror queue. A channel mean is the sum of its signed 16-bit samples, which stand time by time and channel by channel, over their number, toward zero. -/
def Obligations.SampleFrameHeld : Prop :=
  (∀ (payload : List Byte) (channels samples c : Nat), c < channels → payload.length = 2 * (samples * channels) →
    channelMean payload channels samples c =
      (∑ t ∈ Finset.range samples,
        (payload.getD (2 * (t * channels + c)) 0 ++ payload.getD (2 * (t * channels + c) + 1) 0).toInt).tdiv samples) ∧
  ∀ (s : State) (chars : List LineChar) (bytes : List Byte) (hd : Header) (corrected : Bool) (h : Head),
    s.part.TakesValidFrame chars bytes hd corrected h → hd.kind = .sample →
    let p := s.part
    let copy : Bool := p.oru.settings.mirrors[h] && p.rnc.runState != .parked
    ∃ q, exec (.sampleFrame chars) s = nextWith s q ∧
      q = { p with hlu := q.hlu, shu := q.shu, rlu := q.rlu, evu := q.evu } ∧
      p.ValidFrameTaken q h hd corrected { p.goodRecord h hd.sequence with
        held := some ⟨p.time, (List.range hd.channels).map (channelMean (payloadOf bytes) hd.channels hd.samples)⟩ } ∧
      q.hlu.relay = p.hlu.relay ∧ q.hlu.relayLine = p.hlu.relayLine ∧
      q.shu.map = p.shu.map ∧ q.shu.freshness[h] = some (p.time + BitVec.ofNat 32 (2 * p.oru.settings.framePeriod)) ∧
      (∀ g : Head, g ≠ h → q.shu.freshness[g] = p.shu.freshness[g]) ∧
      q.rlu = { p.rlu with control := q.rlu.control, mirror := q.rlu.mirror } ∧ p.NoticesJoined q ∧
      q.rlu.mirror = (if copy = true ∧ p.rlu.mirror.length < 8 then p.rlu.mirror ++ [⟨h, .sample, bytes⟩]
        else p.rlu.mirror) ∧
      q.counter .mirrorDrops = (if copy = true ∧ 8 ≤ p.rlu.mirror.length then counterUp 1 (p.counter .mirrorDrops)
        else p.counter .mirrorDrops) ∧
      p.CountersKeptBut q [.validFrames h, .lostFrames h, .correctedHeaders, .mirrorDrops, .statusSent, .noticesLost] ∧
      p.Raised q (if (p.goodRecord h hd.sequence).state = (p.hlu.heads[h]).state then [] else [.headChange])

/-- STATUS_FRAME with a valid frame: the status flags replaced, the masked rises and falls latched, HEAD_STATUS raised where there is one, and the copy of a mirrored head. -/
def Obligations.StatusFrameTaken : Prop :=
  ∀ (s : State) (chars : List LineChar) (bytes : List Byte) (hd : Header) (corrected : Bool) (h : Head),
    s.part.TakesValidFrame chars bytes hd corrected h → hd.kind = .status →
    let p := s.part
    let r := p.hlu.heads[h]
    let new := (payloadOf bytes).getD 0 0#8
    let rises := ~~~r.status &&& new &&& r.riseMask
    let falls := r.status &&& ~~~new &&& r.fallMask
    let copy : Bool := p.oru.settings.mirrors[h] && p.rnc.runState != .parked
    ∃ q, exec (.statusFrame chars) s = nextWith s q ∧
      q = { p with hlu := q.hlu, rlu := q.rlu, evu := q.evu } ∧
      p.ValidFrameTaken q h hd corrected { p.goodRecord h hd.sequence with
        status := new, riseLatch := r.riseLatch ||| rises, fallLatch := r.fallLatch ||| falls } ∧
      q.hlu.relay = p.hlu.relay ∧ q.hlu.relayLine = p.hlu.relayLine ∧
      q.rlu = { p.rlu with control := q.rlu.control, mirror := q.rlu.mirror } ∧ p.NoticesJoined q ∧
      q.rlu.mirror = (if copy = true ∧ p.rlu.mirror.length < 8 then p.rlu.mirror ++ [⟨h, .status, bytes⟩]
        else p.rlu.mirror) ∧
      q.counter .mirrorDrops = (if copy = true ∧ 8 ≤ p.rlu.mirror.length then counterUp 1 (p.counter .mirrorDrops)
        else p.counter .mirrorDrops) ∧
      p.CountersKeptBut q [.validFrames h, .lostFrames h, .correctedHeaders, .mirrorDrops, .statusSent, .noticesLost] ∧
      p.Raised q
        ((if (p.goodRecord h hd.sequence).state = r.state then [] else [.headChange]) ++
          (if rises ||| falls = 0#8 then [] else [.headStatus]))

/-- MARKER_FRAME with a valid frame that is not delivered: stray from any head but the marker head, withheld from a marker head that is not proven or has HEAD FAULT set. -/
def Obligations.MarkerFrameUndelivered : Prop :=
  ∀ (s : State) (chars : List LineChar) (bytes : List Byte) (hd : Header) (corrected : Bool) (h : Head),
    s.part.TakesValidFrame chars bytes hd corrected h → hd.kind = .marker →
    let p := s.part
    let r := p.goodRecord h hd.sequence
    let stray : Bool := p.oru.settings.markerHead != h.val + 1
    (stray = true ∨ r.state.proven = false ∨ r.status.getLsbD 0 = true) →
    ∃ q, exec (.markerFrame chars) s = nextWith s q ∧
      q = { p with hlu := q.hlu, rlu := q.rlu, evu := q.evu } ∧
      p.ValidFrameTaken q h hd corrected r ∧
      q.hlu.relay = p.hlu.relay ∧ q.hlu.relayLine = p.hlu.relayLine ∧
      q.rlu = { p.rlu with control := q.rlu.control } ∧ p.NoticesJoined q ∧
      q.counter .strayMarkers = (if stray = true then counterUp 1 (p.counter .strayMarkers) else p.counter .strayMarkers) ∧
      q.counter .withheldMarkers =
        (if stray = true then p.counter .withheldMarkers else counterUp 1 (p.counter .withheldMarkers)) ∧
      p.CountersKeptBut q
        [.validFrames h, .lostFrames h, .correctedHeaders, .strayMarkers, .withheldMarkers, .statusSent, .noticesLost] ∧
      p.Raised q (if r.state = (p.hlu.heads[h]).state then [] else [.headChange])

/-- MARKER_FRAME with a valid frame that is delivered (R20, R70 to R74). In UNSET it is only counted. Where a candidate matches, the first two MARKERs or in LOST the first eight, the first that does is a fix: the MARKERs before it are missed, the route distance becomes the marker's, the correction goes to every active slot and to the pending correction, the residue stays, and both lists are advanced. Where none matches it is unknown. The order of the raisings of one event is log 16. -/
def Obligations.MarkerFrameFixes : Prop :=
  ∀ (s : State) (chars : List LineChar) (bytes : List Byte) (hd : Header) (corrected : Bool) (h : Head),
    s.part.TakesValidFrame chars bytes hd corrected h → hd.kind = .marker →
    let p := s.part
    let r := p.goodRecord h hd.sequence
    let read : BitVec 32 := BitVec.ofNat 32 (natOfBytes (payloadOf bytes))
    let w : Int := if p.pfu.position = .lost then 4 * p.oru.settings.matchWindow else p.oru.settings.matchWindow
    let places : Nat := if p.pfu.position = .lost then 8 else 2
    let fits : RouteEntry → Prop := fun e => ∃ code mask, e.kind = .marker code mask ∧
      (read ^^^ code) &&& ~~~mask = 0#32 ∧ e.distance - w ≤ p.pfu.routeDistance ∧ p.pfu.routeDistance ≤ e.distance + w
    p.oru.settings.markerHead = h.val + 1 → r.state.proven = true → r.status.getLsbD 0 = false →
    ∃ v q : Part, exec (.markerFrame chars) s = nextWith s q ∧
      v = { p with hlu := v.hlu, rlu := v.rlu, evu := v.evu } ∧
      p.ValidFrameTaken v h hd corrected r ∧ v.hlu.relay = p.hlu.relay ∧ v.hlu.relayLine = p.hlu.relayLine ∧
      v.rlu = { p.rlu with control := v.rlu.control } ∧ p.NoticesJoined v ∧
      p.CountersKeptBut v [.validFrames h, .lostFrames h, .correctedHeaders, .statusSent, .noticesLost] ∧
      p.Raised v (if r.state = (p.hlu.heads[h]).state then [] else [.headChange]) ∧
      (p.pfu.position = .unset → q = v.bump .unsetMarkers) ∧
      (p.pfu.position ≠ .unset →
        (∀ before e after, p.pfu.routeList = before ++ e :: after → before.countP RouteEntry.isMarker < places → ¬ fits e) →
        q = (v.bump .unknownMarkers).raise .markerUnknown) ∧
      (∀ before e after, p.pfu.position ≠ .unset → p.pfu.routeList = before ++ e :: after →
        before.countP RouteEntry.isMarker < places → (∀ x ∈ before, ¬ fits x) → fits e →
        let c := e.distance - p.pfu.routeDistance
        let missed := before.countP RouteEntry.isMarker
        let left := before.filter (fun x => !x.isMarker) ++ after
        let low := lowReached p.pfu.lowArmed p.pfu.routeList.length left.length p.oru.settings.routeLowWater
        let v1 := if missed = 0 then v else (v.bumpBy .missedMarkers missed).raise .markerMissed
        let v2 : Part := { v1 with pfu := { p.pfu with routeList := left, lowArmed := p.pfu.lowArmed && !low } }
        let v3 := if low = true then v2.raise .routeLow else v2
        let v4 := (Part.bump { v3 with pfu := { v3.pfu with
          routeDistance := e.distance
          position := .fixed
          sinceFix := some 0
          missCount := 0
          lastPost := p.pfu.lastPost.filter (fun post => decide (post.distance ≤ e.distance)) } } .fixes).raise .positionFix
        let v5 : Part := { v4 with
          pfu := { v4.pfu with pendingCorrection := some (match p.pfu.pendingCorrection with
            | some x => sat32 (x + c)
            | none => c) }
          ext := { p.ext with slots := p.ext.slots.map (fun x => { x with hold := match x.hold with
            | .active ph ex => .active ph { ex with correction := sat32 (ex.correction + c) }
            | y => y }) } }
        let v6 := if p.oru.settings.largeCorrection < c.natAbs then (v5.bump .largeCorrections).raise .largeCorrection
          else v5
        q = (v6.routeAdvanced false).sectionsAdvanced ∧ q.pfu.routeDistance = e.distance ∧ q.odu = p.odu)

/-- REPLY_FRAME with a valid frame: it completes the relay it answers, is counted as a wrong-tag reply beside another relay, and is a late reply where the slot is free. A relay frame still on the line stays there without a slot (log 24). -/
def Obligations.ReplyFrameMatched : Prop :=
  ∀ (s : State) (chars : List LineChar) (bytes : List Byte) (hd : Header) (corrected : Bool) (h : Head),
    s.part.TakesValidFrame chars bytes hd corrected h → hd.kind = .reply →
    let p := s.part
    let r := p.goodRecord h hd.sequence
    let change : List Event := if r.state = (p.hlu.heads[h]).state then [] else [.headChange]
    ∃ q, exec (.replyFrame chars) s = nextWith s q ∧
      q = { p with hlu := q.hlu, rlu := q.rlu, oru := q.oru, evu := q.evu } ∧
      p.ValidFrameTaken q h hd corrected r ∧
      p.CountersKeptBut q [.validFrames h, .lostFrames h, .correctedHeaders, .wrongTagReplies, .lateReplies,
        .statusSent, .noticesLost] ∧
      (∀ x y, p.hlu.relay = some x → p.oru.headReservation = some y → x.head = h →
        (payloadOf bytes).getD 0 0#8 = x.tag →
        q.hlu.relay = none ∧ q.hlu.relayLine = p.hlu.relayLine.map (fun f => { f with forSlot := false }) ∧
        q.oru = { p.oru with headReservation := none } ∧
        q.rlu = { p.rlu with control := q.rlu.control, reservations := p.rlu.reservations - 1 } ∧
        (∃ l : List ControlFrame, (∀ f ∈ l, ∃ cause flags seq route, f = .status cause flags seq route) ∧
          q.rlu.control = p.rlu.control ++ l ++
            [.reply y.code y.tag .done (BitVec.ofNat 8 (h.val + 1) :: (payloadOf bytes).drop 1)]) ∧
        q.counter .wrongTagReplies = p.counter .wrongTagReplies ∧ q.counter .lateReplies = p.counter .lateReplies ∧
        p.Raised q change) ∧
      (∀ x, p.hlu.relay = some x → (x.head ≠ h ∨ (payloadOf bytes).getD 0 0#8 ≠ x.tag) →
        q.hlu.relay = some x ∧ q.hlu.relayLine = p.hlu.relayLine ∧ q.oru = p.oru ∧
        q.rlu = { p.rlu with control := q.rlu.control } ∧ p.NoticesJoined q ∧
        q.counter .wrongTagReplies = counterUp 1 (p.counter .wrongTagReplies) ∧
        q.counter .lateReplies = p.counter .lateReplies ∧ p.Raised q change) ∧
      (p.hlu.relay = none →
        q.hlu.relay = none ∧ q.hlu.relayLine = p.hlu.relayLine ∧ q.oru = p.oru ∧
        q.rlu = { p.rlu with control := q.rlu.control } ∧ p.NoticesJoined q ∧
        q.counter .lateReplies = counterUp 1 (p.counter .lateReplies) ∧
        q.counter .wrongTagReplies = p.counter .wrongTagReplies ∧ p.Raised q (change ++ [.headReplyLate]))

/-- A frame of any kind that is discarded whole. One whose header is uncorrectable or impossible is counted, adds a link error, here below its threshold (FramingErrors says what the threshold does), and leaves the receiver passing over characters. A well-framed one: a foreign address counts and changes no head record; a CRC failure and a shape mismatch change the sender's record alone, and leave the link error count. A header that a correction makes impossible is not counted as corrected (log 11). -/
def Obligations.DiscardedFrames : Prop :=
  (∀ (s : State) (c : Instr) (chars : List LineChar) (bytes : List Byte),
    c ∈ [Instr.sampleFrame chars, .markerFrame chars, .statusFrame chars, .replyFrame chars] →
    s.part.resetHeld = false → s.part.hlu.locked = true → (∀ b x, s.part.hlu.rx ≠ .inFrame b x) → Carries chars bytes →
    4 ≤ bytes.length → decodeHeader (headerWord bytes) = none →
    min (s.part.hlu.linkErrors + 1) 15 < s.part.oru.settings.headErrorThreshold →
    exec c s = nextWith s (Part.bump { s.part with hlu := { s.part.hlu with
      rx := .passing, linkErrors := min (s.part.hlu.linkErrors + 1) 15 } } .uncorrectableHeaders)) ∧
  ∀ (s : State) (c : Instr) (chars : List LineChar) (bytes : List Byte) (hd : Header) (corrected : Bool),
    c ∈ [Instr.sampleFrame chars, .markerFrame chars, .statusFrame chars, .replyFrame chars] →
    s.part.TakesHeadFrame chars bytes hd corrected →
    let p := s.part
    (hd.head? = none →
      let p0 : Part := if corrected then p.bump .correctedHeaders else p
      exec c s = nextWith s (Part.bump { p0 with hlu := { p.hlu with rx := .outside } } .foreignAddress)) ∧
    (∀ (h : Head) (mismatch : Bool), hd.head? = some h →
      (mismatch = false → payloadCrcOk bytes = false) →
      (mismatch = true → payloadCrcOk bytes = true ∧ hd.kind = .sample ∧
        p.oru.settings.shapes[h] ≠ ⟨hd.channels, hd.samples⟩) →
      ∃ q, exec c s = nextWith s q ∧
        q = { p with hlu := q.hlu, rlu := q.rlu, evu := q.evu } ∧
        q.hlu = { p.hlu with rx := .outside, heads := q.hlu.heads } ∧
        q.hlu.heads[h] = (p.hlu.heads[h]).bad mismatch ∧
        (∀ g : Head, g ≠ h → q.hlu.heads[g] = p.hlu.heads[g]) ∧
        q.rlu = { p.rlu with control := q.rlu.control } ∧ p.NoticesJoined q ∧
        q.counter (if mismatch then .shapeMismatches h else .crcFailures h) =
          counterUp 1 (p.counter (if mismatch then .shapeMismatches h else .crcFailures h)) ∧
        q.counter (.exclusions h) =
          (if ((p.hlu.heads[h]).bad mismatch).state = .excluded ∧ (p.hlu.heads[h]).state ≠ .excluded then
            counterUp 1 (p.counter (.exclusions h)) else p.counter (.exclusions h)) ∧
        q.counter .correctedHeaders =
          (if corrected then counterUp 1 (p.counter .correctedHeaders) else p.counter .correctedHeaders) ∧
        p.CountersKeptBut q [if mismatch then .shapeMismatches h else .crcFailures h, .exclusions h, .correctedHeaders,
          .statusSent, .noticesLost] ∧
        p.Raised q (if ((p.hlu.heads[h]).bad mismatch).state = (p.hlu.heads[h]).state then [] else [.headChange]))

/-- WATCHDOG_EXPIRY and FRESHNESS_DEADLINE of a head whose deadline the time counter has reached; before it, and a watchdog in PARKED, nothing (log 1). A deadline counts as reached for half the range of the time counter (log 25). -/
def Obligations.HeadDeadlines : Prop :=
  ∀ (s : State) (h : Head), s.part.resetHeld = false →
    let p := s.part
    let r := p.hlu.heads[h]
    (∀ d, r.watchdog = some d → (p.time - d).toNat < 2 ^ 31 → p.rnc.runState ≠ .parked →
      ∃ q, exec (.watchdogExpiry h) s = nextWith s q ∧
        q = { p with hlu := q.hlu, rlu := q.rlu, evu := q.evu } ∧
        q.hlu = { p.hlu with heads := q.hlu.heads } ∧
        q.hlu.heads[h] = { r with watchdog := none, goodRun := 0, state := match r.state with
          | .qualified => .acquiring
          | .suspect => .acquiring
          | x => x } ∧
        (∀ g : Head, g ≠ h → q.hlu.heads[g] = p.hlu.heads[g]) ∧
        q.rlu = { p.rlu with control := q.rlu.control } ∧ p.NoticesJoined q ∧
        q.counter (.watchdogExpiries h) = counterUp 1 (p.counter (.watchdogExpiries h)) ∧
        p.CountersKeptBut q [.watchdogExpiries h, .statusSent, .noticesLost] ∧
        p.Raised q (if r.state.proven = true then [.headChange] else [])) ∧
    ((r.watchdog = none ∨ p.rnc.runState = .parked ∨ ∃ d, r.watchdog = some d ∧ 2 ^ 31 ≤ (p.time - d).toNat) →
      exec (.watchdogExpiry h) s = nextWith s s.part) ∧
    (∀ d, p.shu.freshness[h] = some d → (p.time - d).toNat < 2 ^ 31 →
      ∃ q, exec (.freshnessDeadline h) s = nextWith s ({ p with shu := q }) ∧
        q.map = p.shu.map ∧ q.freshness[h] = none ∧ (∀ g : Head, g ≠ h → q.freshness[g] = p.shu.freshness[g])) ∧
    ((p.shu.freshness[h] = none ∨ ∃ d, p.shu.freshness[h] = some d ∧ 2 ^ 31 ≤ (p.time - d).toNat) →
      exec (.freshnessDeadline h) s = nextWith s s.part)

/-- RELAY_FRAME_SENT sets the relay deadline of the slot that waits on the frame, the relay timeout being the one its relay was accepted with (log 39); RELAY_TIMEOUT completes the relay with HEAD_TIMEOUT, and before the deadline, which counts as reached for half the range of the time counter (log 25), does nothing (log 1). The frames of earlier relays on the line are log 24; that the command is the end of the frame, however many characters the model has counted, is log 22. -/
def Obligations.RelayDeadline : Prop :=
  ∀ s : State, s.part.resetHeld = false →
    let p := s.part
    (∀ x f rest, p.hlu.relay = some x → p.hlu.relayLine = f :: rest → f.forSlot = true →
      exec .relayFrameSent s = nextWith s ({ p with hlu := { p.hlu with
        relayLine := rest
        relay := some { x with deadline := some (p.time + BitVec.ofNat 32 (x.timeout * 1000)) } } })) ∧
    (∀ f rest, p.hlu.relayLine = f :: rest → (p.hlu.relay = none ∨ f.forSlot = false) →
      exec .relayFrameSent s = nextWith s ({ p with hlu := { p.hlu with relayLine := rest } })) ∧
    (p.hlu.relayLine = [] → exec .relayFrameSent s = nextWith s s.part) ∧
    (∀ x d y, p.hlu.relay = some x → x.deadline = some d → (p.time - d).toNat < 2 ^ 31 →
      p.oru.headReservation = some y →
      exec .relayTimeout s = nextWith s (Part.bump { p with
        hlu := { p.hlu with relay := none, relayLine := p.hlu.relayLine.map (fun f => { f with forSlot := false }) }
        oru := { p.oru with headReservation := none }
        rlu := { p.rlu with
          control := p.rlu.control ++ [.reply y.code y.tag .headTimeout [BitVec.ofNat 8 (x.head.val + 1)]]
          reservations := p.rlu.reservations - 1 } } .relayTimeouts)) ∧
    ((p.hlu.relay = none ∨ ∃ x, p.hlu.relay = some x ∧
        (x.deadline = none ∨ ∃ d, x.deadline = some d ∧ 2 ^ 31 ≤ (p.time - d).toNat)) →
      exec .relayTimeout s = nextWith s s.part)

/-! ## The encoders, ticks and the position -/

/-- ENCODER_STEP with no motion event due: no change of level is no event, a change of both levels is a quadrature error, and a change of one is a step, which moves its channel's window distance, clears its fault and, on the active channel, moves A, H, the route distance with its residue and the distance since last fix. That motion events come first is log 3, the fix validity test within the step log 6, the reversal mark log 15, the 64-bit limits of A log 26. -/
def Obligations.EncoderSteps : Prop :=
  ∀ (s : State) (c : Encoder) (a b : Bool),
    let p := s.part
    let x := p.odu.channel c
    let dist : Int := match c with
      | .e1 => p.oru.settings.stepE1
      | .e2 => p.oru.settings.stepE2
    let up : Bool := [(false, false, true, false), (true, false, true, true), (true, true, false, true),
      (false, true, false, false)].contains (x.phaseA, x.phaseB, a, b)
    let down : Bool := [(true, false, false, false), (true, true, true, false), (false, true, true, true),
      (false, false, false, true)].contains (x.phaseA, x.phaseB, a, b)
    let d : Int := if (up = true ↔ p.odu.sense = .aheadPositive) then dist else -dist
    let x1 : Channel := { phaseA := a, phaseB := b, faulted := false, zeroSteps := if x.faulted then 0 else x.zeroSteps,
                          window := x.window + d, stepped := true }
    let fine : Int := p.pfu.routeDistance * 1000 + p.odu.residue + (match p.odu.direction with | .up => d | .down => -d)
    p.resetHeld = false → p.odu.reversalDue = false → p.odu.high < p.odu.nextTick →
    (p.odu.channel (otherEncoder p.odu.active)).window < p.oru.settings.recordSpacing * 2000 →
    (a = x.phaseA → b = x.phaseB → exec (.encoderStep c a b) s = nextWith s s.part) ∧
    (a ≠ x.phaseA → b ≠ x.phaseB →
      exec (.encoderStep c a b) s = nextWith s (Part.bump { p with odu := p.odu.withChannel c { x with phaseA := a, phaseB := b } } (quadratureCounter c))) ∧
    (up = true ∨ down = true → c ≠ p.odu.active →
      exec (.encoderStep c a b) s = nextWith s ({ p with odu := p.odu.withChannel c x1 })) ∧
    (up = true ∨ down = true → c = p.odu.active →
      ∃ q, exec (.encoderStep c a b) s = nextWith s q ∧
        q = { p with odu := q.odu, pfu := q.pfu, evu := q.evu } ∧
        q.odu = { p.odu.withChannel c x1 with
          ahead := sat64 (p.odu.ahead + d)
          high := max p.odu.high (sat64 (p.odu.ahead + d))
          residue := q.odu.residue
          reversalDue := decide (d < 0 ∧
            (p.oru.settings.reversalDistance : Int) * 1000 ≤ max p.odu.high (sat64 (p.odu.ahead + d)) - sat64 (p.odu.ahead + d)) } ∧
        (p.pfu.position = .unset → q.pfu = p.pfu ∧ q.odu.residue = p.odu.residue ∧ q.evu = p.evu) ∧
        (p.pfu.position ≠ .unset →
          q.pfu.sinceFix = p.pfu.sinceFix.map (fun n => if 20000000000 < n then n else n + dist.natAbs) ∧
          q.pfu = { p.pfu with
            routeDistance := q.pfu.routeDistance, position := q.pfu.position, sinceFix := q.pfu.sinceFix
            lastPost := q.pfu.lastPost } ∧
          q.pfu.lastPost = p.pfu.lastPost.filter (fun post => decide (post.distance ≤ q.pfu.routeDistance)) ∧
          (-2147483648000 ≤ fine → fine ≤ 2147483647999 →
            q.pfu.routeDistance * 1000 + q.odu.residue = fine ∧ 0 ≤ q.odu.residue ∧ q.odu.residue ≤ 999 ∧
            q.evu = p.evu ∧
            q.pfu.position = (if p.pfu.position = .fixed ∧
                (∃ n, q.pfu.sinceFix = some n ∧ p.oru.settings.fixValidity * 1000000 < n) then .deadReckoned
              else p.pfu.position)) ∧
          (fine < -2147483648000 ∨ 2147483647999 < fine →
            q.pfu.routeDistance = (if fine < 0 then -2147483648 else 2147483647) ∧
            q.odu.residue = (if fine < 0 then 0 else 999) ∧
            q.evu = (p.bump .routeSaturations).evu ∧
            q.pfu.position = (match p.pfu.position with
              | .deadReckoned => .uncertain
              | .fixed => .uncertain
              | y => y))))

/-- Which sources a capture may use and the value it takes from them: a source is usable exactly when R28's four conditions hold; its holding value is the mean times the gain over 4096, toward zero, plus the offset; the standby serves only when the primary cannot. The mean of a channel position is worked out as its frame is held: the sum of its samples over their number, toward zero. The captured entry carries the values so chosen, and its flags tell of a standby's value, of a value from a SUSPECT head, and of a speed that is absent or below the minimum. -/
def Obligations.SourcesOfACapture : Prop :=
  (∀ (payload : List Byte) (channels samples c : Nat), c < channels → payload.length = 2 * (samples * channels) →
    channelMean payload channels samples c =
      (∑ t ∈ Finset.range samples,
        (payload.getD (2 * (t * channels + c)) 0 ++ payload.getD (2 * (t * channels + c) + 1) 0).toInt).tdiv samples) ∧
  ((∀ v, settingInRange 7 v = true ↔ v ≤ 500) ∧ haltedOnlySetting 7 = false ∧ State.reset.part.oru.settings.minSpeed = 50) ∧
  ∀ p : Part,
    (∀ (h : Head) (hd : Header) (payload : List Byte), ((p.holdSample h hd payload).hlu.heads[h]).held =
      some ⟨p.time, (List.range hd.channels).map (channelMean payload hd.channels hd.samples)⟩) ∧
    (∀ t : TickData,
      let e := p.entryOf t
      let taken : Fin 7 → Option Supplied := fun i => (p.channelValues t.speed)[i]
      (∀ i : Fin 7, e.channels[i] = (taken i).map (fun y => y.sample)) ∧
      (e.flags.belowMinSpeed = true ↔ t.speed = none ∨ ∃ v, t.speed = some v ∧ v < p.oru.settings.minSpeed) ∧
      (e.flags.standbyUsed = true ↔ ∃ i y, taken i = some y ∧ y.sample.mark = .standby) ∧
      (e.flags.suspectSource = true ↔ ∃ i y, taken i = some y ∧ (p.hlu.heads[y.source.head]).state = .suspect)) ∧
    (∀ x : Source, p.sourceUsable x = true ↔
      ((p.hlu.heads[x.head]).state = .qualified ∨ (p.hlu.heads[x.head]).state = .suspect) ∧
      (p.hlu.heads[x.head]).status.getLsbD 0 = false ∧
      ((p.hlu.heads[x.head]).held.isSome = true ∧ p.shu.freshness[x.head].isSome = true) ∧
      x.position.val < (p.oru.settings.shapes[x.head]).channels) ∧
    (∀ (x : Source) (f : HeldFrame) (mean : Int), (p.hlu.heads[x.head]).held = some f → f.means[x.position.val]? = some mean →
      p.holdingValue x = (mean * x.gain).tdiv 4096 + x.offset ∧
      (-32768 ≤ mean → mean ≤ 32767 → -32768 ≤ x.gain → x.gain ≤ 32767 → -32768 ≤ x.offset → x.offset ≤ 32767 →
        -294912 ≤ p.holdingValue x ∧ p.holdingValue x ≤ 294911)) ∧
    p.channelValue none = none ∧
    (∀ (x : Source) (t : Option Source), p.sourceUsable x = true →
      p.channelValue (some ⟨x, t⟩) = some ⟨⟨p.holdingValue x, .primary⟩, x⟩) ∧
    (∀ x y : Source, p.sourceUsable x = false → p.sourceUsable y = true →
      p.channelValue (some ⟨x, some y⟩) = some ⟨⟨p.holdingValue y, .standby⟩, y⟩) ∧
    (∀ x y : Source, p.sourceUsable x = false → p.sourceUsable y = false →
      p.channelValue (some ⟨x, some y⟩) = none ∧ p.channelValue (some ⟨x, none⟩) = none) ∧
    (∀ (speed : Option Nat) (i : Fin 7),
      (p.channelValues speed)[i] =
        if (2 ≤ i.val ∧ i.val ≤ 5) ∧ (speed = none ∨ ∃ v, speed = some v ∧ v < p.oru.settings.minSpeed) then none
        else p.channelValue p.shu.map[i])

/-- TICK, once H has reached the next tick boundary. In general a comparison, then one tick for each boundary that H has passed, a change of channel in the comparison included; each tick as tickDelivered says it: boundary, speed, Run Control, both advances, capture and emission. Field by field for a tick with no change of channel and no second boundary. The label and the section that a capture reads are those of R66 and R110. Before the boundary, nothing (log 1). The order of the raisings of one event is log 16, the 64-bit limits of A, H and the boundary log 26, the speeds of further ticks log 27, the counting of a fault again after a reversal log 31, of two posts at one distance log 37, the quotient of the speed log 42. -/
def Obligations.TickTaken : Prop :=
  ∀ s : State, s.part.resetHeld = false →
    let p := s.part
    let spacing := p.oru.settings.recordSpacing
    let zero : Channel → Channel → Channel := fun x y =>
      if x.stepped = false ∧ y.stepped = true then
        { x with zeroSteps := min (x.zeroSteps + 1) 4, faulted := x.faulted || decide (3 ≤ x.zeroSteps) }
      else if x.stepped = true then { x with zeroSteps := 0 } else x
    let act := zero (p.odu.channel p.odu.active) (p.odu.channel (otherEncoder p.odu.active))
    let oth := zero (p.odu.channel (otherEncoder p.odu.active)) (p.odu.channel p.odu.active)
    let slip : Bool := !oth.faulted && decide (p.oru.settings.slipLimit * 1000 < (act.window - oth.window).natAbs)
    let predicted : Bool := match p.odu.lastSpeed with
      | none => false
      | some v =>
        let e : Int := ((v.speed * (p.time - p.odu.lastComparison).toNat / 36 : Nat) : Int)
        decide ((oth.window - e).natAbs < (act.window - e).natAbs)
    let speed : Option Nat := match p.odu.history with
      | [] => none
      | oldest :: _ =>
        let dt := (p.time - oldest).toNat
        some (if dt = 0 then 5000 else min 5000 (p.odu.history.length * spacing * 36000 / dt))
    let posts : List Post := p.pfu.lastPost.toList ++ p.pfu.routeList.filterMap (fun e =>
      match e.kind with
      | .kpost km => some ⟨e.distance, km⟩
      | .marker _ _ => none)
    (p.pfu.position = .unset ∨ (∀ x ∈ posts, p.pfu.routeDistance < x.distance) → p.label = none) ∧
    (∀ x ∈ posts, p.pfu.position ≠ .unset → x.distance ≤ p.pfu.routeDistance →
      (∀ y ∈ posts, y.distance ≤ p.pfu.routeDistance → y.distance < x.distance ∨ y = x) →
      p.label = if 65535999 < p.pfu.routeDistance - x.distance then none
        else some ⟨x.kilometre, p.pfu.routeDistance - x.distance⟩) ∧
    (p.lmu.sections = [] → p.currentSection = none) ∧
    (∀ x l, p.lmu.sections = x :: l → p.odu.direction = .up →
      p.currentSection = if x.start ≤ p.pfu.routeDistance ∧ p.pfu.routeDistance < x.finish then some x else none) ∧
    (∀ x l, p.lmu.sections = x :: l → p.odu.direction = .down →
      p.currentSection = if p.pfu.routeDistance ≤ x.start ∧ x.finish < p.pfu.routeDistance then some x else none) ∧
    (p.odu.high < p.odu.nextTick → exec .tick s = nextWith s s.part) ∧
    (p.odu.nextTick ≤ p.odu.high → 250 ≤ spacing → p.OdometerPlaced →
      ∃ c q found, exec .tick s = nextWith s q ∧ p.Compared c found ∧ c.TicksMade q found) ∧
    (p.odu.nextTick ≤ p.odu.high → p.odu.high < satU64 (p.odu.nextTick + spacing * 1000) →
      (oth.faulted = true ∨ (act.faulted = false ∧ ¬ (slip = true ∧ predicted = true))) →
      ∃ q, exec .tick s = nextWith s q ∧
        q = { p with
          hlu := q.hlu, odu := q.odu, pfu := q.pfu, tru := q.tru, lmu := q.lmu, ext := q.ext, rnc := q.rnc
          rlu := q.rlu, evu := q.evu } ∧
        q.odu = { p.odu with
          e1 := { zero p.odu.e1 p.odu.e2 with window := 0, stepped := false }
          e2 := { zero p.odu.e2 p.odu.e1 with window := 0, stepped := false }
          lastComparison := p.time
          slipCarried := false
          nextTick := satU64 (p.odu.nextTick + spacing * 1000)
          history := if p.odu.history.length < 8 then p.odu.history ++ [p.time] else (p.odu.history ++ [p.time]).drop 1
          lastSpeed := speed.map (fun v => ⟨v, p.time⟩) } ∧
        (slip = true → q.flagSet .slip = true) ∧
        (p.rnc.runState = .halted → q.rnc = p.rnc ∧ q.tru = p.tru ∧ q.ext = p.ext) ∧
        (p.rnc.runState ≠ .halted →
          q.rnc = { p.rnc with
            runState := .measuring
            parkDeadline := some (p.time + BitVec.ofNat 32 (p.oru.settings.parkDelay * 1000)) } ∧
          q.tru.nextSeq = p.tru.nextSeq + 1 ∧ q.pfu.pendingCorrection = none) ∧
        (p.rnc.runState ≠ .parked → q.hlu = p.hlu) ∧
        (p.rnc.runState = .parked → q.flagSet .parkChange = true ∧
          q.hlu = { p.hlu with heads := q.hlu.heads } ∧
          ∀ h : Head, q.hlu.heads[h] =
            if (p.hlu.heads[h]).state = .absent then p.hlu.heads[h]
            else { p.hlu.heads[h] with
              watchdog := some (p.time + BitVec.ofNat 32 (2 * p.oru.settings.framePeriod)) }) ∧
        (p.pfu.position = .unset → q.pfu = { p.pfu with pendingCorrection := q.pfu.pendingCorrection } ∧ q.lmu = p.lmu))

/-- WATCH_POINT: not due, nothing (log 1); due, a comparison, whose slip is carried to the next tick, and one tick for each boundary that its change of channel carries H across. A faulted active channel, or a slip of which the other channel is strictly closer to the prediction, changes the active channel and moves A by the difference of the window distances; field by field where no boundary is passed. That a watch point stays due, and that a SET alone can bring it, is log 14; the order of the raisings of one event log 16, the 64-bit limits log 26, the speeds of further ticks log 27, the counting of a fault again after a reversal log 31, the quotient of the speed log 42. -/
def Obligations.WatchPointTaken : Prop :=
  ∀ s : State, s.part.resetHeld = false →
    let p := s.part
    let spacing := p.oru.settings.recordSpacing
    let zero : Channel → Channel → Channel := fun x y =>
      if x.stepped = false ∧ y.stepped = true then
        { x with zeroSteps := min (x.zeroSteps + 1) 4, faulted := x.faulted || decide (3 ≤ x.zeroSteps) }
      else if x.stepped = true then { x with zeroSteps := 0 } else x
    let act := zero (p.odu.channel p.odu.active) (p.odu.channel (otherEncoder p.odu.active))
    let oth := zero (p.odu.channel (otherEncoder p.odu.active)) (p.odu.channel p.odu.active)
    let slip : Bool := !oth.faulted && decide (p.oru.settings.slipLimit * 1000 < (act.window - oth.window).natAbs)
    let predicted : Bool := match p.odu.lastSpeed with
      | none => false
      | some v =>
        let e : Int := ((v.speed * (p.time - p.odu.lastComparison).toNat / 36 : Nat) : Int)
        decide ((oth.window - e).natAbs < (act.window - e).natAbs)
    let switch : Bool := !oth.faulted && (act.faulted || (slip && predicted))
    let d : Int := if switch = true then oth.window - act.window else 0
    let high := if switch = true then max p.odu.high (sat64 (p.odu.ahead + d)) else p.odu.high
    let fine : Int := p.pfu.routeDistance * 1000 + p.odu.residue + (match p.odu.direction with | .up => d | .down => -d)
    (oth.window < spacing * 2000 ∨ p.odu.nextTick ≤ p.odu.high → exec .watchPoint s = nextWith s s.part) ∧
    ((spacing : Int) * 2000 ≤ oth.window → p.odu.high < p.odu.nextTick → 250 ≤ spacing → p.OdometerPlaced →
      ∃ c q found, exec .watchPoint s = nextWith s q ∧ p.Compared c found ∧
        Part.TicksMade { c with odu := { c.odu with slipCarried := p.odu.slipCarried || found } } q found) ∧
    ((spacing : Int) * 2000 ≤ oth.window → p.odu.high < p.odu.nextTick → high < p.odu.nextTick →
      ∃ q, exec .watchPoint s = nextWith s q ∧
        q = { p with odu := q.odu, pfu := q.pfu, rlu := q.rlu, evu := q.evu } ∧
        q.odu = { p.odu with
          active := if switch = true then otherEncoder p.odu.active else p.odu.active
          e1 := { zero p.odu.e1 p.odu.e2 with window := 0, stepped := false }
          e2 := { zero p.odu.e2 p.odu.e1 with window := 0, stepped := false }
          lastComparison := p.time
          slipCarried := p.odu.slipCarried || slip
          ahead := if switch = true then sat64 (p.odu.ahead + d) else p.odu.ahead
          high := high
          residue := q.odu.residue } ∧
        q.rlu = { p.rlu with control := q.rlu.control } ∧ p.NoticesJoined q ∧
        p.Raised q (if slip = true then [.slip] else []) ∧
        q.counter .slips = (if slip = true then counterUp 1 (p.counter .slips) else p.counter .slips) ∧
        q.counter .channelSwitches =
          (if switch = true then counterUp 1 (p.counter .channelSwitches) else p.counter .channelSwitches) ∧
        (switch = false → q.pfu = p.pfu ∧ q.odu.residue = p.odu.residue) ∧
        (p.pfu.position = .unset → q.pfu = p.pfu ∧ q.odu.residue = p.odu.residue) ∧
        (switch = true → p.pfu.position ≠ .unset → -2147483648000 ≤ fine → fine ≤ 2147483647999 →
          q.pfu.routeDistance * 1000 + q.odu.residue = fine ∧ 0 ≤ q.odu.residue ∧ q.odu.residue ≤ 999))

/-- REVERSAL, once a step back has brought it due: the direction, the sense, the origin, the speed, the windows and the counts as R49 says; the faulted marks, the active channel, the route distance and the residue stay; both look-ahead lists are emptied; in MEASURING and PARKED the trace window is flushed, each waiting entry emitted in order; then every active slot is finalised in the order of opening, with CUT_REVERSAL where it was OPEN or CLOSING, and every latch cleared. Not due, nothing (log 1). The mark that brings it due is log 15, the order of opening log 20. The order of the raisings of one event is log 16. -/
def Obligations.ReversalTaken : Prop :=
  ∀ s : State, s.part.resetHeld = false →
    let p := s.part
    (p.odu.reversalDue = false → exec .reversal s = nextWith s s.part) ∧
    (p.odu.reversalDue = true →
      ∃ q, exec .reversal s = nextWith s q ∧
        q = { p with
          odu := q.odu, pfu := q.pfu, tru := q.tru, lmu := q.lmu, ext := q.ext, rlu := q.rlu, evu := q.evu } ∧
        q.odu = { p.odu with
          direction := match p.odu.direction with | .up => .down | .down => .up
          sense := match p.odu.sense with | .aheadPositive => .aheadNegative | .aheadNegative => .aheadPositive
          e1 := { p.odu.e1 with window := 0, stepped := false, zeroSteps := 0 }
          e2 := { p.odu.e2 with window := 0, stepped := false, zeroSteps := 0 }
          lastComparison := p.time
          slipCarried := false
          ahead := 0
          high := 0
          nextTick := p.oru.settings.recordSpacing * 1000
          history := []
          lastSpeed := none
          reversalDue := false } ∧
        q.pfu = { p.pfu with routeList := [], lowArmed := false, lastPost := none } ∧
        q.lmu = { p.lmu with sections := [], lowArmed := false } ∧
        (p.rnc.runState = .measuring ∨ p.rnc.runState = .parked →
          q.tru = { p.tru with window := [], segStart := none, nextEmit := none }) ∧
        (p.rnc.runState = .halted ∨ p.rnc.runState = .armed → q.tru = p.tru) ∧
        (∀ n : SlotNo, (q.ext.slots[n]).isActive = false) ∧
        (∀ k : Pair, (q.ext.latches[k]).isSet = false ∧ (q.ext.latches[k]).urgentRaised = false) ∧
        q.flagSet .reversal = true ∧
        q.counter .reversals = counterUp 1 (p.counter .reversals) ∧
        q.counter .cuts = counterUp 1 (p.counter .cuts) ∧
        let raised := (p.bump .reversals).raise .reversal
        let turned : Part := { raised with odu := q.odu, pfu := q.pfu, lmu := q.lmu }
        let flushed := if p.rnc.runState = .measuring ∨ p.rnc.runState = .parked then turned.flushed else turned
        ∃ order, flushed.OpeningOrder order ∧
          q = flushed.cutThrough (fun f => { f with cutReversal := true }) order)

/-- HISTORY_EXPIRY empties the speed history 2^31 µs after its newest time. FIX_VALIDITY_EXCEEDED makes a FIXED position DEAD_RECKONED beyond the fix validity distance. PARK_TIMER_EXPIRY in MEASURING, once the time counter has reached the deadline: PARKED, the timer and every watchdog stopped, the speed history emptied, PARK_CHANGE raised, and the trace window, the slots and the latches held. Each does nothing before (log 1). The validity test as a command is log 6. -/
def Obligations.TimersAndDistancesExpire : Prop :=
  ∀ s : State, s.part.resetHeld = false →
    let p := s.part
    (∀ t, p.odu.history.getLast? = some t → 2 ^ 31 ≤ (p.time - t).toNat →
      exec .historyExpiry s = nextWith s ({ p with odu := { p.odu with history := [], lastSpeed := none } })) ∧
    ((p.odu.history = [] ∨ ∃ t, p.odu.history.getLast? = some t ∧ (p.time - t).toNat < 2 ^ 31) →
      exec .historyExpiry s = nextWith s s.part) ∧
    (∀ n, p.pfu.position = .fixed → p.pfu.sinceFix = some n → p.oru.settings.fixValidity * 1000000 < n →
      exec .fixValidityExceeded s = nextWith s ({ p with pfu := { p.pfu with position := .deadReckoned } })) ∧
    ((p.pfu.position ≠ .fixed ∨ p.pfu.sinceFix = none ∨
        ∃ n, p.pfu.sinceFix = some n ∧ n ≤ p.oru.settings.fixValidity * 1000000) →
      exec .fixValidityExceeded s = nextWith s s.part) ∧
    (∀ d, p.rnc.runState = .measuring → p.rnc.parkDeadline = some d → (p.time - d).toNat < 2 ^ 31 →
      ∃ q, exec .parkTimerExpiry s = nextWith s q ∧
        q = { p with hlu := q.hlu, odu := q.odu, rnc := q.rnc, rlu := q.rlu, evu := q.evu } ∧
        q.rnc = { p.rnc with runState := .parked, parkDeadline := none } ∧
        q.hlu = { p.hlu with heads := q.hlu.heads } ∧
        (∀ h : Head, q.hlu.heads[h] = { p.hlu.heads[h] with watchdog := none }) ∧
        q.odu = { p.odu with history := [], lastSpeed := none } ∧
        q.rlu = { p.rlu with control := q.rlu.control } ∧ p.NoticesJoined q ∧
        q.counter .parks = counterUp 1 (p.counter .parks) ∧
        p.CountersKeptBut q [.parks, .statusSent, .noticesLost] ∧ p.Raised q [.parkChange]) ∧
    ((p.rnc.runState ≠ .measuring ∨ p.rnc.parkDeadline = none ∨
        ∃ d, p.rnc.parkDeadline = some d ∧ 2 ^ 31 ≤ (p.time - d).toNat) →
      exec .parkTimerExpiry s = nextWith s s.part)

/-- CLOSE_LENGTH_REACHED and MERGE_GAP_EXCEEDED: a CLOSING slot goes to HELD at the close length, and a slot whose records since end exceed the merge gap is finalised: discarded as short, placed in the XR queue, or PENDING; the report that it is placed with has the fields of R141. Not due, or in PARKED, where these counts stand still (R157), nothing (log 1). That these commands stand for the record that completes the count is log 5. -/
def Obligations.SlotClosesAndFinalises : Prop :=
  (∀ (ex : Exceedance) (run : BitVec 16), ex.report run = {
    runNumber := run, serial := ex.serial, param := ex.param, polarity := ex.polarity, grade := ex.grade
    startSeq := ex.startSeq, startRoute := ex.startRoute, endSeq := ex.endSeq, endRoute := ex.endRoute
    length := (ex.endSeq - ex.startSeq + 1).toNat
    peak := ex.peak, startLabel := ex.startLabel, merges := ex.merges
    correction := if ex.correction = 0 then none else some ex.correction
    flags := ex.flags, positionCorrected := decide (ex.correction ≠ 0) }) ∧
  ∀ (s : State) (n : SlotNo) (ex : Exceedance), s.part.resetHeld = false →
    let p := s.part
    let c := ex.clearCount + 1
    let short : Exceedance → Bool := fun e =>
      decide ((e.endSeq - e.startSeq + 1).toNat < (p.limitRow e.peak.cls e.param).minLength) && decide (e.grade < 3)
    let put : SlotHold → Ext := fun hold => { p.ext with slots := p.ext.slots.set n ⟨hold, (p.ext.slots[n]).urgentOwed⟩ }
    let finalised : Exceedance → Part := fun e =>
      if short e = true then Part.bump { p with ext := put .free } .shortDiscards
      else if p.rlu.xr.length < 32 then
        Part.bump { p with ext := put .free, rlu := { p.rlu with xr := p.rlu.xr ++ [e.report p.rnc.runNumber] } } .reportsPlaced
      else
        Part.bump { p with ext := { put (.pending e (e.report p.rnc.runNumber)) with
          pendingList := p.ext.pendingList ++ [n] } } .pendings
    (p.rnc.runState = .parked →
      exec (.closeLengthReached n) s = nextWith s s.part ∧ exec (.mergeGapExceeded n) s = nextWith s s.part) ∧
    (p.rnc.runState ≠ .parked → (p.ext.slots[n]).hold = .active .closing ex →
      (c < p.oru.settings.closeLength → exec (.closeLengthReached n) s = nextWith s s.part) ∧
      (p.oru.settings.closeLength ≤ c → c ≤ p.oru.settings.mergeGap →
        exec (.closeLengthReached n) s =
          nextWith s ({ p with ext := put (.active .held { ex with clearCount := c, sinceEnd := c }) })) ∧
      (p.oru.settings.closeLength ≤ c → p.oru.settings.mergeGap < c →
        exec (.closeLengthReached n) s = nextWith s (finalised { ex with clearCount := c, sinceEnd := c }))) ∧
    (p.rnc.runState ≠ .parked → (p.ext.slots[n]).hold = .active .held ex →
      (ex.sinceEnd + 1 ≤ p.oru.settings.mergeGap → exec (.mergeGapExceeded n) s = nextWith s s.part) ∧
      (p.oru.settings.mergeGap < ex.sinceEnd + 1 →
        exec (.mergeGapExceeded n) s = nextWith s (finalised { ex with sinceEnd := ex.sinceEnd + 1 }))) ∧
    ((∀ e, (p.ext.slots[n]).hold ≠ .active .closing e) → exec (.closeLengthReached n) s = nextWith s s.part) ∧
    ((∀ e, (p.ext.slots[n]).hold ≠ .active .held e) → exec (.mergeGapExceeded n) s = nextWith s s.part)

/-! ## Records, the tracker and the GR queue -/

/-- The derivation of an emit entry's parameters, by the tests of R90 in their order: suppressed ones absent as SUPPRESSED; those with a missing point, a twist's far point or an end of a chord, absent as INCOMPLETE_CHORD; those with an absent channel value absent as NO_INPUT; else GAUGE, XLEVEL, the twists and the versines, saturated to ±32767 and graded with the row of the entry's class. A versine whose three values do not carry one source mark marks the record. The rest of the record is the emit entry's. -/
def Obligations.ParametersDerived : Prop :=
  ∀ (p : Part) (e : TraceEntry),
    let st := p.oru.settings
    let i := e.seq
    let r := p.emitted e
    let sat : Int → Int := fun z => max (-32767) (min 32767 z)
    let measured : Param → Bool := fun q => !e.suppressed.getLsbD q.val
    let given : Param → Int → Prop := fun q z => r.values[q] = .present (sat z) ((p.limitRow e.cls q).grade (sat z))
    let sample : Seq → Fin 7 → Sample → Prop := fun x c v => ∃ y, p.tru.entryAt x = some y ∧ y.channels[c] = some v
    let value : Seq → Fin 7 → Int → Prop := fun x c v => ∃ m, sample x c ⟨v, m⟩
    let versines : List (Param × Fin 7 × Seq) :=
      [(4, 2, BitVec.ofNat 32 (st.chordLevel / 2)), (5, 3, BitVec.ofNat 32 (st.chordLevel / 2)),
        (6, 4, BitVec.ofNat 32 (st.chordAlign / 2)), (7, 5, BitVec.ofNat 32 (st.chordAlign / 2))]
    let uses : List (Param × List (Seq × Fin 7)) :=
      [(0, [(i, 0), (i, 1)]), (1, [(i, 6)]), (2, [(i, 6), (i - BitVec.ofNat 32 st.twistShort, 6)]),
        (3, [(i, 6), (i - BitVec.ofNat 32 st.twistLong, 6)])] ++
      versines.map (fun x => (x.1, [(i, x.2.1), (i - x.2.2, x.2.1), (i + x.2.2, x.2.1)]))
    (r.seq = e.seq ∧ r.route = e.route ∧ r.label = e.label ∧ r.position = e.position ∧ r.cls = e.cls ∧
      r.sectionLabel = e.sectionLabel ∧ r.suspectSource = e.flags.suspectSource) ∧
    (∀ q : Param, measured q = false → r.values[q] = .absent .suppressed) ∧
    (∀ a b, measured 0 = true → value i 0 a → value i 1 b → given 0 (st.gaugeBase + a + b - st.nominalGauge)) ∧
    (∀ a, measured 1 = true → value i 6 a → given 1 (a - e.cant)) ∧
    (∀ a b, measured 2 = true → value i 6 a → value (i - BitVec.ofNat 32 st.twistShort) 6 b → given 2 (a - b)) ∧
    (∀ a b, measured 3 = true → value i 6 a → value (i - BitVec.ofNat 32 st.twistLong) 6 b → given 3 (a - b)) ∧
    (∀ x ∈ versines, measured x.1 = true → ∀ a b c,
      value i x.2.1 a → value (i - x.2.2) x.2.1 b → value (i + x.2.2) x.2.1 c →
        given x.1 (a - (b + c).tdiv 2)) ∧
    (∀ x ∈ uses, measured x.1 = true →
      ((∃ y ∈ x.2, p.tru.entryAt y.1 = none) → r.values[x.1] = .absent .incompleteChord) ∧
      ((∀ y ∈ x.2, p.tru.entryAt y.1 ≠ none) →
        (∃ y ∈ x.2, ∃ t, p.tru.entryAt y.1 = some t ∧ t.channels[y.2] = none) → r.values[x.1] = .absent .noInput)) ∧
    (r.sourceSwitch = true ↔ ∃ x ∈ versines, measured x.1 = true ∧ ∃ a b c,
      sample i x.2.1 a ∧ sample (i - x.2.2) x.2.1 b ∧ sample (i + x.2.2) x.2.1 c ∧ (b.mark ≠ a.mark ∨ c.mark ≠ a.mark))

/-- What one pair makes of a record. Its active slot goes through OPEN, CLOSING and HELD by the tables of R132 and R133, is finalised at the merge gap, and at an absent value with the cut flag of its cause unless it is HELD (R134). A contributing record moves the end, the peak, the grade and the flags, and one that first reaches grade 3 makes an urgent notice due (R131, R144). A pair without slot and latch opens the lowest available slot, or sets its latch and raises SLOT_OVERFLOW where none is available (R129, R130). A set latch holds, marks the record UNTRACKED, makes one urgent notice, and clears on an inside or absent value (R135, R145). What an opening fills the slot with (R129) and what an urgent notice carries (R146) is given field by field, and which parameter and polarity make up each pair. That SLOT_OVERFLOW's notice comes before the urgent notice of its latch is log 16. -/
def Obligations.PairTakesRecord : Prop :=
  ∀ (p : Part) (k : Pair) (r : Emitted),
    let q := (p.judgePair k r).1
    let marked := (p.judgePair k r).2
    let put : SlotNo → SlotHold → Part := fun n hold =>
      { p with ext := { p.ext with slots := p.ext.slots.set n ⟨hold, (p.ext.slots[n]).urgentOwed⟩ } }
    let latched : Latch → Part := fun l => { p with ext := { p.ext with latches := p.ext.latches.set k l } }
    let cleared : Part := latched { p.ext.latches[k] with isSet := false, urgentRaised := false }
    let unheld : Prop := ∀ n : SlotNo, (p.ext.slots[n]).hold.activeFor k = false
    ((pairParam k).val = k.val / 2 ∧ pairPolarity k = if k.val % 2 = 0 then .plus else .minus) ∧
    (∀ (serial : Nat) (v : Int) (g : Nat), r.opening k serial v g = {
      serial := serial, param := pairParam k, polarity := pairPolarity k
      startSeq := r.seq, startRoute := r.route, startClass := r.cls, startLabel := r.sectionLabel
      endSeq := r.seq, endRoute := r.route
      peak := { value := v, seq := r.seq, route := r.route, label := r.label, position := r.position, cls := r.cls }
      grade := g, merges := 0, clearCount := 0, sinceEnd := 0, correction := 0
      flags := {
        cutInput := false, cutSuppress := false, cutReversal := false, cutStop := false, cutJump := false
        classChanged := false, sourceMixed := r.sourceSwitch, suspectSource := r.suspectSource
        positionDoubtful := decide (r.position = .uncertain ∨ r.position = .lost), urgentSent := false } }) ∧
    (∀ (v : Int) (g : Nat) (serial : Option Nat), r.notice k v g serial = {
      param := pairParam k, polarity := pairPolarity k, value := v, grade := g
      seq := r.seq, route := r.route, label := r.label, serial := serial, position := r.position }) ∧
    (∀ cause, r.values[pairParam k] = .absent cause →
      (∀ (n : SlotNo) (ph : SlotPhase) (ex : Exceedance), p.OneSlotPerPair → (p.ext.slots[n]).hold = .active ph ex →
        ex.param = pairParam k → ex.polarity = pairPolarity k →
        marked = false ∧ q = p.finalisedIn n (match ph with
          | .held => ex
          | _ => { ex with flags := match cause with
            | .suppressed => { ex.flags with cutSuppress := true }
            | _ => { ex.flags with cutInput := true } })) ∧
      (unheld → marked = false ∧ q = if (p.ext.latches[k]).isSet = true then cleared else p)) ∧
    (∀ (v : Int) (g : Nat), r.values[pairParam k] = .present v g →
      let own : Prop := match pairPolarity k with | .plus => 0 < v | .minus => v < 0
      let inside : Prop := ¬ own ∨ (v.natAbs : Int) < (p.limitRow r.cls (pairParam k)).releaseLevel (pairPolarity k)
      (∀ (n : SlotNo) (ph : SlotPhase) (ex : Exceedance), p.OneSlotPerPair → (p.ext.slots[n]).hold = .active ph ex →
        ex.param = pairParam k → ex.polarity = pairPolarity k →
        let closes : Nat → Part := fun c =>
          if c < p.oru.settings.closeLength then put n (.active .closing { ex with clearCount := c })
          else if c ≤ p.oru.settings.mergeGap then put n (.active .held { ex with clearCount := c, sinceEnd := c })
          else p.finalisedIn n { ex with clearCount := c, sinceEnd := c }
        let contributes : Exceedance → Part := fun x =>
          let q1 := put n (.active .opened { x with
            endSeq := r.seq
            endRoute := r.route
            peak := if x.peak.value.natAbs < v.natAbs then
                { value := v, seq := r.seq, route := r.route, label := r.label, position := r.position, cls := r.cls }
              else x.peak
            grade := max x.grade g
            flags := { x.flags with
              sourceMixed := x.flags.sourceMixed || r.sourceSwitch
              suspectSource := x.flags.suspectSource || r.suspectSource
              positionDoubtful := x.flags.positionDoubtful || decide (r.position = .uncertain ∨ r.position = .lost)
              classChanged := x.flags.classChanged || decide (r.cls ≠ x.startClass) } })
          if x.grade < 3 ∧ 3 ≤ g then q1.urgentOffered (.slot n) (r.notice k v g (some x.serial)) else q1
        marked = false ∧
        (ph = .opened → inside → q = closes 1) ∧
        (ph = .opened → ¬ inside → q = contributes ex) ∧
        (ph = .closing → inside → q = closes (ex.clearCount + 1)) ∧
        (ph = .closing → ¬ inside → q = contributes { ex with clearCount := 0 }) ∧
        (ph = .held → own → 1 ≤ g →
          q = contributes { ex with merges := min (ex.merges + 1) 65535, clearCount := 0, sinceEnd := 0 }) ∧
        (ph = .held → ¬ own ∨ g = 0 → ex.sinceEnd + 1 ≤ p.oru.settings.mergeGap →
          q = put n (.active .held { ex with sinceEnd := ex.sinceEnd + 1 })) ∧
        (ph = .held → ¬ own ∨ g = 0 → p.oru.settings.mergeGap < ex.sinceEnd + 1 →
          q = p.finalisedIn n { ex with sinceEnd := ex.sinceEnd + 1 })) ∧
      (unheld → (p.ext.latches[k]).isSet = true →
        (own → 1 ≤ g → marked = true ∧ q = if 3 ≤ g ∧ (p.ext.latches[k]).urgentRaised = false then
            (latched { p.ext.latches[k] with urgentRaised := true }).urgentOffered (.latch k) (r.notice k v g none)
          else p) ∧
        (¬ own ∨ g = 0 → marked = false ∧ (inside → q = cleared) ∧ (¬ inside → q = p))) ∧
      (unheld → (p.ext.latches[k]).isSet = false →
        (¬ own ∨ g = 0 → marked = false ∧ q = p) ∧
        (∀ n : SlotNo, own → 1 ≤ g → p.ext.slots[n] = ⟨.free, false⟩ →
          (∀ m : SlotNo, m < n → p.ext.slots[m] ≠ ⟨.free, false⟩) →
          let q1 := Part.bump { p with ext := { p.ext with
            slots := p.ext.slots.set n ⟨.active .opened (r.opening k p.ext.nextSerial v g), false⟩
            nextSerial := if p.ext.nextSerial = 4294967295 then 1 else p.ext.nextSerial + 1 } } .opened
          marked = false ∧
          q = if 3 ≤ g then q1.urgentOffered (.slot n) (r.notice k v g (some p.ext.nextSerial)) else q1) ∧
        (own → 1 ≤ g → (∀ n : SlotNo, p.ext.slots[n] ≠ ⟨.free, false⟩) →
          let q1 := ((latched { p.ext.latches[k] with isSet := true, urgentRaised := false }).bump .slotOverflows).raise
            .slotOverflow
          marked = true ∧
          q = if 3 ≤ g then
              Part.urgentOffered { q1 with ext := { q1.ext with
                latches := q1.ext.latches.set k { q1.ext.latches[k] with urgentRaised := true } } }
                (.latch k) (r.notice k v g none)
            else q1)))

/-- A Geometry Record offered to the GR queue: it joins the tail where the queue holds fewer than 64; at 64 the oldest that is not in transmission is dropped, its dropped-before count plus 1 goes to the next one of the same run, the drop is counted and GR_DROPPED is raised. The GR dropped count stays at 2^32 - 1 (log 44). -/
def Obligations.GeometryRecordOffered : Prop :=
  ∀ (p : Part) (g : GeometryRecord),
    let q := p.offerGr g
    let carried : GeometryRecord → GeometryRecord → GeometryRecord := fun d x =>
      if x.run = d.run then { x with droppedBefore := min (x.droppedBefore + (d.droppedBefore + 1)) 4294967295 } else x
    let dropped : GeometryRecord → List GeometryRecord → Prop := fun d l =>
      q = { p with rlu := q.rlu, evu := q.evu } ∧
      q.rlu = { p.rlu with
        control := q.rlu.control
        gr := l
        grDropped := if d.run = p.rnc.runIndex then counterUp 1 p.rlu.grDropped else p.rlu.grDropped } ∧
      p.NoticesJoined q ∧ q.counter .grDrops = counterUp 1 (p.counter .grDrops) ∧
      p.CountersKeptBut q [.grDrops, .statusSent, .noticesLost] ∧ p.Raised q [.grDropped]
    (p.rlu.gr.length < 64 → q = { p with rlu := { p.rlu with gr := p.rlu.gr ++ [g] } }) ∧
    (∀ d x l, p.rlu.gr = d :: x :: l → 62 ≤ l.length → p.rlu.sendingGr = false →
      dropped d (carried d x :: l ++ [g])) ∧
    (∀ h d x l, p.rlu.gr = h :: d :: x :: l → 61 ≤ l.length → p.rlu.sendingGr = true →
      dropped d (h :: carried d x :: l ++ [g]))

/-! ## The recorder link -/

/-- The states of the recorder link: DOWN to HUNT at a character, HUNT to UP after 64 IDLE characters, the idle tally and the code violations of UP, and the going DOWN at a loss of signal or at the error threshold, with the cut of a frame in transmission. That RECORDER_LINK_UP does nothing where it is not due is log 1, that a character or a loss of signal after the 64th IDLE finds the link UP log 3, that the silence is a command log 21. -/
def Obligations.RecorderLinkStates : Prop :=
  ∀ (s : State) (line : BitVec 10), s.part.resetHeld = false →
    let p := s.part
    let p0 : Part := if lineCharOf line = .violation then p.bump .recorderCodeViolations else p
    (p.rlu.link = .down →
      exec (.recorderLinkCharacter line) s = nextWith s ({ p0 with rlu := { p.rlu with
        link := .hunt, idleRun := if lineCharOf line = .idle then 1 else 0 } })) ∧
    (p.rlu.link = .hunt → p.rlu.idleRun < 64 →
      exec (.recorderLinkCharacter line) s = nextWith s ({ p0 with rlu := { p.rlu with
        idleRun := if lineCharOf line = .idle then p.rlu.idleRun + 1 else 0 } })) ∧
    (p.rlu.link = .hunt → 64 ≤ p.rlu.idleRun →
      exec .recorderLinkUp s = nextWith s ({ p with rlu := { p.rlu with
        link := .up, idleRun := 0, idleTally := 0 } })) ∧
    (p.rlu.link ≠ .hunt ∨ p.rlu.idleRun < 64 → exec .recorderLinkUp s = nextWith s s.part) ∧
    (p.rlu.link = .hunt → 64 ≤ p.rlu.idleRun →
      exec (.recorderLinkCharacter line) s =
        exec (.recorderLinkCharacter line) { s with part := { p with rlu := { p.rlu with
          link := .up, idleRun := 0, idleTally := 0 } } }) ∧
    (p.rlu.link = .up → lineCharOf line = .idle →
      exec (.recorderLinkCharacter line) s = nextWith s ({ p with rlu := { p.rlu with
        idleTally := if p.rlu.idleTally = 255 then 0 else p.rlu.idleTally + 1
        linkErrors := if p.rlu.idleTally = 255 then p.rlu.linkErrors - 1 else p.rlu.linkErrors } })) ∧
    (p.rlu.link = .up → p.rlu.rx = none → lineCharOf line = .violation →
      min (p.rlu.linkErrors + 1) 63 < p.oru.settings.recorderErrorThreshold →
      exec (.recorderLinkCharacter line) s = nextWith s ({ p0 with rlu := { p.rlu with
        linkErrors := min (p.rlu.linkErrors + 1) 63 } })) ∧
    (p.rlu.link = .up → p.rlu.rx = none → lineCharOf line = .violation →
      p.oru.settings.recorderErrorThreshold ≤ min (p.rlu.linkErrors + 1) 63 →
      exec (.recorderLinkCharacter line) s = nextWith s p0.linkDowned) ∧
    (p.rlu.link = .up → p.rlu.rx = none →
      (lineCharOf line = .frameStart →
        exec (.recorderLinkCharacter line) s = nextWith s ({ p with rlu := { p.rlu with rx := some [] } })) ∧
      (lineCharOf line = .frameEnd ∨ (∃ b, lineCharOf line = .data b) →
        exec (.recorderLinkCharacter line) s = nextWith s p)) ∧
    (p.rlu.link ≠ .down →
      let p1 : Part := if p.rlu.tx = none then p else p.bump .framesCut
      exec .recorderLossOfSignal s = nextWith s (Part.bump { p1 with rlu := { p.rlu with
          link := .down, linkErrors := 0, idleRun := 0, idleTally := 0, rx := none, credits := 0, tx := none } } .linkDowns)) ∧
    (p.rlu.link = .down → exec .recorderLossOfSignal s = nextWith s s.part)

/-- ORDER_FRAME and UNKNOWN_KIND in UP: a frame that passes its check lowers the link error count; an order body of two bytes or more joins the inbound order buffer or is dropped where that holds four, a shorter one is malformed, a frame of another kind is counted. A frame whose CRC does not match is a check failure, and so are the other faults, character by character: a FRAME START or a code violation inside a frame, a FRAME END before the length or with another CRC, a length above 1024, a data character beyond the length. Each check failure adds a link error, which takes the link DOWN at its threshold. -/
def Obligations.InboundFrames : Prop :=
  (∀ (s : State) (line : BitVec 10) (bytes : List Byte), s.part.resetHeld = false → s.part.rlu.link = .up →
    s.part.rlu.rx = some bytes →
    let p := s.part
    let size : List Byte → Nat := fun l => natOfBytes ((l.drop 1).take 2)
    let failed : Part → Option (List Byte) → Host.Outcome State Fault Refusal := fun q after =>
      nextWith s ((q.bump .checkFailures).linkErred after)
    (lineCharOf line = .frameStart → exec (.recorderLinkCharacter line) s = failed p (some [])) ∧
    (lineCharOf line = .violation →
      exec (.recorderLinkCharacter line) s = failed (p.bump .recorderCodeViolations) none) ∧
    (lineCharOf line = .frameEnd →
      bytes.length < 3 ∨ bytes.length ≠ 5 + size bytes ∨
        crcBytes (bytes.take (bytes.length - 2)) ≠ bytes.drop (bytes.length - 2) →
      exec (.recorderLinkCharacter line) s = failed p none) ∧
    (∀ b, lineCharOf line = .data b →
      let l := bytes ++ [b]
      (3 ≤ l.length ∧ (1024 < size l ∨ 5 + size l < l.length) →
        exec (.recorderLinkCharacter line) s = failed p none) ∧
      (l.length < 3 ∨ (size l ≤ 1024 ∧ l.length ≤ 5 + size l) →
        exec (.recorderLinkCharacter line) s = nextWith s ({ p with rlu := { p.rlu with rx := some l } })))) ∧
  ∀ (s : State) (chars : List LineChar) (body : List Byte), s.part.resetHeld = false → s.part.rlu.link = .up →
    s.part.rlu.rx = none → body.length ≤ 1024 →
    let p := s.part.afterIdles (idlesIn chars)
    let p1 : Part := { p with rlu := { p.rlu with linkErrors := p.rlu.linkErrors - 1 } }
    (Carries chars (outboundBytes 16 body) →
      (body.length < 2 → exec (.orderFrame chars) s = nextWith s (p1.bump .malformedOrders)) ∧
      (2 ≤ body.length → p.oru.buffer.length < 4 →
        exec (.orderFrame chars) s =
          nextWith s ({ p1 with oru := { p.oru with buffer := p.oru.buffer ++ [body] } })) ∧
      (2 ≤ body.length → 4 ≤ p.oru.buffer.length →
        exec (.orderFrame chars) s = nextWith s ((p1.bump .orderOverruns).raise .orderOverrun))) ∧
    (∀ kind, kind < 256 → kind ≠ 16 → kind ≠ 17 → Carries chars (outboundBytes kind body) →
      exec (.unknownKind chars) s = nextWith s (p1.bump .unknownKinds)) ∧
    (∀ (c : Instr) (kind : Byte) (crc : List Byte), c ∈ [Instr.orderFrame chars, .creditFrame chars, .unknownKind chars] →
      Carries chars (kind :: bytesOfNat 2 body.length ++ body ++ crc) → crc.length = 2 →
      crc ≠ crcBytes (kind :: bytesOfNat 2 body.length ++ body) →
      exec c s = nextWith s ((p.bump .checkFailures).linkErred none))

/-- CREDIT_FRAME in UP: the value is added to the credit count up to 255, and the part that does not fit to the credit excess counter. For a body that is not one byte the credit is a free value (log 38). -/
def Obligations.CreditFrames : Prop :=
  ∀ (s : State) (chars : List LineChar) (body : List Byte), s.part.resetHeld = false → s.part.rlu.link = .up →
    s.part.rlu.rx = none → body.length ≤ 1024 → Carries chars (outboundBytes 17 body) →
    let p := s.part.afterIdles (idlesIn chars)
    let v : Nat := match body with
      | [b] => b.toNat
      | l => (Config.oddCredit l).toNat
    exec (.creditFrame chars) s = nextWith s (Part.bumpBy { p with rlu := { p.rlu with
        linkErrors := p.rlu.linkErrors - 1
        credits := min (p.rlu.credits + v) 255 } } .creditExcess (p.rlu.credits + v - 255))

/-- ARBITER_START in UP with a credit and no frame in transmission: one credit is spent on the head of the first queue that is not empty, in the order control, XR, GR, mirror, in its envelope; otherwise nothing (log 1). -/
def Obligations.ArbiterStarts : Prop :=
  ∀ s : State, s.part.resetHeld = false →
    let p := s.part
    let started : QueueId → Nat → List Byte → Part := fun q kind body =>
      Part.bump { p with rlu := { p.rlu with
        credits := p.rlu.credits - 1
        tx := some ⟨q, outboundBytes kind body, 0, false⟩ } } .framesStarted
    (p.rlu.link = .up → p.rlu.tx = none → 1 ≤ p.rlu.credits →
      (∀ f l, p.rlu.control = f :: l →
        exec .arbiterStart s = nextWith s (started .control (match f with | .urgent _ => 3 | .status _ _ _ _ => 4 | .reply _ _ _ _ => 5) f.body)) ∧
      (∀ x l, p.rlu.control = [] → p.rlu.xr = x :: l →
        exec .arbiterStart s = nextWith s (started .xr 2 x.body)) ∧
      (∀ g l, p.rlu.control = [] → p.rlu.xr = [] → p.rlu.gr = g :: l →
        exec .arbiterStart s = nextWith s (started .gr 1 g.body)) ∧
      (∀ m l, p.rlu.control = [] → p.rlu.xr = [] → p.rlu.gr = [] → p.rlu.mirror = m :: l →
        exec .arbiterStart s = nextWith s (started .mirror 6 m.body))) ∧
    ((p.rlu.link ≠ .up ∨ p.rlu.tx ≠ none ∨ p.rlu.credits = 0 ∨
        (p.rlu.control = [] ∧ p.rlu.xr = [] ∧ p.rlu.gr = [] ∧ p.rlu.mirror = [])) →
      exec .arbiterStart s = nextWith s s.part)

/-- FRAME_LEAVING: the entry of the frame in transmission is freed; an XR's leaving promotes the head of the pending list; a control entry goes to owed urgent notices at once, oldest first (`nextWith`), unless the command lets a reservation or a status notice of the same moment come first and one can be admitted (`nextAs`): they then move at the end of the next command, as `nextWith` says in the statement of each, or on an empty queue before anything else (log 17); a frame that a RESTART has forgotten frees nothing. With no frame in transmission, nothing (log 1). That the command is the end of the frame, however many characters the model has counted, is log 22. -/
def Obligations.FrameLeaves : Prop :=
  ∀ (s : State) (owedFirst : Bool), s.part.resetHeld = false →
    let p := s.part
    (p.rlu.tx = none → exec (.frameLeaving owedFirst) s = nextWith s s.part) ∧
    (∀ t, p.rlu.tx = some t →
      (t.forgotten = true →
        exec (.frameLeaving owedFirst) s = nextWith s ({ p with rlu := { p.rlu with tx := none } })) ∧
      (t.forgotten = false → t.queue = .gr →
        exec (.frameLeaving owedFirst) s =
          nextWith s ({ p with rlu := { p.rlu with tx := none, gr := p.rlu.gr.drop 1 } })) ∧
      (t.forgotten = false → t.queue = .mirror →
        exec (.frameLeaving owedFirst) s =
          nextWith s ({ p with rlu := { p.rlu with tx := none, mirror := p.rlu.mirror.drop 1 } })) ∧
      (t.forgotten = false → t.queue = .xr → p.ext.pendingList = [] →
        exec (.frameLeaving owedFirst) s =
          nextWith s ({ p with rlu := { p.rlu with tx := none, xr := p.rlu.xr.drop 1 } })) ∧
      (∀ n rest ex r, t.forgotten = false → t.queue = .xr → p.ext.pendingList = n :: rest →
        (p.ext.slots[n]).hold = .pending ex r →
        exec (.frameLeaving owedFirst) s = nextWith s (Part.bump { p with
          rlu := { p.rlu with
            tx := none
            xr := p.rlu.xr.drop 1 ++ [{ r with flags := { r.flags with urgentSent := ex.flags.urgentSent } }] }
          ext := { p.ext with
            slots := p.ext.slots.set n ⟨.free, (p.ext.slots[n]).urgentOwed⟩
            pendingList := rest } } .reportsPlaced)) ∧
      (t.forgotten = false → t.queue = .control →
        let freed : Part := { p with rlu := { p.rlu with tx := none, control := p.rlu.control.drop 1 } }
        let room : Prop := freed.rlu.nonUrgent + freed.rlu.reservations ≤ 11 ∧
          freed.rlu.control.length + freed.rlu.reservations < 16
        (owedFirst = true ∨ ¬ room → exec (.frameLeaving owedFirst) s = nextWith s freed) ∧
        (owedFirst = false → room → exec (.frameLeaving owedFirst) s = nextAs s freed)))

/-! ## Orders -/

/-- An order whose code names none of the twenty, and an order of a wrong length: refused, answered without data, no other block touched. An order for which no reservation can be made waits. The right length of each of the twenty is given: fixed, by a one-byte count, or by the present marks of a map's sources. -/
def Obligations.OrdersRefusedBeforeTheirOwner : Prop :=
  (∀ (code tag : Byte) (ps : List Byte),
    let body := code :: tag :: ps
    (orderCode body = code ∧ orderTag body = tag ∧ orderParams body = ps) ∧
    (∀ x ∈ [(1, 0), (2, 6), (3, 2), (4, 2), (5, 0), (6, 5), (9, 1), (11, 2), (13, 2), (14, 1), (15, 3), (16, 20), (17, 20),
        (18, 1), (20, 0)],
      code.toNat = x.1 → (lengthOk body = true ↔ ps.length = x.2)) ∧
    (∀ x ∈ [(7, 0, 13), (8, 0, 15), (10, 1, 14), (19, 1, 1)],
      code.toNat = x.1 → (lengthOk body = true ↔
        ∃ count, ps[x.2.1]? = some count ∧ ps.length = x.2.1 + 1 + x.2.2 * count.toNat)) ∧
    (code.toNat = 12 → (lengthOk body = true ↔
      ∃ (start count : Byte) (sources : List (List Byte)), ps = start :: count :: sources.flatten ∧
        sources.length = 2 * count.toNat ∧ ∀ x ∈ sources, MarkedSource x))) ∧
  ∀ (s : State) (body : List Byte), s.part.resetHeld = false → s.part.oru.buffer.head? = some body →
    let p := s.part
    let code := (orderCode body).toNat
    let room : Prop := p.rlu.nonUrgent + p.rlu.reservations ≤ 11 ∧ p.rlu.control.length + p.rlu.reservations < 16
    (room → code = 0 ∨ 20 < code →
      exec .unknownOrder s = nextWith s ((p.afterOrder body .unknownOrder []).bump .unknownOrders)) ∧
    (room → 1 ≤ code → code ≤ 20 → lengthOk body = false →
      exec (orderRowOf code) s = nextWith s ((p.afterOrder body .badLength []).bump .badLengths)) ∧
    (¬ room → exec (orderRowOf code) s = nextWith s s.part)

/-- GET changes nothing and answers DONE with the setting number, the head address and the present value, or BAD_VALUE with no data where the number names no setting or the address does not fit it. -/
def Obligations.GetAnswers : Prop :=
  ∀ (s : State) (body : List Byte), s.part.Ready 3 body →
    let n := fieldNat (orderParams body) 0 1
    let a := fieldNat (orderParams body) 1 1
    let named : Prop := 1 ≤ n ∧ n ≤ 31 ∧ (if n = 12 ∨ n = 13 then 1 ≤ a ∧ a ≤ 8 else a = 0)
    (named → exec .get s = nextWith s (s.part.afterOrder body .done
      (BitVec.ofNat 8 n :: BitVec.ofNat 8 a :: bytesOfNat 4 (s.part.oru.settings.value n a)))) ∧
    (¬ named → exec .get s = nextWith s (s.part.afterOrder body .badValue []))

/-- READ LIMITS changes nothing and answers with the rows from the start address on: DONE, BAD_VALUE with the rows up to 63 where the count runs past it, BAD_VALUE with none for a bad address or count. -/
def Obligations.ReadLimitsAnswers : Prop :=
  ∀ (s : State) (body : List Byte), s.part.Ready 11 body →
    let p := s.part
    let a := fieldNat (orderParams body) 0 1
    let n := fieldNat (orderParams body) 1 1
    let rowBytes : LimitRow → List Byte := fun r =>
      [r.plus.t1, r.plus.t2, r.plus.t3, r.minus.t1, r.minus.t2, r.minus.t3].flatMap (fun t => bytesOfNat 2 (t.getD 0)) ++
        [BitVec.ofNat 8 r.hysteresis, BitVec.ofNat 8 r.minLength]
    (63 < a ∨ n = 0 ∨ 16 < n → exec .readLimits s = nextWith s (p.afterOrder body .badValue [0])) ∧
    (a ≤ 63 → 1 ≤ n → n ≤ 16 →
      exec .readLimits s = nextWith s (p.afterOrder body (if 64 < a + n then .badValue else .done)
        (BitVec.ofNat 8 (min n (64 - a)) :: ((p.lmu.limits.toList.drop a).take n).flatMap rowBytes)))

/-- IDENTIFY, READ INPUT MAP and READ STATE change nothing. IDENTIFY gives the part number 418, the silicon revision number (a free value, log 9) and the twelve capacities; the map's entries are given up to index 6, each source with its verdict, which names the first of the four conditions of R28 that fails; a selection of READ STATE gives one block (`Part.stateBytes`), any other is answered BAD_VALUE. The layouts the manual leaves open are log 18 and log 28; that L and B are those of the present settings is log 45. -/
def Obligations.IdentifyAndReadingOrdersAnswer : Prop :=
  ∀ (s : State) (body : List Byte),
    let p := s.part
    let a := fieldNat (orderParams body) 0 1
    let n := fieldNat (orderParams body) 1 1
    (p.Ready 1 body →
      exec .identify s = nextWith s (p.afterOrder body .done
        ([0x01, 0xA2, Config.siliconRevision] ++
          [0, 8, 0, 7, 0, 24, 0, 128, 0, 64, 0, 64, 1, 0, 0, 16, 0, 32, 0, 64, 0, 8, 0, 4]))) ∧
    (p.Ready 13 body →
      let verdict : Source → Nat := fun x =>
        let r := p.hlu.heads[x.head]
        if r.state ≠ .qualified ∧ r.state ≠ .suspect then 2
        else if r.status.getLsbD 0 = true then 3
        else if r.held = none ∨ p.shu.freshness[x.head] = none then 4
        else if (p.oru.settings.shapes[x.head]).channels ≤ x.position.val then 5
        else if r.state = .suspect then 1
        else 0
      let source : Option Source → List Byte := fun o =>
        match o with
        | none => List.replicate 8 0
        | some x => [1, BitVec.ofNat 8 (x.head.val + 1), BitVec.ofNat 8 x.position.val] ++ bytesOfInt 2 x.gain ++
            bytesOfInt 2 x.offset ++ [BitVec.ofNat 8 (verdict x)]
      (6 < a ∨ n = 0 → exec .readInputMap s = nextWith s (p.afterOrder body .badValue [0])) ∧
      (a ≤ 6 → 1 ≤ n →
        exec .readInputMap s = nextWith s (p.afterOrder body (if 7 < a + n then .badValue else .done)
          (BitVec.ofNat 8 (min n (7 - a)) :: ((p.shu.map.toList.drop a).take n).flatMap (fun e =>
            source (e.map (fun x => x.primary)) ++ source (e.bind (fun x => x.standby))))))) ∧
    (p.Ready 14 body →
      let block : Option (List Byte) := p.orderTaken.stateBytes a
      (∀ l, block = some l →
        exec .readState s = nextWith s (p.afterOrder body .done (BitVec.ofNat 8 a :: l))) ∧
      (block = none → exec .readState s = nextWith s (p.afterOrder body .badValue [])))

/-- SET: the three checks in their order, and the writing of a setting that no other block acts on at once. The reply carries the value in force after the order; no other setting changes. The ranges, the HALTED marks and the numbers of section 10.4 and section 12.3 are spelled; that a head shape value whose bytes 3 or 2 are not zero is out of range is log 19. -/
def Obligations.SetChecksAndWrites : Prop :=
  (∀ n a : Nat, settingNamed n a = true ↔ 1 ≤ n ∧ n ≤ 31 ∧ (if n = 12 ∨ n = 13 then 1 ≤ a ∧ a ≤ 8 else a = 0)) ∧
  (∀ n v : Nat, settingInRange n v = true ↔
    (n = 1 ∧ v ∈ [250, 500, 1000]) ∨ (n = 12 ∧ v / 256 ≤ 16 ∧ 1 ≤ v % 256 ∧ v % 256 ≤ 8) ∨
    (n ∈ [19, 20] ∧ 4 ≤ v ∧ v ≤ 200 ∧ v % 2 = 0) ∨
    ∃ lo hi : Nat, (n, lo, hi) ∈ [(2, 1, 65535), (3, 1, 65535), (4, 1, 2), (5, 0, 100), (6, 500, 5000), (7, 0, 500),
      (8, 100, 60000), (9, 250, 5000), (10, 0, 15), (11, 1, 15), (13, 0, 1), (14, 0, 8), (15, 1000, 100000),
      (16, 0, 100000), (17, 100, 20000), (18, 1, 7), (21, 2, 100), (22, 2, 100), (23, 0, 32767), (24, 0, 32767),
      (25, 1, 64), (26, 0, 400), (27, 1, 255), (28, 0, 127), (29, 0, 63), (30, 1, 63), (31, 0, 1)] ∧ lo ≤ v ∧ v ≤ hi) ∧
  (∀ n : Nat, haltedOnlySetting n = true ↔ n ∈ [1, 2, 3, 4, 6, 9, 12, 14, 19, 20, 21, 22]) ∧
  (∀ st : Settings,
    (∀ x ∈ [(1, st.recordSpacing), (2, st.stepE1), (3, st.stepE2), (4, match st.leadEncoder with | .e1 => 1 | .e2 => 2),
      (5, st.slipLimit), (6, st.reversalDistance), (7, st.minSpeed), (8, st.parkDelay), (9, st.framePeriod),
      (10, st.passThreshold), (11, st.headErrorThreshold), (14, st.markerHead), (15, st.matchWindow),
      (16, st.largeCorrection), (17, st.fixValidity), (18, st.lostThreshold), (19, st.chordLevel), (20, st.chordAlign),
      (21, st.twistShort), (22, st.twistLong), (23, st.nominalGauge), (24, st.gaugeBase), (25, st.closeLength),
      (26, st.mergeGap), (27, st.relayTimeout), (28, st.routeLowWater), (29, st.sectionLowWater),
      (30, st.recorderErrorThreshold), (31, st.noticesEnabled.toNat)], st.value x.1 0 = x.2) ∧
    ∀ h : Head, st.value 12 (h.val + 1) = (st.shapes[h]).channels * 256 + (st.shapes[h]).samples ∧
      st.value 13 (h.val + 1) = (st.mirrors[h]).toNat) ∧
  ∀ (s : State) (body : List Byte), s.part.Ready 2 body →
    let p := s.part
    let st := p.oru.settings
    let n := fieldNat (orderParams body) 0 1
    let a := fieldNat (orderParams body) 1 1
    let v := fieldNat (orderParams body) 2 4
    let old : List Byte := BitVec.ofNat 8 n :: BitVec.ofNat 8 a :: bytesOfNat 4 (st.value n a)
    let new : List Byte := BitVec.ofNat 8 n :: BitVec.ofNat 8 a :: bytesOfNat 4 v
    (settingNamed n a = false → exec .set s = nextWith s (p.afterOrder body .badValue [])) ∧
    (settingNamed n a = true → settingInRange n v = false →
      exec .set s = nextWith s (p.afterOrder body .badValue old)) ∧
    (settingNamed n a = true → settingInRange n v = true → haltedOnlySetting n = true → p.rnc.runState ≠ .halted →
      exec .set s = nextWith s (p.afterOrder body .badState old)) ∧
    (settingNamed n a = true → settingInRange n v = true → (haltedOnlySetting n = true → p.rnc.runState = .halted) →
      n ∉ [1, 4, 12, 17, 28, 29] →
      exec .set s = nextWith s (Part.afterOrder { p with oru := { p.oru with settings := st.write n a v } } body .done new) ∧
      (st.write n a v).value n a = v ∧
      ∀ m b, settingNamed m b = true → (m, b) ≠ (n, a) → (st.write n a v).value m b = st.value m b)

/-- SET of the record spacing, by either of its rows: in HALTED the next tick boundary becomes the first multiple of the new spacing strictly greater than H, the speed history is emptied and the last speed becomes absent; A, H and all else stay. Outside HALTED it is answered BAD_STATE and changes nothing. A SET to the present value acts alike (log 13). That a tick which is due goes unmade where the SET moves its boundary is log 41. -/
def Obligations.RecordSpacingSet : Prop :=
  ∀ (s : State) (body : List Byte) (c : Instr) (v : Nat), s.part.Ready 2 body → c = .set ∨ c = .setRecordSpacing →
    fieldNat (orderParams body) 0 1 = 1 → fieldNat (orderParams body) 1 1 = 0 → fieldNat (orderParams body) 2 4 = v →
    v = 250 ∨ v = 500 ∨ v = 1000 →
    let p := s.part
    (p.rnc.runState = .halted →
      ∃ boundary : Int,
        (∃ k : Int, boundary = k * (v * 1000)) ∧ p.odu.high < boundary ∧ boundary - v * 1000 ≤ p.odu.high ∧
        exec c s = nextWith s (Part.afterOrder { p with
          odu := { p.odu with nextTick := boundary, history := [], lastSpeed := none }
          oru := { p.oru with settings := { p.oru.settings with recordSpacing := v } } } body .done
            (1 :: 0 :: bytesOfNat 4 v))) ∧
    (p.rnc.runState ≠ .halted →
      exec c s = nextWith s (p.afterOrder body .badState (1 :: 0 :: bytesOfNat 4 p.oru.settings.recordSpacing)))

/-- SET of the lead encoder, a head shape, the fix validity distance and the two low-water settings, each by its own row and by the SET row alike: what the owner does at once. A SET to the present value acts alike (log 13). -/
def Obligations.SettingsWithEffectSet : Prop :=
  ∀ (s : State) (body : List Byte) (v : Nat) (a : Nat), s.part.Ready 2 body → fieldNat (orderParams body) 2 4 = v →
    fieldNat (orderParams body) 1 1 = a →
    let p := s.part
    let n := fieldNat (orderParams body) 0 1
    let reply : List Byte := BitVec.ofNat 8 n :: BitVec.ofNat 8 a :: bytesOfNat 4 v
    let done : Part → Host.Outcome State Fault Refusal := fun q => nextWith s (q.afterOrder body .done reply)
    (∀ c ∈ [Instr.set, .setLeadEncoder], n = 4 → a = 0 → v = 1 ∨ v = 2 → p.rnc.runState = .halted →
      exec c s = done { p with
        odu := { p.odu with active := if v = 2 then .e2 else .e1 }
        oru := { p.oru with settings := { p.oru.settings with leadEncoder := if v = 2 then .e2 else .e1 } } }) ∧
    (∀ c ∈ [Instr.set, .setHeadShape], ∀ h : Head, n = 12 → a = h.val + 1 → v / 256 ≤ 16 → 1 ≤ v % 256 → v % 256 ≤ 8 →
      p.rnc.runState = .halted →
      exec c s = done { p with
        hlu := { p.hlu with heads := p.hlu.heads.set h { p.hlu.heads[h] with held := none } }
        shu := { p.shu with freshness := p.shu.freshness.set h none }
        oru := { p.oru with settings := { p.oru.settings with
          shapes := p.oru.settings.shapes.set h ⟨v / 256, v % 256⟩ } } }) ∧
    (∀ c ∈ [Instr.set, .setFixValidityDistance], n = 17 → a = 0 → 100 ≤ v → v ≤ 20000 →
      exec c s = done { p with
        pfu := { p.pfu with position :=
          (if p.pfu.position = .fixed ∧ (∃ x, p.pfu.sinceFix = some x ∧ v * 1000000 < x) then .deadReckoned
            else p.pfu.position) }
        oru := { p.oru with settings := { p.oru.settings with fixValidity := v } } }) ∧
    (∀ c ∈ [Instr.set, .setRouteLowWater], n = 28 → a = 0 → v ≤ 127 →
      exec c s = done { p with
        pfu := { p.pfu with lowArmed := decide (v < p.pfu.routeList.length) }
        oru := { p.oru with settings := { p.oru.settings with routeLowWater := v } } }) ∧
    (∀ c ∈ [Instr.set, .setSectionLowWater], n = 29 → a = 0 → v ≤ 63 →
      exec c s = done { p with
        lmu := { p.lmu with lowArmed := decide (v < p.lmu.sections.length) }
        oru := { p.oru with settings := { p.oru.settings with sectionLowWater := v } } })

/-- START RUN: accepted in HALTED with a position and an empty pending list, it stores the run number, sets the next record sequence and the GR dropped count to 0, empties the speed history, drops the pending correction and goes to ARMED; refused, it changes nothing. The reply carries the run number in force after the order. The run index is the model's own (log 23). -/
def Obligations.StartRunTaken : Prop :=
  ∀ (s : State) (body : List Byte), s.part.Ready 4 body →
    let p := s.part
    let number := fieldNat (orderParams body) 0 2
    let old := bytesOfNat 2 p.rnc.runNumber.toNat
    (p.rnc.runState ≠ .halted → exec .startRun s = nextWith s (p.afterOrder body .badState old)) ∧
    (p.rnc.runState = .halted → p.pfu.position = .unset →
      exec .startRun s = nextWith s (p.afterOrder body .badState old)) ∧
    (p.rnc.runState = .halted → p.pfu.position ≠ .unset → p.ext.pendingList ≠ [] →
      exec .startRun s = nextWith s (p.afterOrder body .busy old)) ∧
    (p.rnc.runState = .halted → p.pfu.position ≠ .unset → p.ext.pendingList = [] →
      exec .startRun s = nextWith s ((Part.afterOrder { p with
        rnc := { p.rnc with runState := .armed, runNumber := BitVec.ofNat 16 number, runIndex := p.rnc.runIndex + 1 }
        tru := { p.tru with nextSeq := 0 }
        rlu := { p.rlu with grDropped := 0 }
        odu := { p.odu with history := [], lastSpeed := none }
        pfu := { p.pfu with pendingCorrection := none } } body .done (bytesOfNat 2 number)).bump .runsStarted))

/-- STOP RUN: in HALTED it changes nothing; in a run it flushes the trace window, each waiting entry emitted in order, finalises every active slot in the order of opening (log 20), with CUT_STOP where it was OPEN or CLOSING, clears every latch and halts, the leaving of PARKED with its fresh watchdogs included. The reply carries the run number, the next record sequence and the pending count after the cut. The order of the raisings of one event is log 16. -/
def Obligations.StopRunTaken : Prop :=
  ∀ (s : State) (body : List Byte), s.part.Ready 5 body →
    let p := s.part
    (p.rnc.runState = .halted →
      exec .stopRun s = nextWith s (p.afterOrder body .done (bytesOfNat 2 p.rnc.runNumber.toNat ++
        bytesOfNat 4 p.tru.nextSeq.toNat ++ [BitVec.ofNat 8 p.ext.pendingList.length]))) ∧
    (p.rnc.runState ≠ .halted →
      ∃ q, exec .stopRun s = nextWith s q ∧
        q = { p with
          hlu := q.hlu, tru := q.tru, ext := q.ext, rnc := q.rnc, rlu := q.rlu, oru := q.oru, evu := q.evu } ∧
        q.rnc = { p.rnc with runState := .halted, parkDeadline := none } ∧
        q.tru = { p.tru with window := [], segStart := none, nextEmit := none } ∧
        (∀ n : SlotNo, (q.ext.slots[n]).isActive = false) ∧
        (∀ k : Pair, (q.ext.latches[k]).isSet = false ∧ (q.ext.latches[k]).urgentRaised = false) ∧
        q.oru = { p.oru with buffer := p.oru.buffer.drop 1 } ∧
        p.OrderAnswered q body .done (bytesOfNat 2 p.rnc.runNumber.toNat ++ bytesOfNat 4 p.tru.nextSeq.toNat ++
          [BitVec.ofNat 8 q.ext.pendingList.length]) ∧
        q.counter .runsStopped = counterUp 1 (p.counter .runsStopped) ∧
        q.counter .cuts = counterUp 1 (p.counter .cuts) ∧
        (p.rnc.runState ≠ .parked → q.hlu = p.hlu) ∧
        (p.rnc.runState = .parked → q.flagSet .parkChange = true ∧ q.hlu = { p.hlu with heads := q.hlu.heads } ∧
          ∀ h : Head, q.hlu.heads[h] =
            if (p.hlu.heads[h]).state = .absent then p.hlu.heads[h]
            else { p.hlu.heads[h] with
              watchdog := some (p.time + BitVec.ofNat 32 (2 * p.oru.settings.framePeriod)) }) ∧
        let f := p.orderTaken.flushed
        ∃ order, f.OpeningOrder order ∧
          let c := f.cutThrough (fun x => { x with cutStop := true }) order
          let halted := Part.bump { c with rnc := q.rnc } .runsStopped
          let left := if p.rnc.runState = .parked then halted.raise .parkChange else halted
          q = Part.replied { left with hlu := q.hlu } body .done (bytesOfNat 2 p.rnc.runNumber.toNat ++
            bytesOfNat 4 p.tru.nextSeq.toNat ++ [BitVec.ofNat 8 q.ext.pendingList.length]))

/-- SET POSITION: refused for a direction code above 1, and in a run for another direction; accepted, it writes the direction, the route distance, the residue and DEAD_RECKONED, empties both lists where the direction changes, makes the set advance of the route list, which skips markers and passes posts, and the sections' advance, and in a run cuts every slot with CUT_JUMP, in the order of opening (log 20). DONE. The order of the raisings of one event is log 16. -/
def Obligations.SetPositionTaken : Prop :=
  ∀ (s : State) (body : List Byte), s.part.Ready 6 body →
    let p := s.part
    let route := fieldInt (orderParams body) 0 4
    let code := fieldNat (orderParams body) 4 1
    let dir : Direction := if code = 0 then .up else .down
    (2 ≤ code → exec .setPosition s = nextWith s (p.afterOrder body .badValue [])) ∧
    (code ≤ 1 → p.rnc.runState ≠ .halted → dir ≠ p.odu.direction →
      exec .setPosition s = nextWith s (p.afterOrder body .badState [])) ∧
    (code ≤ 1 → (p.rnc.runState = .halted ∨ dir = p.odu.direction) →
      ∃ q, exec .setPosition s = nextWith s q ∧
        q = { p with
          odu := q.odu, pfu := q.pfu, lmu := q.lmu, ext := q.ext, rlu := q.rlu, oru := q.oru, evu := q.evu } ∧
        q.odu = { p.odu with direction := dir, residue := 0 } ∧
        q.pfu = { p.pfu with
          routeDistance := route, position := .deadReckoned, missCount := 0
          routeList := q.pfu.routeList, lastPost := q.pfu.lastPost, lowArmed := q.pfu.lowArmed } ∧
        q.lmu.limits = p.lmu.limits ∧
        (dir ≠ p.odu.direction →
          q.pfu.routeList = [] ∧ q.pfu.lastPost = none ∧ q.pfu.lowArmed = false ∧
          q.lmu.sections = [] ∧ q.lmu.lowArmed = false) ∧
        (dir = p.odu.direction →
          q.pfu.routeList = (routeScan dir route p.oru.settings.matchWindow p.oru.settings.lostThreshold true
            p.pfu.routeList .deadReckoned 0).kept ∧
          q.lmu.sections = p.lmu.sections.dropWhile (fun x => beyond dir route x.finish)) ∧
        (dir = .down → q.pfu.lastPost = none) ∧
        (p.rnc.runState = .halted → q.ext = p.ext) ∧
        (p.rnc.runState ≠ .halted →
          (∀ n : SlotNo, (q.ext.slots[n]).isActive = false) ∧ (∀ k : Pair, (q.ext.latches[k]).isSet = false) ∧
          q.counter .cuts = counterUp 1 (p.counter .cuts)) ∧
        q.oru = { p.oru with buffer := p.oru.buffer.drop 1 } ∧ p.OrderAnswered q body .done [] ∧
        let same : Bool := decide (dir = p.odu.direction)
        let set : Part := { p.orderTaken with
          odu := q.odu
          pfu := { p.pfu with
            routeDistance := route, position := .deadReckoned, missCount := 0, lastPost := none
            routeList := if same = true then p.pfu.routeList else []
            lowArmed := same && p.pfu.lowArmed }
          lmu := { p.lmu with
            sections := if same = true then p.lmu.sections else []
            lowArmed := same && p.lmu.lowArmed } }
        let moved := (set.routeAdvanced true).sectionsAdvanced
        (p.rnc.runState = .halted → q = moved.replied body .done []) ∧
        (p.rnc.runState ≠ .halted → ∃ order, moved.OpeningOrder order ∧
          q = (moved.cutThrough (fun f => { f with cutJump := true }) order).replied body .done []))

/-- APPEND ROUTE and APPEND SECTIONS: a count of 0 or above 8 takes nothing. Otherwise the entries of the order join the list in order up to the first that fails a check, in the order BAD_VALUE, LIST_FULL, OUT_OF_SEQUENCE of R60 and R107, each entry judged against the list's tail, the entry before it included; the reply carries the count taken with that result, or DONE where every entry is taken; the low-water mark is armed when the list stands above its setting. The entries stand one after another behind the count, 13 bytes for a route entry and 15 for a section, with the fields of section 12.3, a cant being present where its mark is not 0. -/
def Obligations.ListsAppended : Prop :=
  (∀ (k n : Nat) (bs : List Byte), pieces k n bs = (List.range n).map (fun i => (bs.drop (k * i)).take k)) ∧
  (∀ b0 b1 b2 b3 b4 b5 b6 b7 b8 b9 b10 b11 b12 : Byte,
    rawRoute [b0, b1, b2, b3, b4, b5, b6, b7, b8, b9, b10, b11, b12] = {
      kind := b0.toNat
      distance := (b1 ++ b2 ++ b3 ++ b4).toInt
      value := (b5 ++ b6 ++ b7 ++ b8).toNat
      mask := b9 ++ b10 ++ b11 ++ b12 }) ∧
  (∀ b0 b1 b2 b3 b4 b5 b6 b7 b8 b9 b10 b11 b12 b13 b14 : Byte,
    rawSection [b0, b1, b2, b3, b4, b5, b6, b7, b8, b9, b10, b11, b12, b13, b14] = {
      start := (b0 ++ b1 ++ b2 ++ b3).toInt
      finish := (b4 ++ b5 ++ b6 ++ b7).toInt
      cls := b8.toNat
      suppressed := b9
      cant := if b10 = 0 then none else some (b11 ++ b12).toInt
      label := b13 ++ b14 }) ∧
  ∀ (s : State) (body : List Byte),
    let p := s.part
    let ps := orderParams body
    let n := fieldNat ps 0 1
    let dir := p.odu.direction
    let d := p.pfu.routeDistance
    (p.Ready 7 body →
      (n = 0 ∨ 8 < n → exec .appendRoute s = nextWith s (p.afterOrder body .badValue [0])) ∧
      (1 ≤ n → n ≤ 8 →
        let old := p.pfu.routeList
        let raws := (pieces 13 n (ps.drop 1)).map rawRoute
        let tails : List (Option Int) := old.getLast?.map RouteEntry.distance :: raws.map (fun r => some r.distance)
        let refusal : (RawRoute × Option Int) × Nat → Option Result := fun x =>
          if ¬ (x.1.1.kind = 0 ∨ (x.1.1.kind = 1 ∧ x.1.1.value ≤ 9999)) then some .badValue
          else if 128 ≤ old.length + x.2 then some .listFull
          else match x.1.2 with
            | some tail => if beyond dir x.1.1.distance tail = true then none else some .outOfSequence
            | none => if p.pfu.position = .unset ∨ beyond dir x.1.1.distance d = true then none else some .outOfSequence
        let judged := (raws.zip tails).zipIdx.map refusal
        let k := (judged.takeWhile Option.isNone).length
        let list := old ++ (raws.take k).map (fun r => ⟨r.distance,
          if r.kind = 0 then .marker (BitVec.ofNat 32 r.value) r.mask else .kpost r.value⟩)
        exec .appendRoute s = nextWith s (Part.afterOrder { p with pfu := { p.pfu with
          routeList := list
          lowArmed := p.pfu.lowArmed || decide (p.oru.settings.routeLowWater < list.length) } }
            body ((judged[k]?.join).getD .done) [BitVec.ofNat 8 k]))) ∧
    (p.Ready 8 body →
      (n = 0 ∨ 8 < n → exec .appendSections s = nextWith s (p.afterOrder body .badValue [0])) ∧
      (1 ≤ n → n ≤ 8 →
        let old := p.lmu.sections
        let raws := (pieces 15 n (ps.drop 1)).map rawSection
        let tails : List (Option Int) := old.getLast?.map TrackSection.finish :: raws.map (fun r => some r.finish)
        let refusal : (RawSection × Option Int) × Nat → Option Result := fun x =>
          if 8 ≤ x.1.1.cls ∨ beyond dir x.1.1.finish x.1.1.start = false then some .badValue
          else if 64 ≤ old.length + x.2 then some .listFull
          else match x.1.2 with
            | some tail => if beyond dir tail x.1.1.start = false then none else some .outOfSequence
            | none => if p.pfu.position = .unset ∨ beyond dir x.1.1.finish d = true then none else some .outOfSequence
        let judged := (raws.zip tails).zipIdx.map refusal
        let k := (judged.takeWhile Option.isNone).length
        let list := old ++ (raws.take k).map (fun r =>
          { start := r.start, finish := r.finish, cls := Fin.ofNat 8 r.cls, suppressed := r.suppressed, cant := r.cant
            label := r.label })
        exec .appendSections s = nextWith s (Part.afterOrder { p with lmu := { p.lmu with
          sections := list
          lowArmed := p.lmu.lowArmed || decide (p.oru.settings.sectionLowWater < list.length) } }
            body ((judged[k]?.join).getD .done) [BitVec.ofNat 8 k])))

/-- CLEAR LISTS: ROUTE, SECTIONS or BOTH empties the named lists and disarms their marks, with no event and nothing else changed; any other selection is answered BAD_VALUE. -/
def Obligations.ListsCleared : Prop :=
  ∀ (s : State) (body : List Byte), s.part.Ready 9 body →
    let p := s.part
    let sel := fieldNat (orderParams body) 0 1
    (sel = 1 → exec .clearLists s =
      nextWith s (Part.afterOrder { p with pfu := { p.pfu with routeList := [], lowArmed := false } } body .done [])) ∧
    (sel = 2 → exec .clearLists s =
      nextWith s (Part.afterOrder { p with lmu := { p.lmu with sections := [], lowArmed := false } } body .done [])) ∧
    (sel = 3 → exec .clearLists s =
      nextWith s (Part.afterOrder { p with
        pfu := { p.pfu with routeList := [], lowArmed := false }
        lmu := { p.lmu with sections := [], lowArmed := false } } body .done [])) ∧
    (sel = 0 ∨ 3 < sel → exec .clearLists s = nextWith s (p.afterOrder body .badValue []))

/-- WRITE LIMITS and WRITE INPUT MAP: a bad count (and for the map a run or a bad start) writes nothing; otherwise the rows or entries are written whole from the start on, up to the first that fails its check or lies past the end, and the rest keep their contents. The reply carries the count written. What makes a row valid and an entry accepted, and what each writes, is spelled, and so is where the fields of a row and of an entry stand: an entry is two sources, each a present mark with its six bytes behind it where the mark is not 0. A map count above 7 is taken like any that runs past the end (log 43). -/
def Obligations.TablesWritten : Prop :=
  (∀ bs : List Byte,
    let t : Nat → Option Nat := fun i => if fieldNat bs i 2 = 0 then none else some (fieldNat bs i 2)
    (rawRow bs).row = ⟨⟨t 0, t 2, t 4⟩, ⟨t 6, t 8, t 10⟩, fieldNat bs 12 1, fieldNat bs 13 1⟩) ∧
  (∀ r : LimitRow, r.valid = true ↔ ∀ t ∈ [r.plus, r.minus],
    (∀ x, t.t1 = some x ∨ t.t2 = some x ∨ t.t3 = some x → x ≤ 32767) ∧
    (∀ x y, (t.t1 = some x ∧ t.t2 = some y) ∨ (t.t1 = some x ∧ t.t3 = some y) ∨ (t.t2 = some x ∧ t.t3 = some y) →
      x < y)) ∧
  ((∀ rest : List Byte, rawSource (0 :: rest) = none) ∧
    (∀ (mark head position g1 g0 o1 o0 : Byte) (rest : List Byte), mark ≠ 0 →
      rawSource (mark :: head :: position :: g1 :: g0 :: o1 :: o0 :: rest) = some {
        head := head.toNat, position := position.toNat, gain := (g1 ++ g0).toInt, offset := (o1 ++ o0).toInt }) ∧
    ∀ (entries : List (List Byte × List Byte)) (rest : List Byte),
      (∀ x ∈ entries, MarkedSource x.1 ∧ MarkedSource x.2) →
      rawEntries entries.length (entries.flatMap (fun x => x.1 ++ x.2) ++ rest) =
        entries.map (fun x => ⟨rawSource x.1, rawSource x.2⟩)) ∧
  (∀ e : RawEntry,
    let fits : RawSource → Prop := fun x => 1 ≤ x.head ∧ x.head ≤ 8 ∧ x.position ≤ 15
    let same : Source → RawSource → Prop := fun y x =>
      y.head.val + 1 = x.head ∧ y.position.val = x.position ∧ y.gain = x.gain ∧ y.offset = x.offset
    (e.checked = none ↔ (∃ x, (e.primary = some x ∨ e.standby = some x) ∧ ¬ fits x) ∨
      (e.primary = none ∧ e.standby ≠ none)) ∧
    (∀ m, e.checked = some m →
      (e.primary = none → m = none) ∧
      ∀ x, e.primary = some x → ∃ y, m = some y ∧ same y.primary x ∧ (e.standby = none → y.standby = none) ∧
        ∀ z, e.standby = some z → ∃ w, y.standby = some w ∧ same w z)) ∧
  ∀ (s : State) (body : List Byte),
    let p := s.part
    let ps := orderParams body
    let a := fieldNat ps 0 1
    let n := fieldNat ps 1 1
    (p.Ready 10 body →
      (n = 0 ∨ 16 < n → exec .writeLimits s = nextWith s (p.afterOrder body .badValue [0])) ∧
      (1 ≤ n → n ≤ 16 →
        let rows := (pieces 14 n (ps.drop 2)).map (fun bs => (rawRow bs).row)
        let k := ((rows.zipIdx a).takeWhile (fun x => x.1.valid && decide (x.2 ≤ 63))).length
        ∃ limits : Vector LimitRow 64,
          exec .writeLimits s = nextWith s (Part.afterOrder { p with lmu := { p.lmu with limits := limits } } body
            (if k = n then .done else .badValue) [BitVec.ofNat 8 k]) ∧
          ∀ i : Fin 64, some limits[i] =
            if a ≤ i.val ∧ i.val < a + k then rows[i.val - a]? else some p.lmu.limits[i])) ∧
    (p.Ready 12 body →
      (p.rnc.runState ≠ .halted → exec .writeInputMap s = nextWith s (p.afterOrder body .badState [0])) ∧
      (p.rnc.runState = .halted → 6 < a ∨ n = 0 →
        exec .writeInputMap s = nextWith s (p.afterOrder body .badValue [0])) ∧
      (p.rnc.runState = .halted → a ≤ 6 → 1 ≤ n →
        let entries := (rawEntries n (ps.drop 2)).map RawEntry.checked
        let k := ((entries.zipIdx a).takeWhile (fun x => x.1.isSome && decide (x.2 ≤ 6))).length
        ∃ map : Vector (Option MapEntry) 7,
          exec .writeInputMap s = nextWith s (Part.afterOrder { p with shu := { p.shu with map := map } } body
            (if k = n then .done else .badValue) [BitVec.ofNat 8 k]) ∧
          ∀ i : Fin 7, some map[i] =
            if a ≤ i.val ∧ i.val < a + k then (entries[i.val - a]?).join else some p.shu.map[i]))

/-- READ COUNTERS, READ EVENTS and SET NOTICE MASK: the counters of one group, cleared where the option is set; the flags and latches, cleared where the clear set marks them; all the masks written as one event. That any option byte but 0 counts as set, and that the twelve bits above the twenty of the mask and of the clear set are dropped, is log 19; that READ COUNTERS counts its own taking is log 28. -/
def Obligations.CountersEventsAndMasks : Prop :=
  ∀ (s : State) (body : List Byte),
    let p := s.part
    let ps := orderParams body
    let g := fieldNat ps 0 1
    let a := fieldNat ps 1 1
    let group : Option (Nat × Nat) :=
      if g = 2 then (if 1 ≤ a ∧ a ≤ 8 then some (61 + 6 * (a - 1), 6) else none)
      else if a ≠ 0 then none
      else if g = 1 then some (0, 11) else if g = 3 then some (11, 18) else if g = 4 then some (29, 16)
      else if g = 5 then some (45, 9) else if g = 6 then some (54, 7) else none
    (p.Ready 15 body →
      (group = none → exec .readCounters s = nextWith s (p.afterOrder body .badValue [])) ∧
      (∀ lo len, group = some (lo, len) →
        let now := (p.afterOrder body .done []).evu.counters
        let q := p.afterOrder body .done (BitVec.ofNat 8 g :: BitVec.ofNat 8 a ::
          (List.range len).flatMap (fun i => bytesOfNat 4 (now.toList.getD (lo + i) 0)))
        (fieldNat ps 2 1 = 0 → exec .readCounters s = nextWith s q) ∧
        (fieldNat ps 2 1 ≠ 0 → ∃ t : Vector Nat 109,
          exec .readCounters s = nextWith s ({ q with evu := { q.evu with counters := t } }) ∧
          ∀ i : Fin 109, t[i] = if lo ≤ i.val ∧ i.val < lo + len then 0 else now[i]))) ∧
    (p.Ready 16 body →
      ∃ heads : Vector HeadRecord 8,
        exec .readEvents s = nextWith s (Part.afterOrder { p with
          hlu := { p.hlu with heads := heads }
          evu := { p.evu with flags := p.evu.flags &&& ~~~(BitVec.ofNat 20 (fieldNat ps 0 4)) } } body .done
            (bytesOfNat 4 p.evu.flags.toNat ++ p.hlu.heads.toList.flatMap (fun r => [r.riseLatch, r.fallLatch]))) ∧
        ∀ h : Head, heads[h] = { p.hlu.heads[h] with
          riseLatch := (p.hlu.heads[h]).riseLatch &&& ~~~(ps.getD (4 + 2 * h.val) 0#8)
          fallLatch := (p.hlu.heads[h]).fallLatch &&& ~~~(ps.getD (5 + 2 * h.val) 0#8) }) ∧
    (p.Ready 17 body →
      ∃ heads : Vector HeadRecord 8,
        exec .setNoticeMask s = nextWith s (Part.afterOrder { p with
          hlu := { p.hlu with heads := heads }
          evu := { p.evu with mask := BitVec.ofNat 20 (fieldNat ps 0 4) } } body .done
            (bytesOfNat 4 (BitVec.ofNat 20 (fieldNat ps 0 4)).toNat ++ ps.drop 4)) ∧
        ∀ h : Head, heads[h] = { p.hlu.heads[h] with
          riseMask := ps.getD (4 + 2 * h.val) 0#8, fallMask := ps.getD (5 + 2 * h.val) 0#8 })

/-- RESTORE HEAD: DONE for an EXCLUDED head, which goes to ACQUIRING with score 0 and good run 0; BAD_STATE for any other head, BAD_VALUE for an address of no head, and neither changes anything. The data is the head address and the head state after the order, and none for an address of no head (log 40). The control queue stays, with any status notice of HEAD_CHANGE behind it and then the reply (log 16). -/
def Obligations.RestoreHeadTaken : Prop :=
  ∀ (s : State) (body : List Byte), s.part.Ready 18 body →
    let p := s.part
    let a := fieldNat (orderParams body) 0 1
    (a = 0 ∨ 8 < a → exec .restoreHead s = nextWith s (p.afterOrder body .badValue [])) ∧
    (∀ h : Head, a = h.val + 1 → (p.hlu.heads[h]).state ≠ .excluded →
      exec .restoreHead s = nextWith s (p.afterOrder body .badState
        [BitVec.ofNat 8 a, BitVec.ofNat 8 (p.hlu.heads[h]).state.code])) ∧
    (∀ h : Head, a = h.val + 1 → (p.hlu.heads[h]).state = .excluded →
      ∃ q, exec .restoreHead s = nextWith s q ∧
        q = { p with hlu := q.hlu, rlu := q.rlu, oru := q.oru, evu := q.evu } ∧
        q.hlu = { p.hlu with
          heads := p.hlu.heads.set h { p.hlu.heads[h] with state := .acquiring, score := 0, goodRun := 0 } } ∧
        q.oru = { p.oru with buffer := p.oru.buffer.drop 1 } ∧
        q.rlu = { p.rlu with control := q.rlu.control } ∧
        p.OrderAnswered q body .done [BitVec.ofNat 8 a, 1] ∧
        (∃ notices : List ControlFrame,
          q.rlu.control = p.rlu.control ++ notices ++ [orderReply body .done [BitVec.ofNat 8 a, 1]] ∧
          ∀ f ∈ notices, ∃ cause flags seq route, f = .status cause flags seq route) ∧
        p.CountersKeptBut q [.ordersTaken, .statusSent, .noticesLost] ∧ p.Raised q [.headChange])

/-- HEAD ORDER: its four checks in their order, each refusal answered at once with the target address; accepted, the relay slot is outstanding with the next relay tag, the relay frame is on the reverse line, and the reservation is held with the order's code and tag. -/
def Obligations.HeadOrderTaken : Prop :=
  ∀ (s : State) (body : List Byte), s.part.Ready 19 body →
    let p := s.part
    let ps := orderParams body
    let a := fieldNat ps 0 1
    let n := fieldNat ps 1 1
    let refused : Result → Host.Outcome State Fault Refusal := fun r =>
      nextWith s (p.afterOrder body r [BitVec.ofNat 8 a])
    (a = 0 ∨ 8 < a ∨ n = 0 ∨ 32 < n → exec .headOrder s = refused .badValue) ∧
    (∀ h : Head, a = h.val + 1 → 1 ≤ n → n ≤ 32 →
      (p.hlu.relay ≠ none ∨ p.oru.headReservation ≠ none → exec .headOrder s = refused .busy) ∧
      (p.hlu.relay = none → p.oru.headReservation = none →
        (p.hlu.locked = false → exec .headOrder s = refused .badState) ∧
        (p.hlu.locked = true → (p.hlu.heads[h]).state = .absent → exec .headOrder s = refused .headAbsent) ∧
        (p.hlu.locked = true → (p.hlu.heads[h]).state ≠ .absent →
          exec .headOrder s = nextWith s (Part.bump { p with
            hlu := { p.hlu with
              relay := some ⟨h, p.hlu.relayTag, none, p.oru.settings.relayTimeout⟩
              relayTag := p.hlu.relayTag + 1
              relayLine := p.hlu.relayLine ++ [⟨relayBytes h p.hlu.relayTag (ps.drop 2), 0, true⟩] }
            rlu := { p.rlu with reservations := p.rlu.reservations + 1 }
            oru := { p.oru with
              buffer := p.oru.buffer.drop 1
              headReservation := some ⟨orderCode body, orderTag body⟩ } } .ordersTaken))))

/-- RESTART: every block as its own rule for it gives; the RESTARTED notice is the one frame of the control queue. The link states, the credits, the settings, the masks of the heads, the input map, the limit table and the later order bodies stay. That the notice is not counted as sent is log 36, the phase levels kept are log 8, the model's run index log 23, relay frames that stay on the line without a slot log 24. -/
def Obligations.RestartTaken : Prop :=
  ∀ (s : State) (body : List Byte), s.part.Ready 20 body →
    let p := s.part
    ∃ q, exec .restart s = nextWith s q ∧ q.time = p.time ∧ q.resetHeld = false ∧
      q.hlu = { p.hlu with
        relay := none
        relayLine := p.hlu.relayLine.map (fun f => { f with forSlot := false })
        heads := q.hlu.heads } ∧
      (∀ h : Head, q.hlu.heads[h] = { HeadRecord.reset with
        riseMask := (p.hlu.heads[h]).riseMask, fallMask := (p.hlu.heads[h]).fallMask }) ∧
      q.shu.map = p.shu.map ∧ (∀ h : Head, q.shu.freshness[h] = none) ∧
      q.odu = { Odu.reset with
        active := p.oru.settings.leadEncoder
        e1 := { Channel.reset with phaseA := p.odu.e1.phaseA, phaseB := p.odu.e1.phaseB }
        e2 := { Channel.reset with phaseA := p.odu.e2.phaseA, phaseB := p.odu.e2.phaseB }
        lastComparison := p.time
        nextTick := p.oru.settings.recordSpacing * 1000 } ∧
      q.pfu = Pfu.reset ∧ q.tru = Tru.reset ∧ q.lmu = { p.lmu with sections := [], lowArmed := false } ∧
      q.ext = Ext.reset ∧ q.rnc = Rnc.reset ∧
      q.rlu = { p.rlu with
        control := [.status 20 1#20 0 0]
        reservations := 0
        xr := []
        gr := []
        mirror := []
        tx := p.rlu.tx.map (fun t => { t with forgotten := true })
        grDropped := 0 } ∧
      q.oru = { p.oru with buffer := p.oru.buffer.drop 1, headReservation := none } ∧ q.evu = Evu.reset

/-! ## Events, codes and grades -/

/-- An event raised: a set flag stays and nothing else happens; a clear one rises, and makes a status notice where its mark is set and notices are enabled, admitted to the control queue or lost, which raises NOTICE_LOST and makes no further notice. The alert output is asserted exactly while a marked flag is set. -/
def Obligations.EventsRaised : Prop :=
  ∀ (p : Part) (e : Event),
    let flags : BitVec 20 := p.evu.flags ||| (1#20 <<< e.number)
    let due : Bool := p.evu.mask.getLsbD e.number && p.oru.settings.noticesEnabled && e != .noticeLost
    let room : Prop := p.rlu.nonUrgent + p.rlu.reservations ≤ 11 ∧ p.rlu.control.length + p.rlu.reservations < 16
    (p.evu.flags.getLsbD e.number = true → p.raise e = p) ∧
    (p.evu.flags.getLsbD e.number = false → due = false → p.raise e = { p with evu := { p.evu with flags := flags } }) ∧
    (p.evu.flags.getLsbD e.number = false → due = true → room →
      p.raise e = Part.bump { p with
        evu := { p.evu with flags := flags }
        rlu := { p.rlu with control :=
          p.rlu.control ++ [.status e.number flags p.tru.nextSeq p.pfu.routeDistance] } } .statusSent) ∧
    (p.evu.flags.getLsbD e.number = false → due = true → ¬ room →
      p.raise e = Part.bump { p with evu := { p.evu with flags := flags ||| (1#20 <<< 19) } } .noticesLost) ∧
    (p.alert = true ↔ p.resetHeld = false ∧ ∃ i : Fin 20, p.evu.flags.getLsbD i = true ∧ p.evu.mask.getLsbD i = true)

/-- The codes of the links: a header built with its check bits decodes to itself, with any one of its 32 bits inverted it is corrected to itself, and with any two it is found uncorrectable; the bytes of a recorder-link frame built from a kind and a body pass the check of an inbound frame and give the body back. The CRC starts at FFFF and takes a byte by eight shifts with the polynomial 1021, the top bit first; a head frame's payload CRC is good where its last two bytes are the CRC of the rest, high byte first. The bodies of the outbound frames stand as R197 lays them out (`GeometryRecord.spelled`, `Report.spelled`, `ControlFrame.spelled`), with the codes of section 12.3. A number stands in its bytes high byte first, a signed one as two's complement. -/
def Obligations.CodesDecode : Prop :=
  ((∀ pre l post : List Byte,
      let n := ∑ i ∈ Finset.range l.length, (l.reverse.getD i 0).toNat * 256 ^ i
      fieldNat (pre ++ l ++ post) pre.length l.length = n ∧
      fieldInt (pre ++ l ++ post) pre.length l.length =
        if 2 * n < 256 ^ l.length then (n : Int) else n - 256 ^ l.length) ∧
    (∀ k n : Nat, (bytesOfNat k n).length = k ∧
      ∀ i < k, (bytesOfNat k n).reverse.getD i 0 = BitVec.ofNat 8 (n / 256 ^ i)) ∧
    ∀ (k : Nat) (z : Int), bytesOfInt k z = bytesOfNat k (z % 256 ^ k).toNat) ∧
  (crc16 [] = 0xFFFF#16 ∧ ∀ (l : List Byte) (b : Byte),
    crc16 (l ++ [b]) = (fun (x : BitVec 16) => if x.getLsbD 15 = true then (x <<< 1) ^^^ 0x1021#16 else x <<< 1)^[8]
      (crc16 l ^^^ (b.zeroExtend 16 <<< 8))) ∧
  (∀ l : List Byte, crcBytes l = bytesOfNat 2 (crc16 l).toNat) ∧
  (∀ (l : List Byte) (a b : Byte), payloadCrcOk (l ++ [a, b]) = true ↔ [a, b] = crcBytes l) ∧
  (∀ hd : Header,
    (hd.kind = .sample → hd.channels ≤ 16) → (hd.kind = .marker ∨ hd.kind = .status → hd.shape = 0) →
    (hd.kind = .reply → hd.replyCount ≤ 32) →
    decodeHeader (encodeHeader hd) = some (hd, false) ∧
    (∀ i : Fin 32, decodeHeader (encodeHeader hd ^^^ (1#32 <<< i.val)) = some (hd, true)) ∧
    ∀ i j : Fin 32, i ≠ j → decodeHeader (encodeHeader hd ^^^ (1#32 <<< i.val) ^^^ (1#32 <<< j.val)) = none) ∧
  (∀ (kind : Nat) (body : List Byte), body.length ≤ 1024 →
    inboundOk (outboundBytes kind body) = true ∧ inboundLength (outboundBytes kind body) = body.length ∧
    inboundBody (outboundBytes kind body) = body) ∧
  ((∀ g : GeometryRecord, g.body = g.spelled) ∧ (∀ x : Report, x.body = x.spelled) ∧
    (∀ f : ControlFrame, f.body = f.spelled) ∧
    ∀ m : MirrorFrame, m.body = [BitVec.ofNat 8 (m.head.val + 1), m.kind.code.setWidth 8] ++ m.bytes) ∧
  ([Result.done, .busy, .badState, .badValue, .badLength, .unknownOrder, .listFull, .outOfSequence, .headAbsent,
      .headTimeout].map Result.code = List.range 10 ∧
    [HeadState.absent, .acquiring, .qualified, .suspect, .excluded].map HeadState.code = List.range 5 ∧
    [PositionState.unset, .deadReckoned, .fixed, .uncertain, .lost].map PositionState.code = List.range 5 ∧
    [RunState.halted, .armed, .measuring, .parked].map RunState.code = List.range 4 ∧
    [LinkState.down, .hunt, .up].map LinkState.code = List.range 3 ∧
    [HeadKind.sample, .marker, .status, .reply].map (fun k => k.code.toNat) = List.range 4 ∧
    (∀ (ex : Exceedance) (r : Report),
      [SlotHold.free, .active .opened ex, .active .closing ex, .active .held ex, .pending ex r].map SlotHold.code =
        List.range 5) ∧
    [Direction.up, .down].map Direction.code = [0, 1] ∧ [Polarity.plus, .minus].map Polarity.code = [0, 1] ∧
    [Encoder.e1, .e2].map Encoder.code = [1, 2] ∧
    [Event.ready, .headChange, .headStatus, .headLinkLost, .headReplyLate, .slip, .reversal, .parkChange, .positionFix,
      .markerMissed, .markerUnknown, .positionLost, .largeCorrection, .routeLow, .sectionLow, .sectionStarved,
      .slotOverflow, .grDropped, .orderOverrun, .noticeLost].map Event.number = List.range 20)

/-- The grade of a value is the highest grade of its polarity whose threshold is present and reached; the release level is the lowest present threshold less the hysteresis, and 32768 where there is none. The Trace Unit grades each present parameter of a record by the row of its class, and the grades go into its Geometry Record and to the tracker; the tracker judges inside by the release level of the record's row, and takes the minimum length from the row of the class at the peak. -/
def Obligations.GradesAndReleaseLevels : Prop :=
  ∀ (r : LimitRow) (v : Int),
    let t : Thresholds := if 0 < v then r.plus else r.minus
    let met : Option Nat → Prop := fun x => ∃ n, x = some n ∧ n ≤ v.natAbs
    (v = 0 → r.grade v = 0) ∧
    (v ≠ 0 →
      (met t.t3 → r.grade v = 3) ∧
      (¬ met t.t3 → met t.t2 → r.grade v = 2) ∧
      (¬ met t.t3 → ¬ met t.t2 → met t.t1 → r.grade v = 1) ∧
      (¬ met t.t3 → ¬ met t.t2 → ¬ met t.t1 → r.grade v = 0)) ∧
    (∀ sgn : Polarity,
      let u : Thresholds := match sgn with | .plus => r.plus | .minus => r.minus
      (∀ n, u.t1 = some n → r.releaseLevel sgn = n - r.hysteresis) ∧
      (∀ n, u.t1 = none → u.t2 = some n → r.releaseLevel sgn = n - r.hysteresis) ∧
      (∀ n, u.t1 = none → u.t2 = none → u.t3 = some n → r.releaseLevel sgn = n - r.hysteresis) ∧
      (u.t1 = none → u.t2 = none → u.t3 = none → r.releaseLevel sgn = 32768) ∧
      (v.natAbs ≤ 32767 → (v.natAbs : Int) < 32768) ∧ (r.releaseLevel sgn ≤ 0 → ¬ (v.natAbs : Int) < r.releaseLevel sgn)) ∧
    (v.natAbs = 32767 → (∀ x, t.t1 = some x ∨ t.t2 = some x ∨ t.t3 = some x → x ≤ 32767) →
      r.grade v = if t.t3.isSome then 3 else if t.t2.isSome then 2 else if t.t1.isSome then 1 else 0) ∧
    (∀ h m : Nat, ({ r with hysteresis := h, minLength := m } : LimitRow).grade v = r.grade v) ∧
    (∀ (p : Part) (e : TraceEntry) (untracked : Bool),
      (∀ q : Param, some (p.limitRow e.cls q) = p.lmu.limits.toList[e.cls.val * 8 + q.val]?) ∧
      (∀ (q : Param) (z : Int) (g : Nat), (p.emitted e).values[q] = .present z g →
        g = (p.limitRow e.cls q).grade z ∧ (p.record e (p.emitted e) untracked).grades[q] = g) ∧
      ∀ (k : Pair) (n : Nat) (serial : Option Nat) (z : Int) (g : Nat),
        ((p.emitted e).opening k n z g).grade = g ∧ ((p.emitted e).notice k z g serial).grade = g) ∧
    (∀ (p : Part) (cls : Fin 8) (k : Pair),
      let own : Prop := match pairPolarity k with | .plus => 0 < v | .minus => v < 0
      p.isInside cls k v = true ↔
        ¬ own ∨ (v.natAbs : Int) < (p.limitRow cls (pairParam k)).releaseLevel (pairPolarity k)) ∧
    ∀ (p : Part) (ex : Exceedance), p.isShort ex = true ↔
      (ex.endSeq - ex.startSeq + 1).toNat < (p.limitRow ex.peak.cls ex.param).minLength ∧ ex.grade < 3

/-! ## Invariants -/

/-- The state after a hard reset satisfies every invariant stated below. -/
def Obligations.ResetSatisfiesInvariants : Prop :=
  let p := State.reset.part
  p.QueuesBounded ∧ p.LinkDownIdle ∧ p.HeadsLegal ∧ p.RoutePlaced ∧ p.OdometerPlaced ∧ p.OneFaultAtMost ∧ p.FixValid ∧ p.RouteOrdered ∧
    p.SectionsOrdered ∧ p.MarksArmed ∧ p.RowsValid ∧ p.SettingsInRange ∧ p.QuietOutsideRun ∧ p.OneSlotPerPair ∧
    p.PendingListed ∧ p.OwedMarked ∧ p.WindowBounded ∧ p.CountersBounded

/-- The recorder link's queues never pass their sizes, reservations included; the reservation of a head order stands exactly while a relay is outstanding; outside UP nothing is in transmission and no credit is held. -/
def Obligations.QueuesStayBounded : Prop :=
  StepKeeps (fun p => p.QueuesBounded ∧ p.LinkDownIdle)

/-- The route distance stays in 32 bits with a residue of 0 to 999, both 0 while UNSET; A never lies beyond H, which stays in its 64 bits; the position is FIXED only within the fix validity distance; the two encoder channels are never faulted at once. -/
def Obligations.PositionStaysPlaced : Prop :=
  StepKeeps (fun p => p.RoutePlaced ∧ p.OdometerPlaced ∧ p.FixValid ∧ p.OneFaultAtMost)

/-- Both look-ahead lists keep their sizes and their order in the travel direction, and each low-water mark is armed exactly while its list stands above its setting. -/
def Obligations.ListsStayOrdered : Prop :=
  StepKeeps (fun p => p.RouteOrdered ∧ p.SectionsOrdered ∧ p.MarksArmed)

/-- Every head record stays legal, an UNLOCKED head link holds no error count and no frame, the limit table holds valid rows alone, every setting stays in its range, and every counter in 32 bits. -/
def Obligations.RecordsAndTablesStayLegal : Prop :=
  StepKeeps (fun p => p.HeadsLegal ∧ p.RowsValid ∧ p.SettingsInRange ∧ p.CountersBounded)

/-- At most one slot is active for a pair, none while its latch is set, and none at all outside a run, where the trace window is empty; the pending list holds exactly the PENDING slots, each once, while the XR queue is full; the urgent owed list holds exactly the marked owners, each once. -/
def Obligations.TrackerStaysConsistent : Prop :=
  StepKeeps (fun p => p.OneSlotPerPair ∧ p.QuietOutsideRun ∧ p.PendingListed ∧ p.OwedMarked)

/-- The trace window carries consecutive sequences up to the one before the next, with at most L entries not yet emitted and at most B + 1 kept behind them. -/
def Obligations.WindowStaysBounded : Prop :=
  StepKeeps (fun p => p.WindowBounded ∧ p.QuietOutsideRun ∧ p.SettingsInRange)
end

