-- ==== Sys2Proof/Laws/Bytes.lean ====
section
/-! SUPPORT. The bodies of the outbound frames and the selections of READ STATE in plain values, as the statements spell them (R197). -/

namespace Sys2Proof.Machine

/-! ## Marks, grades and fields -/

/-- A list of marks as a number, its first mark at bit 0. -/
theorem bitsOf_cons (b : Bool) (l : List Bool) : bitsOf (b :: l) = b.toNat + 2 * bitsOf l := by
  have h : bitsOf (b :: l) = b.toNat * 2 ^ 0 + ∑ i : Fin l.length, (l[i]).toNat * 2 ^ (i.val + 1) :=
    Fin.sum_univ_succ (n := l.length) (fun i : Fin (l.length + 1) => ((b :: l)[i]).toNat * 2 ^ i.val)
  rw [h, bitsOf, Finset.mul_sum, pow_zero, Nat.mul_one]
  congr 1
  exact Finset.sum_congr rfl (fun i _ => by ring)

/-- The model's number of a list of marks. -/
theorem markBits_eq (l : List Bool) : markBits l = bitsOf l := by
  induction l with
  | nil => rfl
  | cons b l ih =>
    rw [bitsOf_cons, ← ih]
    cases b <;> rfl

/-- A presence byte. -/
theorem presence_eq (l : List Bool) : presence l = bytesOfNat 1 (bitsOf l) := by
  rw [← markBits_eq]; rfl

/-- A vector of eight as the list of its entries. -/
theorem vector8_eq {α : Type} (v : Vector α 8) :
    v.toList = [v[0], v[1], v[2], v[3], v[4], v[5], v[6], v[7]] := by
  apply List.ext_getElem (by simp)
  intro i h _
  have h8 : i < 8 := by simpa using h
  interval_cases i <;> simp

/-- The grades of a Geometry Record, two bits each. -/
theorem gradeBits_eq (v : Vector Nat 8) : gradeBits v.toList = ∑ q : Fin 8, v[q] * 4 ^ (7 - q.val) := by
  rw [vector8_eq]
  simp [gradeBits, Fin.sum_univ_eight]
  ring

/-- The presence mask of the eight parameters. -/
theorem valuesMask_eq (v : Vector (Option Int) 8) :
    markBits (v.toList.map Option.isSome) = ∑ q : Fin 8, (v[q]).isSome.toNat * 2 ^ q.val := by
  rw [vector8_eq, markBits_eq]
  have h0 : bitsOf [] = 0 := rfl
  simp only [List.map_cons, List.map_nil, bitsOf_cons, h0, Fin.sum_univ_eight]
  simp
  ring

/-- The present parameters in order. -/
theorem values_eq (v : Vector (Option Int) 8) :
    (v.toList.filterMap (fun x => x)).flatMap (bytesOfInt 2) =
      (List.finRange 8).flatMap (fun q => match v[q] with | some v => bytesOfInt 2 v | none => []) := by
  have h : v.toList = (List.finRange 8).map (fun q => v[q]) := by
    rw [vector8_eq]; rfl
  rw [h]
  generalize List.finRange 8 = l
  induction l with
  | nil => rfl
  | cons q l ih =>
    rw [List.map_cons, List.flatMap_cons, ← ih]
    cases v[q] <;> simp

/-- An item that may be absent (R197). -/
theorem optionalItem_eq {α : Type} (w : Nat) (f : α → List Byte) (x : Option α) :
    optionalItem w f x = itemOf w (x.map f) := by
  cases x <;> simp [optionalItem, itemOf, byteOf, List.replicate_succ]

/-- A field with a fixed place whose zero bytes are those of a default value (R197). -/
theorem fixedField_getD {α : Type} (w : Nat) (f : α → List Byte) (d : α) (x : Option α) (h : f d = List.replicate w 0#8) :
    fixedField w f x = f (x.getD d) := by
  cases x with
  | none => exact h.symm
  | some a => rfl

/-- A label in its fixed place. -/
theorem fixedField_label (x : Option Label) : fixedField 6 labelBytes x =
    match x with | some y => bytesOfNat 2 y.kilometre ++ bytesOfInt 4 y.offset | none => [0, 0, 0, 0, 0, 0] := by
  cases x <;> rfl

/-- A sixteen-bit label in its fixed place. -/
theorem fixedField_word (x : Option (BitVec 16)) :
    fixedField 2 (fun l => bytesOfNat 2 (BitVec.toNat l)) x = bytesOfNat 2 ((x.map BitVec.toNat).getD 0) := by
  cases x <;> rfl

/-! ## Bodies -/

/-- The body of a Geometry Record. -/
theorem GeometryRecord.body_eq (g : GeometryRecord) : g.body = g.spelled := by
  unfold GeometryRecord.body GeometryRecord.spelled
  rw [valuesMask_eq, gradeBits_eq, values_eq, presence_eq, markBits_eq, fixedField_label, fixedField_word,
    fixedField_getD 2 _ 0 g.speed rfl, fixedField_getD 4 _ 0 g.correction rfl]
  rfl

/-- The body of an Exceedance Report. -/
theorem Report.body_eq (x : Report) : x.body = x.spelled := by
  unfold Report.body Report.spelled
  rw [presence_eq, markBits_eq, fixedField_label, fixedField_word, fixedField_getD 4 _ 0 x.correction rfl]
  rfl

/-- The body of a control frame. -/
theorem ControlFrame.body_eq (f : ControlFrame) : f.body = f.spelled := by
  cases f with
  | urgent u =>
    show UrgentNotice.body u = ControlFrame.spelled (.urgent u)
    unfold ControlFrame.spelled UrgentNotice.body
    rw [presence_eq, fixedField_label, fixedField_getD 4 _ 0 u.serial rfl]
    rfl
  | status => rfl
  | reply => rfl

/-- The body of a mirrored frame. -/
theorem MirrorFrame.body_eq (m : MirrorFrame) :
    m.body = [BitVec.ofNat 8 (m.head.val + 1), m.kind.code.setWidth 8] ++ m.bytes := by
  obtain ⟨h, k, b⟩ := m
  cases k <;> rfl

/-! ## READ STATE -/

/-- A mark in one byte. -/
theorem byteOfBool_eq (b : Bool) : byteOfBool b = bytesOfNat 1 b.toNat := by cases b <;> rfl

/-- The relay slot (R185). -/
theorem relaySlotBytes_eq (x : RelaySlot) : relaySlotBytes x =
    bytesOfNat 1 (x.head.val + 1) ++ [x.tag] ++ itemOf 4 (x.deadline.map (fun t => bytesOfNat 4 t.toNat)) := by
  rw [relaySlotBytes, optionalItem_eq]; rfl

/-- One head of the HEAD LINK selection (R185). -/
theorem Part.headBytes_eq (p : Part) (h : Head) : p.headBytes h =
    let r := p.hlu.heads[h]
    let time : Option (BitVec 32) → List Byte := fun x => itemOf 4 (x.map (fun t => bytesOfNat 4 t.toNat))
    bytesOfNat 1 r.state.code ++ bytesOfNat 1 r.score ++ bytesOfNat 2 r.goodRun ++ time r.lastArrival ++
      itemOf 4 (r.lastSequence.map (fun b => bytesOfNat 4 b.toNat)) ++ time r.watchdog ++
      [r.status, r.riseMask, r.fallMask] ++ bytesOfNat 1 r.held.isSome.toNat ++
      bytesOfNat 1 (r.held.isSome && (p.shu.freshness[h]).isSome).toNat := by
  rw [Part.headBytes]
  simp only [optionalItem_eq, byteOfBool_eq]
  rfl

/-- A section (R122). -/
theorem sectionBytes_eq (x : TrackSection) : sectionBytes x =
    bytesOfInt 4 x.start ++ bytesOfInt 4 x.finish ++ bytesOfNat 1 x.cls.val ++ [x.suppressed] ++
      itemOf 2 (x.cant.map (bytesOfInt 2)) ++ bytesOfNat 2 x.label.toNat := by
  rw [sectionBytes, optionalItem_eq]; rfl

/-- A tracker slot (R149). -/
theorem slotBytes_eq (x : Slot) : slotBytes x =
    bytesOfNat 1 x.hold.code ++ bytesOfNat 1 x.urgentOwed.toNat ++ itemOf 10 (x.hold.ex?.map exceedanceBytes) := by
  rw [slotBytes, optionalItem_eq, byteOfBool_eq]; rfl

/-- A latch (R149). -/
theorem latchBytes_eq (x : Latch) : latchBytes x =
    bytesOfNat 1 x.isSet.toNat ++ bytesOfNat 1 x.urgentRaised.toNat ++ bytesOfNat 1 x.urgentOwed.toNat := by
  simp only [latchBytes, byteOfBool_eq]

/-- What READ STATE gives of a selection, item by item (R57, R81, R104, R122, R149, R163, R175, R185). -/
theorem Part.selection_eq (p : Part) (n : Nat) : p.selection n = p.stateBytes n := by
  unfold Part.selection Part.stateBytes
  split
  · simp only [Part.headLinkState, optionalItem_eq, byteOfBool_eq, funext relaySlotBytes_eq, funext (Part.headBytes_eq p)]
    rfl
  · simp only [Part.odometryState, optionalItem_eq, byteOfBool_eq, Channel.bytes, List.flatMap_cons, List.flatMap_nil,
      List.append_nil, List.append_assoc]
    rfl
  · simp only [Part.positionState, optionalItem_eq]
    rfl
  · simp only [Part.traceState, optionalItem_eq]
    rfl
  · simp only [Part.sectionsState, optionalItem_eq, byteOfBool_eq, funext sectionBytes_eq]
    rfl
  · simp only [Part.trackerState, funext slotBytes_eq, funext latchBytes_eq]
    congr
    funext x
    congr
    cases x.hold <;> rfl
  · simp only [Part.runBytes, optionalItem_eq]
    rfl
  · simp only [Part.recorderState, optionalItem_eq]
    rfl
  · simp only [Part.ordersState, optionalItem_eq]
    rfl
  · first
    | rfl
    | split <;> first | rfl | contradiction

/-! ## Numbers in bytes (00_scope.md section 3.3) -/

/-- A byte behind the high part of a number. -/
theorem toNat_append_byte (n : Nat) (x : BitVec n) (b : Byte) : (x ++ b).toNat = x.toNat * 256 + b.toNat := by
  rw [BitVec.toNat_append, Nat.shiftLeft_eq, Nat.mul_comm, ← Nat.two_pow_add_eq_or_of_lt b.isLt, Nat.mul_comm]

/-- Two bytes as a number. -/
theorem natOfBytes_two (a b : Byte) : natOfBytes [a, b] = (a ++ b).toNat := by
  simp only [natOfBytes, List.foldl_cons, List.foldl_nil, toNat_append_byte]; omega

/-- Four bytes as a number. -/
theorem natOfBytes_four (a b c d : Byte) : natOfBytes [a, b, c, d] = (a ++ b ++ c ++ d).toNat := by
  simp only [natOfBytes, List.foldl_cons, List.foldl_nil, toNat_append_byte]; omega

/-- Two bytes as a signed number. -/
theorem intOfBytes_two (a b : Byte) : intOfBytes [a, b] = (a ++ b).toInt := by
  rw [intOfBytes, BitVec.toInt_eq_toNat_cond, natOfBytes_two]; norm_num

/-- Four bytes as a signed number. -/
theorem intOfBytes_four (a b c d : Byte) : intOfBytes [a, b, c, d] = (a ++ b ++ c ++ d).toInt := by
  rw [intOfBytes, BitVec.toInt_eq_toNat_cond, natOfBytes_four]; norm_num

/-- The bytes of a number, each with its weight. -/
theorem natOfBytes_eq_sum (l : List Byte) :
    natOfBytes l = ∑ i ∈ Finset.range l.length, (l.reverse.getD i 0).toNat * 256 ^ i := by
  induction l using List.reverseRecOn with
  | nil => rfl
  | append_singleton l b ih =>
    have : natOfBytes (l ++ [b]) = natOfBytes l * 256 + b.toNat := by simp [natOfBytes]
    rw [this, ih]
    simp only [List.length_append, List.length_cons, List.length_nil, List.reverse_append, List.reverse_cons, List.reverse_nil]
    rw [Finset.sum_range_succ']
    simp [Finset.sum_mul, pow_succ, mul_assoc]

end Sys2Proof.Machine
end

