-- ==== Sys2Proof/Laws/State.lean ====
section
/-! SUPPORT. One lemma per block per update: what replacing one block of the part leaves in every block. -/

namespace Sys2Proof.Machine

variable (p : Part)

@[simp] theorem Part.withTime_time (x : Time) : (p.withTime x).time = x := rfl
@[simp] theorem Part.withTime_resetHeld (x : Time) : (p.withTime x).resetHeld = p.resetHeld := rfl
@[simp] theorem Part.withTime_hlu (x : Time) : (p.withTime x).hlu = p.hlu := rfl
@[simp] theorem Part.withTime_shu (x : Time) : (p.withTime x).shu = p.shu := rfl
@[simp] theorem Part.withTime_odu (x : Time) : (p.withTime x).odu = p.odu := rfl
@[simp] theorem Part.withTime_pfu (x : Time) : (p.withTime x).pfu = p.pfu := rfl
@[simp] theorem Part.withTime_tru (x : Time) : (p.withTime x).tru = p.tru := rfl
@[simp] theorem Part.withTime_lmu (x : Time) : (p.withTime x).lmu = p.lmu := rfl
@[simp] theorem Part.withTime_ext (x : Time) : (p.withTime x).ext = p.ext := rfl
@[simp] theorem Part.withTime_rnc (x : Time) : (p.withTime x).rnc = p.rnc := rfl
@[simp] theorem Part.withTime_rlu (x : Time) : (p.withTime x).rlu = p.rlu := rfl
@[simp] theorem Part.withTime_oru (x : Time) : (p.withTime x).oru = p.oru := rfl
@[simp] theorem Part.withTime_evu (x : Time) : (p.withTime x).evu = p.evu := rfl

@[simp] theorem Part.withResetHeld_time (x : Bool) : (p.withResetHeld x).time = p.time := rfl
@[simp] theorem Part.withResetHeld_resetHeld (x : Bool) : (p.withResetHeld x).resetHeld = x := rfl
@[simp] theorem Part.withResetHeld_hlu (x : Bool) : (p.withResetHeld x).hlu = p.hlu := rfl
@[simp] theorem Part.withResetHeld_shu (x : Bool) : (p.withResetHeld x).shu = p.shu := rfl
@[simp] theorem Part.withResetHeld_odu (x : Bool) : (p.withResetHeld x).odu = p.odu := rfl
@[simp] theorem Part.withResetHeld_pfu (x : Bool) : (p.withResetHeld x).pfu = p.pfu := rfl
@[simp] theorem Part.withResetHeld_tru (x : Bool) : (p.withResetHeld x).tru = p.tru := rfl
@[simp] theorem Part.withResetHeld_lmu (x : Bool) : (p.withResetHeld x).lmu = p.lmu := rfl
@[simp] theorem Part.withResetHeld_ext (x : Bool) : (p.withResetHeld x).ext = p.ext := rfl
@[simp] theorem Part.withResetHeld_rnc (x : Bool) : (p.withResetHeld x).rnc = p.rnc := rfl
@[simp] theorem Part.withResetHeld_rlu (x : Bool) : (p.withResetHeld x).rlu = p.rlu := rfl
@[simp] theorem Part.withResetHeld_oru (x : Bool) : (p.withResetHeld x).oru = p.oru := rfl
@[simp] theorem Part.withResetHeld_evu (x : Bool) : (p.withResetHeld x).evu = p.evu := rfl

@[simp] theorem Part.withHlu_time (x : Hlu) : (p.withHlu x).time = p.time := rfl
@[simp] theorem Part.withHlu_resetHeld (x : Hlu) : (p.withHlu x).resetHeld = p.resetHeld := rfl
@[simp] theorem Part.withHlu_hlu (x : Hlu) : (p.withHlu x).hlu = x := rfl
@[simp] theorem Part.withHlu_shu (x : Hlu) : (p.withHlu x).shu = p.shu := rfl
@[simp] theorem Part.withHlu_odu (x : Hlu) : (p.withHlu x).odu = p.odu := rfl
@[simp] theorem Part.withHlu_pfu (x : Hlu) : (p.withHlu x).pfu = p.pfu := rfl
@[simp] theorem Part.withHlu_tru (x : Hlu) : (p.withHlu x).tru = p.tru := rfl
@[simp] theorem Part.withHlu_lmu (x : Hlu) : (p.withHlu x).lmu = p.lmu := rfl
@[simp] theorem Part.withHlu_ext (x : Hlu) : (p.withHlu x).ext = p.ext := rfl
@[simp] theorem Part.withHlu_rnc (x : Hlu) : (p.withHlu x).rnc = p.rnc := rfl
@[simp] theorem Part.withHlu_rlu (x : Hlu) : (p.withHlu x).rlu = p.rlu := rfl
@[simp] theorem Part.withHlu_oru (x : Hlu) : (p.withHlu x).oru = p.oru := rfl
@[simp] theorem Part.withHlu_evu (x : Hlu) : (p.withHlu x).evu = p.evu := rfl

@[simp] theorem Part.withShu_time (x : Shu) : (p.withShu x).time = p.time := rfl
@[simp] theorem Part.withShu_resetHeld (x : Shu) : (p.withShu x).resetHeld = p.resetHeld := rfl
@[simp] theorem Part.withShu_hlu (x : Shu) : (p.withShu x).hlu = p.hlu := rfl
@[simp] theorem Part.withShu_shu (x : Shu) : (p.withShu x).shu = x := rfl
@[simp] theorem Part.withShu_odu (x : Shu) : (p.withShu x).odu = p.odu := rfl
@[simp] theorem Part.withShu_pfu (x : Shu) : (p.withShu x).pfu = p.pfu := rfl
@[simp] theorem Part.withShu_tru (x : Shu) : (p.withShu x).tru = p.tru := rfl
@[simp] theorem Part.withShu_lmu (x : Shu) : (p.withShu x).lmu = p.lmu := rfl
@[simp] theorem Part.withShu_ext (x : Shu) : (p.withShu x).ext = p.ext := rfl
@[simp] theorem Part.withShu_rnc (x : Shu) : (p.withShu x).rnc = p.rnc := rfl
@[simp] theorem Part.withShu_rlu (x : Shu) : (p.withShu x).rlu = p.rlu := rfl
@[simp] theorem Part.withShu_oru (x : Shu) : (p.withShu x).oru = p.oru := rfl
@[simp] theorem Part.withShu_evu (x : Shu) : (p.withShu x).evu = p.evu := rfl

@[simp] theorem Part.withOdu_time (x : Odu) : (p.withOdu x).time = p.time := rfl
@[simp] theorem Part.withOdu_resetHeld (x : Odu) : (p.withOdu x).resetHeld = p.resetHeld := rfl
@[simp] theorem Part.withOdu_hlu (x : Odu) : (p.withOdu x).hlu = p.hlu := rfl
@[simp] theorem Part.withOdu_shu (x : Odu) : (p.withOdu x).shu = p.shu := rfl
@[simp] theorem Part.withOdu_odu (x : Odu) : (p.withOdu x).odu = x := rfl
@[simp] theorem Part.withOdu_pfu (x : Odu) : (p.withOdu x).pfu = p.pfu := rfl
@[simp] theorem Part.withOdu_tru (x : Odu) : (p.withOdu x).tru = p.tru := rfl
@[simp] theorem Part.withOdu_lmu (x : Odu) : (p.withOdu x).lmu = p.lmu := rfl
@[simp] theorem Part.withOdu_ext (x : Odu) : (p.withOdu x).ext = p.ext := rfl
@[simp] theorem Part.withOdu_rnc (x : Odu) : (p.withOdu x).rnc = p.rnc := rfl
@[simp] theorem Part.withOdu_rlu (x : Odu) : (p.withOdu x).rlu = p.rlu := rfl
@[simp] theorem Part.withOdu_oru (x : Odu) : (p.withOdu x).oru = p.oru := rfl
@[simp] theorem Part.withOdu_evu (x : Odu) : (p.withOdu x).evu = p.evu := rfl

@[simp] theorem Part.withPfu_time (x : Pfu) : (p.withPfu x).time = p.time := rfl
@[simp] theorem Part.withPfu_resetHeld (x : Pfu) : (p.withPfu x).resetHeld = p.resetHeld := rfl
@[simp] theorem Part.withPfu_hlu (x : Pfu) : (p.withPfu x).hlu = p.hlu := rfl
@[simp] theorem Part.withPfu_shu (x : Pfu) : (p.withPfu x).shu = p.shu := rfl
@[simp] theorem Part.withPfu_odu (x : Pfu) : (p.withPfu x).odu = p.odu := rfl
@[simp] theorem Part.withPfu_pfu (x : Pfu) : (p.withPfu x).pfu = x := rfl
@[simp] theorem Part.withPfu_tru (x : Pfu) : (p.withPfu x).tru = p.tru := rfl
@[simp] theorem Part.withPfu_lmu (x : Pfu) : (p.withPfu x).lmu = p.lmu := rfl
@[simp] theorem Part.withPfu_ext (x : Pfu) : (p.withPfu x).ext = p.ext := rfl
@[simp] theorem Part.withPfu_rnc (x : Pfu) : (p.withPfu x).rnc = p.rnc := rfl
@[simp] theorem Part.withPfu_rlu (x : Pfu) : (p.withPfu x).rlu = p.rlu := rfl
@[simp] theorem Part.withPfu_oru (x : Pfu) : (p.withPfu x).oru = p.oru := rfl
@[simp] theorem Part.withPfu_evu (x : Pfu) : (p.withPfu x).evu = p.evu := rfl

@[simp] theorem Part.withTru_time (x : Tru) : (p.withTru x).time = p.time := rfl
@[simp] theorem Part.withTru_resetHeld (x : Tru) : (p.withTru x).resetHeld = p.resetHeld := rfl
@[simp] theorem Part.withTru_hlu (x : Tru) : (p.withTru x).hlu = p.hlu := rfl
@[simp] theorem Part.withTru_shu (x : Tru) : (p.withTru x).shu = p.shu := rfl
@[simp] theorem Part.withTru_odu (x : Tru) : (p.withTru x).odu = p.odu := rfl
@[simp] theorem Part.withTru_pfu (x : Tru) : (p.withTru x).pfu = p.pfu := rfl
@[simp] theorem Part.withTru_tru (x : Tru) : (p.withTru x).tru = x := rfl
@[simp] theorem Part.withTru_lmu (x : Tru) : (p.withTru x).lmu = p.lmu := rfl
@[simp] theorem Part.withTru_ext (x : Tru) : (p.withTru x).ext = p.ext := rfl
@[simp] theorem Part.withTru_rnc (x : Tru) : (p.withTru x).rnc = p.rnc := rfl
@[simp] theorem Part.withTru_rlu (x : Tru) : (p.withTru x).rlu = p.rlu := rfl
@[simp] theorem Part.withTru_oru (x : Tru) : (p.withTru x).oru = p.oru := rfl
@[simp] theorem Part.withTru_evu (x : Tru) : (p.withTru x).evu = p.evu := rfl

@[simp] theorem Part.withLmu_time (x : Lmu) : (p.withLmu x).time = p.time := rfl
@[simp] theorem Part.withLmu_resetHeld (x : Lmu) : (p.withLmu x).resetHeld = p.resetHeld := rfl
@[simp] theorem Part.withLmu_hlu (x : Lmu) : (p.withLmu x).hlu = p.hlu := rfl
@[simp] theorem Part.withLmu_shu (x : Lmu) : (p.withLmu x).shu = p.shu := rfl
@[simp] theorem Part.withLmu_odu (x : Lmu) : (p.withLmu x).odu = p.odu := rfl
@[simp] theorem Part.withLmu_pfu (x : Lmu) : (p.withLmu x).pfu = p.pfu := rfl
@[simp] theorem Part.withLmu_tru (x : Lmu) : (p.withLmu x).tru = p.tru := rfl
@[simp] theorem Part.withLmu_lmu (x : Lmu) : (p.withLmu x).lmu = x := rfl
@[simp] theorem Part.withLmu_ext (x : Lmu) : (p.withLmu x).ext = p.ext := rfl
@[simp] theorem Part.withLmu_rnc (x : Lmu) : (p.withLmu x).rnc = p.rnc := rfl
@[simp] theorem Part.withLmu_rlu (x : Lmu) : (p.withLmu x).rlu = p.rlu := rfl
@[simp] theorem Part.withLmu_oru (x : Lmu) : (p.withLmu x).oru = p.oru := rfl
@[simp] theorem Part.withLmu_evu (x : Lmu) : (p.withLmu x).evu = p.evu := rfl

@[simp] theorem Part.withExt_time (x : Ext) : (p.withExt x).time = p.time := rfl
@[simp] theorem Part.withExt_resetHeld (x : Ext) : (p.withExt x).resetHeld = p.resetHeld := rfl
@[simp] theorem Part.withExt_hlu (x : Ext) : (p.withExt x).hlu = p.hlu := rfl
@[simp] theorem Part.withExt_shu (x : Ext) : (p.withExt x).shu = p.shu := rfl
@[simp] theorem Part.withExt_odu (x : Ext) : (p.withExt x).odu = p.odu := rfl
@[simp] theorem Part.withExt_pfu (x : Ext) : (p.withExt x).pfu = p.pfu := rfl
@[simp] theorem Part.withExt_tru (x : Ext) : (p.withExt x).tru = p.tru := rfl
@[simp] theorem Part.withExt_lmu (x : Ext) : (p.withExt x).lmu = p.lmu := rfl
@[simp] theorem Part.withExt_ext (x : Ext) : (p.withExt x).ext = x := rfl
@[simp] theorem Part.withExt_rnc (x : Ext) : (p.withExt x).rnc = p.rnc := rfl
@[simp] theorem Part.withExt_rlu (x : Ext) : (p.withExt x).rlu = p.rlu := rfl
@[simp] theorem Part.withExt_oru (x : Ext) : (p.withExt x).oru = p.oru := rfl
@[simp] theorem Part.withExt_evu (x : Ext) : (p.withExt x).evu = p.evu := rfl

@[simp] theorem Part.withRnc_time (x : Rnc) : (p.withRnc x).time = p.time := rfl
@[simp] theorem Part.withRnc_resetHeld (x : Rnc) : (p.withRnc x).resetHeld = p.resetHeld := rfl
@[simp] theorem Part.withRnc_hlu (x : Rnc) : (p.withRnc x).hlu = p.hlu := rfl
@[simp] theorem Part.withRnc_shu (x : Rnc) : (p.withRnc x).shu = p.shu := rfl
@[simp] theorem Part.withRnc_odu (x : Rnc) : (p.withRnc x).odu = p.odu := rfl
@[simp] theorem Part.withRnc_pfu (x : Rnc) : (p.withRnc x).pfu = p.pfu := rfl
@[simp] theorem Part.withRnc_tru (x : Rnc) : (p.withRnc x).tru = p.tru := rfl
@[simp] theorem Part.withRnc_lmu (x : Rnc) : (p.withRnc x).lmu = p.lmu := rfl
@[simp] theorem Part.withRnc_ext (x : Rnc) : (p.withRnc x).ext = p.ext := rfl
@[simp] theorem Part.withRnc_rnc (x : Rnc) : (p.withRnc x).rnc = x := rfl
@[simp] theorem Part.withRnc_rlu (x : Rnc) : (p.withRnc x).rlu = p.rlu := rfl
@[simp] theorem Part.withRnc_oru (x : Rnc) : (p.withRnc x).oru = p.oru := rfl
@[simp] theorem Part.withRnc_evu (x : Rnc) : (p.withRnc x).evu = p.evu := rfl

@[simp] theorem Part.withRlu_time (x : Rlu) : (p.withRlu x).time = p.time := rfl
@[simp] theorem Part.withRlu_resetHeld (x : Rlu) : (p.withRlu x).resetHeld = p.resetHeld := rfl
@[simp] theorem Part.withRlu_hlu (x : Rlu) : (p.withRlu x).hlu = p.hlu := rfl
@[simp] theorem Part.withRlu_shu (x : Rlu) : (p.withRlu x).shu = p.shu := rfl
@[simp] theorem Part.withRlu_odu (x : Rlu) : (p.withRlu x).odu = p.odu := rfl
@[simp] theorem Part.withRlu_pfu (x : Rlu) : (p.withRlu x).pfu = p.pfu := rfl
@[simp] theorem Part.withRlu_tru (x : Rlu) : (p.withRlu x).tru = p.tru := rfl
@[simp] theorem Part.withRlu_lmu (x : Rlu) : (p.withRlu x).lmu = p.lmu := rfl
@[simp] theorem Part.withRlu_ext (x : Rlu) : (p.withRlu x).ext = p.ext := rfl
@[simp] theorem Part.withRlu_rnc (x : Rlu) : (p.withRlu x).rnc = p.rnc := rfl
@[simp] theorem Part.withRlu_rlu (x : Rlu) : (p.withRlu x).rlu = x := rfl
@[simp] theorem Part.withRlu_oru (x : Rlu) : (p.withRlu x).oru = p.oru := rfl
@[simp] theorem Part.withRlu_evu (x : Rlu) : (p.withRlu x).evu = p.evu := rfl

@[simp] theorem Part.withOru_time (x : Oru) : (p.withOru x).time = p.time := rfl
@[simp] theorem Part.withOru_resetHeld (x : Oru) : (p.withOru x).resetHeld = p.resetHeld := rfl
@[simp] theorem Part.withOru_hlu (x : Oru) : (p.withOru x).hlu = p.hlu := rfl
@[simp] theorem Part.withOru_shu (x : Oru) : (p.withOru x).shu = p.shu := rfl
@[simp] theorem Part.withOru_odu (x : Oru) : (p.withOru x).odu = p.odu := rfl
@[simp] theorem Part.withOru_pfu (x : Oru) : (p.withOru x).pfu = p.pfu := rfl
@[simp] theorem Part.withOru_tru (x : Oru) : (p.withOru x).tru = p.tru := rfl
@[simp] theorem Part.withOru_lmu (x : Oru) : (p.withOru x).lmu = p.lmu := rfl
@[simp] theorem Part.withOru_ext (x : Oru) : (p.withOru x).ext = p.ext := rfl
@[simp] theorem Part.withOru_rnc (x : Oru) : (p.withOru x).rnc = p.rnc := rfl
@[simp] theorem Part.withOru_rlu (x : Oru) : (p.withOru x).rlu = p.rlu := rfl
@[simp] theorem Part.withOru_oru (x : Oru) : (p.withOru x).oru = x := rfl
@[simp] theorem Part.withOru_evu (x : Oru) : (p.withOru x).evu = p.evu := rfl

@[simp] theorem Part.withEvu_time (x : Evu) : (p.withEvu x).time = p.time := rfl
@[simp] theorem Part.withEvu_resetHeld (x : Evu) : (p.withEvu x).resetHeld = p.resetHeld := rfl
@[simp] theorem Part.withEvu_hlu (x : Evu) : (p.withEvu x).hlu = p.hlu := rfl
@[simp] theorem Part.withEvu_shu (x : Evu) : (p.withEvu x).shu = p.shu := rfl
@[simp] theorem Part.withEvu_odu (x : Evu) : (p.withEvu x).odu = p.odu := rfl
@[simp] theorem Part.withEvu_pfu (x : Evu) : (p.withEvu x).pfu = p.pfu := rfl
@[simp] theorem Part.withEvu_tru (x : Evu) : (p.withEvu x).tru = p.tru := rfl
@[simp] theorem Part.withEvu_lmu (x : Evu) : (p.withEvu x).lmu = p.lmu := rfl
@[simp] theorem Part.withEvu_ext (x : Evu) : (p.withEvu x).ext = p.ext := rfl
@[simp] theorem Part.withEvu_rnc (x : Evu) : (p.withEvu x).rnc = p.rnc := rfl
@[simp] theorem Part.withEvu_rlu (x : Evu) : (p.withEvu x).rlu = p.rlu := rfl
@[simp] theorem Part.withEvu_oru (x : Evu) : (p.withEvu x).oru = p.oru := rfl
@[simp] theorem Part.withEvu_evu (x : Evu) : (p.withEvu x).evu = x := rfl

end Sys2Proof.Machine
end

