-- ==== Sys2Proof/Laws/OpsFrames.lean ====
section
/-! SUPPORT. The blocks that the counters, the control queue's replies and the Event Unit leave unchanged, one lemma per operation. -/

set_option linter.unusedTactic false
set_option linter.unreachableTactic false

namespace Sys2Proof.Machine

variable (p : Part)

@[simp] theorem Part.bumpBy_frame (c : Counter) (n : Nat) :
    (p.bumpBy c n).time = p.time ∧ (p.bumpBy c n).resetHeld = p.resetHeld ∧ (p.bumpBy c n).hlu = p.hlu ∧ (p.bumpBy c n).shu = p.shu ∧ (p.bumpBy c n).odu = p.odu ∧ (p.bumpBy c n).pfu = p.pfu ∧ (p.bumpBy c n).tru = p.tru ∧ (p.bumpBy c n).lmu = p.lmu ∧ (p.bumpBy c n).ext = p.ext ∧ (p.bumpBy c n).rnc = p.rnc ∧ (p.bumpBy c n).rlu = p.rlu ∧ (p.bumpBy c n).oru = p.oru := by
  unfold Part.bumpBy
  refine ⟨?_, ?_, ?_, ?_, ?_, ?_, ?_, ?_, ?_, ?_, ?_, ?_⟩ <;> (try dsimp only) <;> (repeat' split) <;> simp

@[simp] theorem Part.bump_frame (c : Counter) :
    (p.bump c).time = p.time ∧ (p.bump c).resetHeld = p.resetHeld ∧ (p.bump c).hlu = p.hlu ∧ (p.bump c).shu = p.shu ∧ (p.bump c).odu = p.odu ∧ (p.bump c).pfu = p.pfu ∧ (p.bump c).tru = p.tru ∧ (p.bump c).lmu = p.lmu ∧ (p.bump c).ext = p.ext ∧ (p.bump c).rnc = p.rnc ∧ (p.bump c).rlu = p.rlu ∧ (p.bump c).oru = p.oru := by
  unfold Part.bump
  refine ⟨?_, ?_, ?_, ?_, ?_, ?_, ?_, ?_, ?_, ?_, ?_, ?_⟩ <;> (try dsimp only) <;> (repeat' split) <;> simp

@[simp] theorem Part.fillReservation_frame (f : ControlFrame) :
    (p.fillReservation f).time = p.time ∧ (p.fillReservation f).resetHeld = p.resetHeld ∧ (p.fillReservation f).hlu = p.hlu ∧ (p.fillReservation f).shu = p.shu ∧ (p.fillReservation f).odu = p.odu ∧ (p.fillReservation f).pfu = p.pfu ∧ (p.fillReservation f).tru = p.tru ∧ (p.fillReservation f).lmu = p.lmu ∧ (p.fillReservation f).ext = p.ext ∧ (p.fillReservation f).rnc = p.rnc ∧ (p.fillReservation f).oru = p.oru ∧ (p.fillReservation f).evu = p.evu := by
  unfold Part.fillReservation
  refine ⟨?_, ?_, ?_, ?_, ?_, ?_, ?_, ?_, ?_, ?_, ?_, ?_⟩ <;> (try dsimp only) <;> (repeat' split) <;> simp

@[simp] theorem Part.setFlag_frame (e : Event) :
    (p.setFlag e).time = p.time ∧ (p.setFlag e).resetHeld = p.resetHeld ∧ (p.setFlag e).hlu = p.hlu ∧ (p.setFlag e).shu = p.shu ∧ (p.setFlag e).odu = p.odu ∧ (p.setFlag e).pfu = p.pfu ∧ (p.setFlag e).tru = p.tru ∧ (p.setFlag e).lmu = p.lmu ∧ (p.setFlag e).ext = p.ext ∧ (p.setFlag e).rnc = p.rnc ∧ (p.setFlag e).rlu = p.rlu ∧ (p.setFlag e).oru = p.oru := by
  unfold Part.setFlag
  refine ⟨?_, ?_, ?_, ?_, ?_, ?_, ?_, ?_, ?_, ?_, ?_, ?_⟩ <;> (try dsimp only) <;> (repeat' split) <;> simp

@[simp] theorem Part.offerNotice_frame (e : Event) :
    (p.offerNotice e).time = p.time ∧ (p.offerNotice e).resetHeld = p.resetHeld ∧ (p.offerNotice e).hlu = p.hlu ∧ (p.offerNotice e).shu = p.shu ∧ (p.offerNotice e).odu = p.odu ∧ (p.offerNotice e).pfu = p.pfu ∧ (p.offerNotice e).tru = p.tru ∧ (p.offerNotice e).lmu = p.lmu ∧ (p.offerNotice e).ext = p.ext ∧ (p.offerNotice e).rnc = p.rnc ∧ (p.offerNotice e).oru = p.oru := by
  unfold Part.offerNotice
  refine ⟨?_, ?_, ?_, ?_, ?_, ?_, ?_, ?_, ?_, ?_, ?_⟩ <;> (try dsimp only) <;> (repeat' split) <;> simp

@[simp] theorem Part.raise_frame (e : Event) :
    (p.raise e).time = p.time ∧ (p.raise e).resetHeld = p.resetHeld ∧ (p.raise e).hlu = p.hlu ∧ (p.raise e).shu = p.shu ∧ (p.raise e).odu = p.odu ∧ (p.raise e).pfu = p.pfu ∧ (p.raise e).tru = p.tru ∧ (p.raise e).lmu = p.lmu ∧ (p.raise e).ext = p.ext ∧ (p.raise e).rnc = p.rnc ∧ (p.raise e).oru = p.oru := by
  unfold Part.raise
  refine ⟨?_, ?_, ?_, ?_, ?_, ?_, ?_, ?_, ?_, ?_, ?_⟩ <;> (try dsimp only) <;> (repeat' split) <;> simp

@[simp] theorem Part.raiseTimes_frame (e : Event) (n : Nat) :
    (p.raiseTimes e n).time = p.time ∧ (p.raiseTimes e n).resetHeld = p.resetHeld ∧ (p.raiseTimes e n).hlu = p.hlu ∧ (p.raiseTimes e n).shu = p.shu ∧ (p.raiseTimes e n).odu = p.odu ∧ (p.raiseTimes e n).pfu = p.pfu ∧ (p.raiseTimes e n).tru = p.tru ∧ (p.raiseTimes e n).lmu = p.lmu ∧ (p.raiseTimes e n).ext = p.ext ∧ (p.raiseTimes e n).rnc = p.rnc ∧ (p.raiseTimes e n).oru = p.oru := by
  induction n generalizing p with
  | zero => exact ⟨rfl, rfl, rfl, rfl, rfl, rfl, rfl, rfl, rfl, rfl, rfl⟩
  | succ n ih => simp [Part.raiseTimes, ih]

@[simp] theorem Part.withSettings_frame (s : Settings) :
    (p.withSettings s).time = p.time ∧ (p.withSettings s).resetHeld = p.resetHeld ∧ (p.withSettings s).hlu = p.hlu ∧ (p.withSettings s).shu = p.shu ∧ (p.withSettings s).odu = p.odu ∧ (p.withSettings s).pfu = p.pfu ∧ (p.withSettings s).tru = p.tru ∧ (p.withSettings s).lmu = p.lmu ∧ (p.withSettings s).ext = p.ext ∧ (p.withSettings s).rnc = p.rnc ∧ (p.withSettings s).rlu = p.rlu ∧ (p.withSettings s).evu = p.evu := by
  unfold Part.withSettings
  refine ⟨?_, ?_, ?_, ?_, ?_, ?_, ?_, ?_, ?_, ?_, ?_, ?_⟩ <;> (try dsimp only) <;> (repeat' split) <;> simp

end Sys2Proof.Machine
end

