-- ==== Sys2Proof/Laws/Events.lean ====
section
/-! SUPPORT. Everything that raising an event can do: the flag, the mask, the control queue and the counters (R190, R191). -/

namespace Sys2Proof.Machine

theorem vmodify_get {α : Type} {n : Nat} (v : Vector α n) (i j : Fin n) (f : α → α) :
    (vmodify v i f)[j] = if i = j then f v[j] else v[j] := by
  unfold vmodify
  by_cases h : i = j
  · subst h; simp
  · have h' : i.val ≠ j.val := fun e => h (Fin.ext e)
    simp [h, h']

/-- A counter after another counter, or the same one, has been raised (R194). -/
theorem Part.bumpBy_counters (p : Part) (c : Counter) (n : Nat) (i : Fin 109) :
    (p.bumpBy c n).evu.counters[i] = if c.index = i then counterUp n p.evu.counters[i] else p.evu.counters[i] := by
  exact vmodify_get p.evu.counters c.index i (counterUp n)

/-- A counter raised twice is raised by the sum (R194). -/
theorem counterUp_add (a b v : Nat) : counterUp a (counterUp b v) = counterUp (a + b) v := by
  unfold counterUp; omega

theorem Part.bumpBy_bumpBy (p : Part) (c : Counter) (m n : Nat) :
    (p.bumpBy c m).bumpBy c n = p.bumpBy c (m + n) := by
  unfold Part.bumpBy Part.withEvu
  simp [vmodify, counterUp_add, Nat.add_comm]

@[simp] theorem Part.bumpBy_flags (p : Part) (c : Counter) (n : Nat) :
    (p.bumpBy c n).evu.flags = p.evu.flags ∧ (p.bumpBy c n).evu.mask = p.evu.mask := ⟨rfl, rfl⟩

@[simp] theorem Part.bump_flags (p : Part) (c : Counter) :
    (p.bump c).evu.flags = p.evu.flags ∧ (p.bump c).evu.mask = p.evu.mask := ⟨rfl, rfl⟩

@[simp] theorem Part.setFlag_evu (p : Part) (e : Event) :
    (p.setFlag e).evu.flags = flagsWith p.evu.flags e ∧ (p.setFlag e).evu.mask = p.evu.mask ∧
      (p.setFlag e).evu.counters = p.evu.counters := ⟨rfl, rfl, rfl⟩

/-- A set flag stays set when another is set. -/
theorem flagsWith_mono (f : BitVec 20) (e : Event) (i : Nat) (h : f.getLsbD i = true) :
    (flagsWith f e).getLsbD i = true := by
  simp [flagsWith, h]

/-- The flag that is set. -/
theorem flagsWith_self (f : BitVec 20) (e : Event) : (flagsWith f e).getLsbD e.number = true := by
  cases e <;> simp [flagsWith, Event.number]

/-- Raising an event leaves its flag set (R190). -/
theorem Part.raise_flagSet (p : Part) (e : Event) : (p.raise e).flagSet e = true := by
  unfold Part.raise
  split
  · assumption
  · split
    · unfold Part.offerNotice
      split
      · simp [Part.flagSet, flagsWith_self]
      · simp only [Part.flagSet, Part.setFlag_evu, Part.bump_flags]
        exact flagsWith_mono _ _ _ (flagsWith_self _ _)
    · simp [Part.flagSet, flagsWith_self]

/-- Raising an event clears no flag (R190). -/
theorem Part.raise_mono (p : Part) (e : Event) (i : Nat) (h : p.evu.flags.getLsbD i = true) :
    (p.raise e).evu.flags.getLsbD i = true := by
  unfold Part.raise
  split
  · exact h
  · split
    · unfold Part.offerNotice
      split
      · simpa using flagsWith_mono _ e i h
      · simp only [Part.setFlag_evu, Part.bump_flags]
        exact flagsWith_mono _ _ _ (flagsWith_mono _ _ _ h)
    · simpa using flagsWith_mono _ e i h

/-- Raising an event does not change the notice mask. -/
@[simp] theorem Part.raise_mask (p : Part) (e : Event) : (p.raise e).evu.mask = p.evu.mask := by
  unfold Part.raise
  split
  · rfl
  · split
    · unfold Part.offerNotice
      split <;> simp
    · simp

/-- Raising an event leaves the Recorder Link Unit as it was, or places one admitted status notice in the control queue (R191). -/
theorem Part.raise_rlu (p : Part) (e : Event) :
    (p.raise e).rlu = p.rlu ∨
      (p.rlu.admitsNonUrgent = true ∧ ∃ c f n r, (p.raise e).rlu = p.rlu.placeControl (.status c f n r)) := by
  unfold Part.raise
  split
  · exact Or.inl rfl
  · split
    · unfold Part.offerNotice
      split
      · rename_i h
        exact Or.inr ⟨h, e.number, (p.setFlag e).evu.flags, (p.setFlag e).tru.nextSeq, (p.setFlag e).pfu.routeDistance, rfl⟩
      · left; simp
    · left; simp

/-- Raising an event changes nothing of the Recorder Link Unit but the control queue. -/
@[simp] theorem Part.raise_rlu_rest (p : Part) (e : Event) :
    (p.raise e).rlu.link = p.rlu.link ∧ (p.raise e).rlu.linkErrors = p.rlu.linkErrors ∧
    (p.raise e).rlu.idleRun = p.rlu.idleRun ∧ (p.raise e).rlu.idleTally = p.rlu.idleTally ∧
    (p.raise e).rlu.credits = p.rlu.credits ∧ (p.raise e).rlu.reservations = p.rlu.reservations ∧
    (p.raise e).rlu.xr = p.rlu.xr ∧ (p.raise e).rlu.gr = p.rlu.gr ∧ (p.raise e).rlu.mirror = p.rlu.mirror ∧
    (p.raise e).rlu.tx = p.rlu.tx ∧ (p.raise e).rlu.grDropped = p.rlu.grDropped ∧ (p.raise e).rlu.rx = p.rlu.rx := by
  rcases p.raise_rlu e with h | ⟨_, c, f, n, r, h⟩ <;> rw [h] <;> simp [Rlu.placeControl]

/-- Raising an event raises no counter but those of status notices sent and lost (R191). -/
theorem Part.raise_counters (p : Part) (e : Event) (i : Fin 109)
    (h1 : i ≠ Counter.statusSent.index) (h2 : i ≠ Counter.noticesLost.index) :
    (p.raise e).evu.counters[i] = p.evu.counters[i] := by
  unfold Part.raise
  split
  · rfl
  · split
    · unfold Part.offerNotice
      split
      · unfold Part.bump
        rw [Part.bumpBy_counters, if_neg h1.symm]
        rfl
      · show ((p.setFlag e).bump .noticesLost).evu.counters[i] = _
        unfold Part.bump
        rw [Part.bumpBy_counters, if_neg h2.symm]
        rfl
    · rfl

end Sys2Proof.Machine
end

