-- ==== Sys2Proof/Laws/LimitsFrames.lean ====
section
/-! SUPPORT. The blocks that the Limit Unit's operations leave unchanged, one lemma per operation. -/

set_option linter.unusedTactic false
set_option linter.unreachableTactic false

namespace Sys2Proof.Machine

variable (p : Part)

@[simp] theorem Part.sectionLowTest_frame :
    (p.sectionLowTest).time = p.time ∧ (p.sectionLowTest).resetHeld = p.resetHeld ∧ (p.sectionLowTest).hlu = p.hlu ∧ (p.sectionLowTest).shu = p.shu ∧ (p.sectionLowTest).odu = p.odu ∧ (p.sectionLowTest).pfu = p.pfu ∧ (p.sectionLowTest).tru = p.tru ∧ (p.sectionLowTest).ext = p.ext ∧ (p.sectionLowTest).rnc = p.rnc ∧ (p.sectionLowTest).oru = p.oru := by
  unfold Part.sectionLowTest
  refine ⟨?_, ?_, ?_, ?_, ?_, ?_, ?_, ?_, ?_, ?_⟩ <;> (try dsimp only) <;> (repeat' split) <;> simp

@[simp] theorem Part.sectionStarvedTest_frame :
    (p.sectionStarvedTest).time = p.time ∧ (p.sectionStarvedTest).resetHeld = p.resetHeld ∧ (p.sectionStarvedTest).hlu = p.hlu ∧ (p.sectionStarvedTest).shu = p.shu ∧ (p.sectionStarvedTest).odu = p.odu ∧ (p.sectionStarvedTest).pfu = p.pfu ∧ (p.sectionStarvedTest).tru = p.tru ∧ (p.sectionStarvedTest).lmu = p.lmu ∧ (p.sectionStarvedTest).ext = p.ext ∧ (p.sectionStarvedTest).rnc = p.rnc ∧ (p.sectionStarvedTest).oru = p.oru := by
  unfold Part.sectionStarvedTest
  refine ⟨?_, ?_, ?_, ?_, ?_, ?_, ?_, ?_, ?_, ?_, ?_⟩ <;> (try dsimp only) <;> (repeat' split) <;> simp

@[simp] theorem Part.sectionAdvance_frame :
    (p.sectionAdvance).time = p.time ∧ (p.sectionAdvance).resetHeld = p.resetHeld ∧ (p.sectionAdvance).hlu = p.hlu ∧ (p.sectionAdvance).shu = p.shu ∧ (p.sectionAdvance).odu = p.odu ∧ (p.sectionAdvance).pfu = p.pfu ∧ (p.sectionAdvance).tru = p.tru ∧ (p.sectionAdvance).ext = p.ext ∧ (p.sectionAdvance).rnc = p.rnc ∧ (p.sectionAdvance).oru = p.oru := by
  unfold Part.sectionAdvance
  refine ⟨?_, ?_, ?_, ?_, ?_, ?_, ?_, ?_, ?_, ?_⟩ <;> (try dsimp only) <;> (repeat' split) <;> simp

@[simp] theorem Part.emptySections_frame :
    (p.emptySections).time = p.time ∧ (p.emptySections).resetHeld = p.resetHeld ∧ (p.emptySections).hlu = p.hlu ∧ (p.emptySections).shu = p.shu ∧ (p.emptySections).odu = p.odu ∧ (p.emptySections).pfu = p.pfu ∧ (p.emptySections).tru = p.tru ∧ (p.emptySections).ext = p.ext ∧ (p.emptySections).rnc = p.rnc ∧ (p.emptySections).rlu = p.rlu ∧ (p.emptySections).oru = p.oru ∧ (p.emptySections).evu = p.evu := by
  unfold Part.emptySections
  refine ⟨?_, ?_, ?_, ?_, ?_, ?_, ?_, ?_, ?_, ?_, ?_, ?_⟩ <;> (try dsimp only) <;> (repeat' split) <;> simp

@[simp] theorem Part.armSections_frame :
    (p.armSections).time = p.time ∧ (p.armSections).resetHeld = p.resetHeld ∧ (p.armSections).hlu = p.hlu ∧ (p.armSections).shu = p.shu ∧ (p.armSections).odu = p.odu ∧ (p.armSections).pfu = p.pfu ∧ (p.armSections).tru = p.tru ∧ (p.armSections).ext = p.ext ∧ (p.armSections).rnc = p.rnc ∧ (p.armSections).rlu = p.rlu ∧ (p.armSections).oru = p.oru ∧ (p.armSections).evu = p.evu := by
  unfold Part.armSections
  refine ⟨?_, ?_, ?_, ?_, ?_, ?_, ?_, ?_, ?_, ?_, ?_, ?_⟩ <;> (try dsimp only) <;> (repeat' split) <;> simp

@[simp] theorem Part.appendSectionList_frame (rs : List RawSection) :
    (p.appendSectionList rs).1.time = p.time ∧ (p.appendSectionList rs).1.resetHeld = p.resetHeld ∧ (p.appendSectionList rs).1.hlu = p.hlu ∧ (p.appendSectionList rs).1.shu = p.shu ∧ (p.appendSectionList rs).1.odu = p.odu ∧ (p.appendSectionList rs).1.pfu = p.pfu ∧ (p.appendSectionList rs).1.tru = p.tru ∧ (p.appendSectionList rs).1.ext = p.ext ∧ (p.appendSectionList rs).1.rnc = p.rnc ∧ (p.appendSectionList rs).1.rlu = p.rlu ∧ (p.appendSectionList rs).1.oru = p.oru ∧ (p.appendSectionList rs).1.evu = p.evu := by
  unfold Part.appendSectionList
  refine ⟨?_, ?_, ?_, ?_, ?_, ?_, ?_, ?_, ?_, ?_, ?_, ?_⟩ <;> (try dsimp only) <;> (repeat' split) <;> simp

end Sys2Proof.Machine
end

