-- ==== Sys2Proof/Laws/TrackerFrames.lean ====
section
/-! SUPPORT. The blocks that the Exceedance Tracker's operations leave unchanged, one lemma per operation. -/

set_option linter.unusedTactic false
set_option linter.unreachableTactic false

namespace Sys2Proof.Machine

variable (p : Part)

@[simp] theorem Part.setSlot_frame (n : SlotNo) (x : Slot) :
    (p.setSlot n x).time = p.time ∧ (p.setSlot n x).resetHeld = p.resetHeld ∧ (p.setSlot n x).hlu = p.hlu ∧ (p.setSlot n x).shu = p.shu ∧ (p.setSlot n x).odu = p.odu ∧ (p.setSlot n x).pfu = p.pfu ∧ (p.setSlot n x).tru = p.tru ∧ (p.setSlot n x).lmu = p.lmu ∧ (p.setSlot n x).rnc = p.rnc ∧ (p.setSlot n x).rlu = p.rlu ∧ (p.setSlot n x).oru = p.oru ∧ (p.setSlot n x).evu = p.evu := by
  unfold Part.setSlot
  refine ⟨?_, ?_, ?_, ?_, ?_, ?_, ?_, ?_, ?_, ?_, ?_, ?_⟩ <;> (try dsimp only) <;> (repeat' split) <;> simp

@[simp] theorem Part.setHold_frame (n : SlotNo) (x : SlotHold) :
    (p.setHold n x).time = p.time ∧ (p.setHold n x).resetHeld = p.resetHeld ∧ (p.setHold n x).hlu = p.hlu ∧ (p.setHold n x).shu = p.shu ∧ (p.setHold n x).odu = p.odu ∧ (p.setHold n x).pfu = p.pfu ∧ (p.setHold n x).tru = p.tru ∧ (p.setHold n x).lmu = p.lmu ∧ (p.setHold n x).rnc = p.rnc ∧ (p.setHold n x).rlu = p.rlu ∧ (p.setHold n x).oru = p.oru ∧ (p.setHold n x).evu = p.evu := by
  unfold Part.setHold
  refine ⟨?_, ?_, ?_, ?_, ?_, ?_, ?_, ?_, ?_, ?_, ?_, ?_⟩ <;> (try dsimp only) <;> (repeat' split) <;> simp

@[simp] theorem Part.onLatch_frame (k : Pair) (f : Latch → Latch) :
    (p.onLatch k f).time = p.time ∧ (p.onLatch k f).resetHeld = p.resetHeld ∧ (p.onLatch k f).hlu = p.hlu ∧ (p.onLatch k f).shu = p.shu ∧ (p.onLatch k f).odu = p.odu ∧ (p.onLatch k f).pfu = p.pfu ∧ (p.onLatch k f).tru = p.tru ∧ (p.onLatch k f).lmu = p.lmu ∧ (p.onLatch k f).rnc = p.rnc ∧ (p.onLatch k f).rlu = p.rlu ∧ (p.onLatch k f).oru = p.oru ∧ (p.onLatch k f).evu = p.evu := by
  unfold Part.onLatch
  refine ⟨?_, ?_, ?_, ?_, ?_, ?_, ?_, ?_, ?_, ?_, ?_, ?_⟩ <;> (try dsimp only) <;> (repeat' split) <;> simp

@[simp] theorem Part.markOwed_frame (w : Owner) (b : Bool) :
    (p.markOwed w b).time = p.time ∧ (p.markOwed w b).resetHeld = p.resetHeld ∧ (p.markOwed w b).hlu = p.hlu ∧ (p.markOwed w b).shu = p.shu ∧ (p.markOwed w b).odu = p.odu ∧ (p.markOwed w b).pfu = p.pfu ∧ (p.markOwed w b).tru = p.tru ∧ (p.markOwed w b).lmu = p.lmu ∧ (p.markOwed w b).rnc = p.rnc ∧ (p.markOwed w b).rlu = p.rlu ∧ (p.markOwed w b).oru = p.oru ∧ (p.markOwed w b).evu = p.evu := by
  unfold Part.markOwed
  refine ⟨?_, ?_, ?_, ?_, ?_, ?_, ?_, ?_, ?_, ?_, ?_, ?_⟩ <;> (try dsimp only) <;> (repeat' split) <;> simp

@[simp] theorem Part.markSent_frame (w : Owner) :
    (p.markSent w).time = p.time ∧ (p.markSent w).resetHeld = p.resetHeld ∧ (p.markSent w).hlu = p.hlu ∧ (p.markSent w).shu = p.shu ∧ (p.markSent w).odu = p.odu ∧ (p.markSent w).pfu = p.pfu ∧ (p.markSent w).tru = p.tru ∧ (p.markSent w).lmu = p.lmu ∧ (p.markSent w).rnc = p.rnc ∧ (p.markSent w).rlu = p.rlu ∧ (p.markSent w).oru = p.oru ∧ (p.markSent w).evu = p.evu := by
  unfold Part.markSent
  refine ⟨?_, ?_, ?_, ?_, ?_, ?_, ?_, ?_, ?_, ?_, ?_, ?_⟩ <;> (try dsimp only) <;> (repeat' split) <;> simp

@[simp] theorem Part.sendUrgent_frame (w : Owner) (u : UrgentNotice) :
    (p.sendUrgent w u).time = p.time ∧ (p.sendUrgent w u).resetHeld = p.resetHeld ∧ (p.sendUrgent w u).hlu = p.hlu ∧ (p.sendUrgent w u).shu = p.shu ∧ (p.sendUrgent w u).odu = p.odu ∧ (p.sendUrgent w u).pfu = p.pfu ∧ (p.sendUrgent w u).tru = p.tru ∧ (p.sendUrgent w u).lmu = p.lmu ∧ (p.sendUrgent w u).rnc = p.rnc ∧ (p.sendUrgent w u).oru = p.oru := by
  unfold Part.sendUrgent
  refine ⟨?_, ?_, ?_, ?_, ?_, ?_, ?_, ?_, ?_, ?_⟩ <;> (try dsimp only) <;> (repeat' split) <;> simp

@[simp] theorem Part.urgentDue_frame (w : Owner) (u : UrgentNotice) :
    (p.urgentDue w u).time = p.time ∧ (p.urgentDue w u).resetHeld = p.resetHeld ∧ (p.urgentDue w u).hlu = p.hlu ∧ (p.urgentDue w u).shu = p.shu ∧ (p.urgentDue w u).odu = p.odu ∧ (p.urgentDue w u).pfu = p.pfu ∧ (p.urgentDue w u).tru = p.tru ∧ (p.urgentDue w u).lmu = p.lmu ∧ (p.urgentDue w u).rnc = p.rnc ∧ (p.urgentDue w u).oru = p.oru := by
  unfold Part.urgentDue
  refine ⟨?_, ?_, ?_, ?_, ?_, ?_, ?_, ?_, ?_, ?_⟩ <;> (try dsimp only) <;> (repeat' split) <;> simp

@[simp] theorem Part.moveOwedList_frame (l : List Owed) :
    (p.moveOwedList l).time = p.time ∧ (p.moveOwedList l).resetHeld = p.resetHeld ∧ (p.moveOwedList l).hlu = p.hlu ∧ (p.moveOwedList l).shu = p.shu ∧ (p.moveOwedList l).odu = p.odu ∧ (p.moveOwedList l).pfu = p.pfu ∧ (p.moveOwedList l).tru = p.tru ∧ (p.moveOwedList l).lmu = p.lmu ∧ (p.moveOwedList l).rnc = p.rnc ∧ (p.moveOwedList l).oru = p.oru := by
  induction l generalizing p with
  | nil => exact ⟨rfl, rfl, rfl, rfl, rfl, rfl, rfl, rfl, rfl, rfl⟩
  | cons x xs ih =>
    unfold Part.moveOwedList
    split
    · simp [ih]
    · exact ⟨rfl, rfl, rfl, rfl, rfl, rfl, rfl, rfl, rfl, rfl⟩

@[simp] theorem Part.moveOwed_frame :
    (p.moveOwed).time = p.time ∧ (p.moveOwed).resetHeld = p.resetHeld ∧ (p.moveOwed).hlu = p.hlu ∧ (p.moveOwed).shu = p.shu ∧ (p.moveOwed).odu = p.odu ∧ (p.moveOwed).pfu = p.pfu ∧ (p.moveOwed).tru = p.tru ∧ (p.moveOwed).lmu = p.lmu ∧ (p.moveOwed).rnc = p.rnc ∧ (p.moveOwed).oru = p.oru := by
  unfold Part.moveOwed
  refine ⟨?_, ?_, ?_, ?_, ?_, ?_, ?_, ?_, ?_, ?_⟩ <;> (try dsimp only) <;> (repeat' split) <;> simp

@[simp] theorem Part.placeReport_frame (n : SlotNo) (ex : Exceedance) (r : Report) :
    (p.placeReport n ex r).time = p.time ∧ (p.placeReport n ex r).resetHeld = p.resetHeld ∧ (p.placeReport n ex r).hlu = p.hlu ∧ (p.placeReport n ex r).shu = p.shu ∧ (p.placeReport n ex r).odu = p.odu ∧ (p.placeReport n ex r).pfu = p.pfu ∧ (p.placeReport n ex r).tru = p.tru ∧ (p.placeReport n ex r).lmu = p.lmu ∧ (p.placeReport n ex r).rnc = p.rnc ∧ (p.placeReport n ex r).oru = p.oru := by
  unfold Part.placeReport
  refine ⟨?_, ?_, ?_, ?_, ?_, ?_, ?_, ?_, ?_, ?_⟩ <;> (try dsimp only) <;> (repeat' split) <;> simp

@[simp] theorem Part.holdReport_frame (n : SlotNo) (ex : Exceedance) (r : Report) :
    (p.holdReport n ex r).time = p.time ∧ (p.holdReport n ex r).resetHeld = p.resetHeld ∧ (p.holdReport n ex r).hlu = p.hlu ∧ (p.holdReport n ex r).shu = p.shu ∧ (p.holdReport n ex r).odu = p.odu ∧ (p.holdReport n ex r).pfu = p.pfu ∧ (p.holdReport n ex r).tru = p.tru ∧ (p.holdReport n ex r).lmu = p.lmu ∧ (p.holdReport n ex r).rnc = p.rnc ∧ (p.holdReport n ex r).rlu = p.rlu ∧ (p.holdReport n ex r).oru = p.oru := by
  unfold Part.holdReport
  refine ⟨?_, ?_, ?_, ?_, ?_, ?_, ?_, ?_, ?_, ?_, ?_⟩ <;> (try dsimp only) <;> (repeat' split) <;> simp

@[simp] theorem Part.finaliseEx_frame (n : SlotNo) (ex : Exceedance) (cut : Option CutFlag) :
    (p.finaliseEx n ex cut).time = p.time ∧ (p.finaliseEx n ex cut).resetHeld = p.resetHeld ∧ (p.finaliseEx n ex cut).hlu = p.hlu ∧ (p.finaliseEx n ex cut).shu = p.shu ∧ (p.finaliseEx n ex cut).odu = p.odu ∧ (p.finaliseEx n ex cut).pfu = p.pfu ∧ (p.finaliseEx n ex cut).tru = p.tru ∧ (p.finaliseEx n ex cut).lmu = p.lmu ∧ (p.finaliseEx n ex cut).rnc = p.rnc ∧ (p.finaliseEx n ex cut).oru = p.oru := by
  unfold Part.finaliseEx
  refine ⟨?_, ?_, ?_, ?_, ?_, ?_, ?_, ?_, ?_, ?_⟩ <;> (try dsimp only) <;> (repeat' split) <;> simp

@[simp] theorem Part.cutSlot_frame (c : CutFlag) (n : SlotNo) :
    (p.cutSlot c n).time = p.time ∧ (p.cutSlot c n).resetHeld = p.resetHeld ∧ (p.cutSlot c n).hlu = p.hlu ∧ (p.cutSlot c n).shu = p.shu ∧ (p.cutSlot c n).odu = p.odu ∧ (p.cutSlot c n).pfu = p.pfu ∧ (p.cutSlot c n).tru = p.tru ∧ (p.cutSlot c n).lmu = p.lmu ∧ (p.cutSlot c n).rnc = p.rnc ∧ (p.cutSlot c n).oru = p.oru := by
  unfold Part.cutSlot
  refine ⟨?_, ?_, ?_, ?_, ?_, ?_, ?_, ?_, ?_, ?_⟩ <;> (try dsimp only) <;> (repeat' split) <;> simp

@[simp] theorem Part.clearLatches_frame :
    (p.clearLatches).time = p.time ∧ (p.clearLatches).resetHeld = p.resetHeld ∧ (p.clearLatches).hlu = p.hlu ∧ (p.clearLatches).shu = p.shu ∧ (p.clearLatches).odu = p.odu ∧ (p.clearLatches).pfu = p.pfu ∧ (p.clearLatches).tru = p.tru ∧ (p.clearLatches).lmu = p.lmu ∧ (p.clearLatches).rnc = p.rnc ∧ (p.clearLatches).rlu = p.rlu ∧ (p.clearLatches).oru = p.oru ∧ (p.clearLatches).evu = p.evu := by
  unfold Part.clearLatches
  refine ⟨?_, ?_, ?_, ?_, ?_, ?_, ?_, ?_, ?_, ?_, ?_, ?_⟩ <;> (try dsimp only) <;> (repeat' split) <;> simp

@[simp] theorem Part.foldl_cutSlot_frame (c : CutFlag) (l : List SlotNo) :
    (l.foldl (fun q n => Part.cutSlot q c n) p).time = p.time ∧ (l.foldl (fun q n => Part.cutSlot q c n) p).resetHeld = p.resetHeld ∧ (l.foldl (fun q n => Part.cutSlot q c n) p).hlu = p.hlu ∧ (l.foldl (fun q n => Part.cutSlot q c n) p).shu = p.shu ∧ (l.foldl (fun q n => Part.cutSlot q c n) p).odu = p.odu ∧ (l.foldl (fun q n => Part.cutSlot q c n) p).pfu = p.pfu ∧ (l.foldl (fun q n => Part.cutSlot q c n) p).tru = p.tru ∧ (l.foldl (fun q n => Part.cutSlot q c n) p).lmu = p.lmu ∧ (l.foldl (fun q n => Part.cutSlot q c n) p).rnc = p.rnc ∧ (l.foldl (fun q n => Part.cutSlot q c n) p).oru = p.oru := by
  induction l generalizing p with
  | nil => exact ⟨rfl, rfl, rfl, rfl, rfl, rfl, rfl, rfl, rfl, rfl⟩
  | cons x xs ih => simp [ih]

@[simp] theorem Part.cut_frame (c : CutFlag) :
    (p.cut c).time = p.time ∧ (p.cut c).resetHeld = p.resetHeld ∧ (p.cut c).hlu = p.hlu ∧ (p.cut c).shu = p.shu ∧ (p.cut c).odu = p.odu ∧ (p.cut c).pfu = p.pfu ∧ (p.cut c).tru = p.tru ∧ (p.cut c).lmu = p.lmu ∧ (p.cut c).rnc = p.rnc ∧ (p.cut c).oru = p.oru := by
  unfold Part.cut
  refine ⟨?_, ?_, ?_, ?_, ?_, ?_, ?_, ?_, ?_, ?_⟩ <;> (try dsimp only) <;> (repeat' split) <;> simp

@[simp] theorem Part.correctSlots_frame (c : Int) :
    (p.correctSlots c).time = p.time ∧ (p.correctSlots c).resetHeld = p.resetHeld ∧ (p.correctSlots c).hlu = p.hlu ∧ (p.correctSlots c).shu = p.shu ∧ (p.correctSlots c).odu = p.odu ∧ (p.correctSlots c).pfu = p.pfu ∧ (p.correctSlots c).tru = p.tru ∧ (p.correctSlots c).lmu = p.lmu ∧ (p.correctSlots c).rnc = p.rnc ∧ (p.correctSlots c).rlu = p.rlu ∧ (p.correctSlots c).oru = p.oru ∧ (p.correctSlots c).evu = p.evu := by
  unfold Part.correctSlots
  refine ⟨?_, ?_, ?_, ?_, ?_, ?_, ?_, ?_, ?_, ?_, ?_, ?_⟩ <;> (try dsimp only) <;> (repeat' split) <;> simp

@[simp] theorem Part.promotePending_frame :
    (p.promotePending).time = p.time ∧ (p.promotePending).resetHeld = p.resetHeld ∧ (p.promotePending).hlu = p.hlu ∧ (p.promotePending).shu = p.shu ∧ (p.promotePending).odu = p.odu ∧ (p.promotePending).pfu = p.pfu ∧ (p.promotePending).tru = p.tru ∧ (p.promotePending).lmu = p.lmu ∧ (p.promotePending).rnc = p.rnc ∧ (p.promotePending).oru = p.oru := by
  unfold Part.promotePending
  refine ⟨?_, ?_, ?_, ?_, ?_, ?_, ?_, ?_, ?_, ?_⟩ <;> (try dsimp only) <;> (repeat' split) <;> simp

@[simp] theorem Part.contributeTo_frame (n : SlotNo) (k : Pair) (ex : Exceedance) (r : Emitted) (v : Int) (g : Nat) :
    (p.contributeTo n k ex r v g).time = p.time ∧ (p.contributeTo n k ex r v g).resetHeld = p.resetHeld ∧ (p.contributeTo n k ex r v g).hlu = p.hlu ∧ (p.contributeTo n k ex r v g).shu = p.shu ∧ (p.contributeTo n k ex r v g).odu = p.odu ∧ (p.contributeTo n k ex r v g).pfu = p.pfu ∧ (p.contributeTo n k ex r v g).tru = p.tru ∧ (p.contributeTo n k ex r v g).lmu = p.lmu ∧ (p.contributeTo n k ex r v g).rnc = p.rnc ∧ (p.contributeTo n k ex r v g).oru = p.oru := by
  unfold Part.contributeTo
  refine ⟨?_, ?_, ?_, ?_, ?_, ?_, ?_, ?_, ?_, ?_⟩ <;> (try dsimp only) <;> (repeat' split) <;> simp

@[simp] theorem Part.insideStep_frame (n : SlotNo) (ex : Exceedance) (c : Nat) :
    (p.insideStep n ex c).time = p.time ∧ (p.insideStep n ex c).resetHeld = p.resetHeld ∧ (p.insideStep n ex c).hlu = p.hlu ∧ (p.insideStep n ex c).shu = p.shu ∧ (p.insideStep n ex c).odu = p.odu ∧ (p.insideStep n ex c).pfu = p.pfu ∧ (p.insideStep n ex c).tru = p.tru ∧ (p.insideStep n ex c).lmu = p.lmu ∧ (p.insideStep n ex c).rnc = p.rnc ∧ (p.insideStep n ex c).oru = p.oru := by
  unfold Part.insideStep
  refine ⟨?_, ?_, ?_, ?_, ?_, ?_, ?_, ?_, ?_, ?_⟩ <;> (try dsimp only) <;> (repeat' split) <;> simp

@[simp] theorem Part.heldStep_frame (n : SlotNo) (ex : Exceedance) :
    (p.heldStep n ex).time = p.time ∧ (p.heldStep n ex).resetHeld = p.resetHeld ∧ (p.heldStep n ex).hlu = p.hlu ∧ (p.heldStep n ex).shu = p.shu ∧ (p.heldStep n ex).odu = p.odu ∧ (p.heldStep n ex).pfu = p.pfu ∧ (p.heldStep n ex).tru = p.tru ∧ (p.heldStep n ex).lmu = p.lmu ∧ (p.heldStep n ex).rnc = p.rnc ∧ (p.heldStep n ex).oru = p.oru := by
  unfold Part.heldStep
  refine ⟨?_, ?_, ?_, ?_, ?_, ?_, ?_, ?_, ?_, ?_⟩ <;> (try dsimp only) <;> (repeat' split) <;> simp

@[simp] theorem Part.slotTakes_frame (n : SlotNo) (k : Pair) (ph : SlotPhase) (ex : Exceedance) (r : Emitted) :
    (p.slotTakes n k ph ex r).time = p.time ∧ (p.slotTakes n k ph ex r).resetHeld = p.resetHeld ∧ (p.slotTakes n k ph ex r).hlu = p.hlu ∧ (p.slotTakes n k ph ex r).shu = p.shu ∧ (p.slotTakes n k ph ex r).odu = p.odu ∧ (p.slotTakes n k ph ex r).pfu = p.pfu ∧ (p.slotTakes n k ph ex r).tru = p.tru ∧ (p.slotTakes n k ph ex r).lmu = p.lmu ∧ (p.slotTakes n k ph ex r).rnc = p.rnc ∧ (p.slotTakes n k ph ex r).oru = p.oru := by
  unfold Part.slotTakes
  refine ⟨?_, ?_, ?_, ?_, ?_, ?_, ?_, ?_, ?_, ?_⟩ <;> (try dsimp only) <;> (repeat' split) <;> simp

@[simp] theorem Part.latchOut_frame (k : Pair) (r : Emitted) (v : Int) (g : Nat) :
    (p.latchOut k r v g).time = p.time ∧ (p.latchOut k r v g).resetHeld = p.resetHeld ∧ (p.latchOut k r v g).hlu = p.hlu ∧ (p.latchOut k r v g).shu = p.shu ∧ (p.latchOut k r v g).odu = p.odu ∧ (p.latchOut k r v g).pfu = p.pfu ∧ (p.latchOut k r v g).tru = p.tru ∧ (p.latchOut k r v g).lmu = p.lmu ∧ (p.latchOut k r v g).rnc = p.rnc ∧ (p.latchOut k r v g).oru = p.oru := by
  unfold Part.latchOut
  refine ⟨?_, ?_, ?_, ?_, ?_, ?_, ?_, ?_, ?_, ?_⟩ <;> (try dsimp only) <;> (repeat' split) <;> simp

@[simp] theorem Part.latchTakes_frame (k : Pair) (r : Emitted) :
    (p.latchTakes k r).1.time = p.time ∧ (p.latchTakes k r).1.resetHeld = p.resetHeld ∧ (p.latchTakes k r).1.hlu = p.hlu ∧ (p.latchTakes k r).1.shu = p.shu ∧ (p.latchTakes k r).1.odu = p.odu ∧ (p.latchTakes k r).1.pfu = p.pfu ∧ (p.latchTakes k r).1.tru = p.tru ∧ (p.latchTakes k r).1.lmu = p.lmu ∧ (p.latchTakes k r).1.rnc = p.rnc ∧ (p.latchTakes k r).1.oru = p.oru := by
  unfold Part.latchTakes
  refine ⟨?_, ?_, ?_, ?_, ?_, ?_, ?_, ?_, ?_, ?_⟩ <;> (try dsimp only) <;> (repeat' split) <;> simp

@[simp] theorem Part.openSlot_frame (n : SlotNo) (k : Pair) (r : Emitted) (v : Int) (g : Nat) :
    (p.openSlot n k r v g).time = p.time ∧ (p.openSlot n k r v g).resetHeld = p.resetHeld ∧ (p.openSlot n k r v g).hlu = p.hlu ∧ (p.openSlot n k r v g).shu = p.shu ∧ (p.openSlot n k r v g).odu = p.odu ∧ (p.openSlot n k r v g).pfu = p.pfu ∧ (p.openSlot n k r v g).tru = p.tru ∧ (p.openSlot n k r v g).lmu = p.lmu ∧ (p.openSlot n k r v g).rnc = p.rnc ∧ (p.openSlot n k r v g).oru = p.oru := by
  unfold Part.openSlot
  refine ⟨?_, ?_, ?_, ?_, ?_, ?_, ?_, ?_, ?_, ?_⟩ <;> (try dsimp only) <;> (repeat' split) <;> simp

@[simp] theorem Part.setLatch_frame (k : Pair) (r : Emitted) (v : Int) (g : Nat) :
    (p.setLatch k r v g).time = p.time ∧ (p.setLatch k r v g).resetHeld = p.resetHeld ∧ (p.setLatch k r v g).hlu = p.hlu ∧ (p.setLatch k r v g).shu = p.shu ∧ (p.setLatch k r v g).odu = p.odu ∧ (p.setLatch k r v g).pfu = p.pfu ∧ (p.setLatch k r v g).tru = p.tru ∧ (p.setLatch k r v g).lmu = p.lmu ∧ (p.setLatch k r v g).rnc = p.rnc ∧ (p.setLatch k r v g).oru = p.oru := by
  unfold Part.setLatch
  refine ⟨?_, ?_, ?_, ?_, ?_, ?_, ?_, ?_, ?_, ?_⟩ <;> (try dsimp only) <;> (repeat' split) <;> simp

@[simp] theorem Part.mayOpen_frame (k : Pair) (r : Emitted) :
    (p.mayOpen k r).1.time = p.time ∧ (p.mayOpen k r).1.resetHeld = p.resetHeld ∧ (p.mayOpen k r).1.hlu = p.hlu ∧ (p.mayOpen k r).1.shu = p.shu ∧ (p.mayOpen k r).1.odu = p.odu ∧ (p.mayOpen k r).1.pfu = p.pfu ∧ (p.mayOpen k r).1.tru = p.tru ∧ (p.mayOpen k r).1.lmu = p.lmu ∧ (p.mayOpen k r).1.rnc = p.rnc ∧ (p.mayOpen k r).1.oru = p.oru := by
  unfold Part.mayOpen
  refine ⟨?_, ?_, ?_, ?_, ?_, ?_, ?_, ?_, ?_, ?_⟩ <;> (try dsimp only) <;> (repeat' split) <;> simp

@[simp] theorem Part.judgePair_frame (k : Pair) (r : Emitted) :
    (p.judgePair k r).1.time = p.time ∧ (p.judgePair k r).1.resetHeld = p.resetHeld ∧ (p.judgePair k r).1.hlu = p.hlu ∧ (p.judgePair k r).1.shu = p.shu ∧ (p.judgePair k r).1.odu = p.odu ∧ (p.judgePair k r).1.pfu = p.pfu ∧ (p.judgePair k r).1.tru = p.tru ∧ (p.judgePair k r).1.lmu = p.lmu ∧ (p.judgePair k r).1.rnc = p.rnc ∧ (p.judgePair k r).1.oru = p.oru := by
  unfold Part.judgePair
  refine ⟨?_, ?_, ?_, ?_, ?_, ?_, ?_, ?_, ?_, ?_⟩ <;> (try dsimp only) <;> (repeat' split) <;> simp

@[simp] theorem Part.judgePairs_frame (r : Emitted) (ks : List Pair) :
    (p.judgePairs r ks).1.time = p.time ∧ (p.judgePairs r ks).1.resetHeld = p.resetHeld ∧ (p.judgePairs r ks).1.hlu = p.hlu ∧ (p.judgePairs r ks).1.shu = p.shu ∧ (p.judgePairs r ks).1.odu = p.odu ∧ (p.judgePairs r ks).1.pfu = p.pfu ∧ (p.judgePairs r ks).1.tru = p.tru ∧ (p.judgePairs r ks).1.lmu = p.lmu ∧ (p.judgePairs r ks).1.rnc = p.rnc ∧ (p.judgePairs r ks).1.oru = p.oru := by
  induction ks generalizing p with
  | nil => exact ⟨rfl, rfl, rfl, rfl, rfl, rfl, rfl, rfl, rfl, rfl⟩
  | cons k ks ih => simp [Part.judgePairs, ih]

@[simp] theorem Part.judge_frame (r : Emitted) :
    (p.judge r).1.time = p.time ∧ (p.judge r).1.resetHeld = p.resetHeld ∧ (p.judge r).1.hlu = p.hlu ∧ (p.judge r).1.shu = p.shu ∧ (p.judge r).1.odu = p.odu ∧ (p.judge r).1.pfu = p.pfu ∧ (p.judge r).1.tru = p.tru ∧ (p.judge r).1.lmu = p.lmu ∧ (p.judge r).1.rnc = p.rnc ∧ (p.judge r).1.oru = p.oru := by
  unfold Part.judge
  refine ⟨?_, ?_, ?_, ?_, ?_, ?_, ?_, ?_, ?_, ?_⟩ <;> (try dsimp only) <;> (repeat' split) <;> simp

end Sys2Proof.Machine
end

