-- ==== Sys2Proof/Laws/PositionFrames.lean ====
section
/-! SUPPORT. The blocks that the Position Fixing Unit's operations leave unchanged, one lemma per operation. -/

set_option linter.unusedTactic false
set_option linter.unreachableTactic false

namespace Sys2Proof.Machine

variable (p : Part)

@[simp] theorem Part.dropPost_frame :
    (p.dropPost).time = p.time ∧ (p.dropPost).resetHeld = p.resetHeld ∧ (p.dropPost).hlu = p.hlu ∧ (p.dropPost).shu = p.shu ∧ (p.dropPost).odu = p.odu ∧ (p.dropPost).tru = p.tru ∧ (p.dropPost).lmu = p.lmu ∧ (p.dropPost).ext = p.ext ∧ (p.dropPost).rnc = p.rnc ∧ (p.dropPost).rlu = p.rlu ∧ (p.dropPost).oru = p.oru ∧ (p.dropPost).evu = p.evu := by
  unfold Part.dropPost
  refine ⟨?_, ?_, ?_, ?_, ?_, ?_, ?_, ?_, ?_, ?_, ?_, ?_⟩ <;> (try dsimp only) <;> (repeat' split) <;> simp

@[simp] theorem Part.placeAt_frame (a b : Int) :
    (p.placeAt a b).time = p.time ∧ (p.placeAt a b).resetHeld = p.resetHeld ∧ (p.placeAt a b).hlu = p.hlu ∧ (p.placeAt a b).shu = p.shu ∧ (p.placeAt a b).tru = p.tru ∧ (p.placeAt a b).lmu = p.lmu ∧ (p.placeAt a b).ext = p.ext ∧ (p.placeAt a b).rnc = p.rnc ∧ (p.placeAt a b).rlu = p.rlu ∧ (p.placeAt a b).oru = p.oru ∧ (p.placeAt a b).evu = p.evu := by
  unfold Part.placeAt
  refine ⟨?_, ?_, ?_, ?_, ?_, ?_, ?_, ?_, ?_, ?_, ?_⟩ <;> (try dsimp only) <;> (repeat' split) <;> simp

@[simp] theorem Part.routeSaturated_frame :
    (p.routeSaturated).time = p.time ∧ (p.routeSaturated).resetHeld = p.resetHeld ∧ (p.routeSaturated).hlu = p.hlu ∧ (p.routeSaturated).shu = p.shu ∧ (p.routeSaturated).odu = p.odu ∧ (p.routeSaturated).tru = p.tru ∧ (p.routeSaturated).lmu = p.lmu ∧ (p.routeSaturated).ext = p.ext ∧ (p.routeSaturated).rnc = p.rnc ∧ (p.routeSaturated).rlu = p.rlu ∧ (p.routeSaturated).oru = p.oru := by
  unfold Part.routeSaturated
  refine ⟨?_, ?_, ?_, ?_, ?_, ?_, ?_, ?_, ?_, ?_, ?_⟩ <;> (try dsimp only) <;> (repeat' split) <;> simp

@[simp] theorem Part.moveRoute_frame (d : Int) :
    (p.moveRoute d).time = p.time ∧ (p.moveRoute d).resetHeld = p.resetHeld ∧ (p.moveRoute d).hlu = p.hlu ∧ (p.moveRoute d).shu = p.shu ∧ (p.moveRoute d).tru = p.tru ∧ (p.moveRoute d).lmu = p.lmu ∧ (p.moveRoute d).ext = p.ext ∧ (p.moveRoute d).rnc = p.rnc ∧ (p.moveRoute d).rlu = p.rlu ∧ (p.moveRoute d).oru = p.oru := by
  unfold Part.moveRoute
  refine ⟨?_, ?_, ?_, ?_, ?_, ?_, ?_, ?_, ?_, ?_⟩ <;> (try dsimp only) <;> (repeat' split) <;> simp

@[simp] theorem Part.addTravel_frame (n : Nat) :
    (p.addTravel n).time = p.time ∧ (p.addTravel n).resetHeld = p.resetHeld ∧ (p.addTravel n).hlu = p.hlu ∧ (p.addTravel n).shu = p.shu ∧ (p.addTravel n).odu = p.odu ∧ (p.addTravel n).tru = p.tru ∧ (p.addTravel n).lmu = p.lmu ∧ (p.addTravel n).ext = p.ext ∧ (p.addTravel n).rnc = p.rnc ∧ (p.addTravel n).rlu = p.rlu ∧ (p.addTravel n).oru = p.oru ∧ (p.addTravel n).evu = p.evu := by
  unfold Part.addTravel
  refine ⟨?_, ?_, ?_, ?_, ?_, ?_, ?_, ?_, ?_, ?_, ?_, ?_⟩ <;> (try dsimp only) <;> (repeat' split) <;> simp

@[simp] theorem Part.validityTest_frame :
    (p.validityTest).time = p.time ∧ (p.validityTest).resetHeld = p.resetHeld ∧ (p.validityTest).hlu = p.hlu ∧ (p.validityTest).shu = p.shu ∧ (p.validityTest).odu = p.odu ∧ (p.validityTest).tru = p.tru ∧ (p.validityTest).lmu = p.lmu ∧ (p.validityTest).ext = p.ext ∧ (p.validityTest).rnc = p.rnc ∧ (p.validityTest).rlu = p.rlu ∧ (p.validityTest).oru = p.oru ∧ (p.validityTest).evu = p.evu := by
  unfold Part.validityTest
  refine ⟨?_, ?_, ?_, ?_, ?_, ?_, ?_, ?_, ?_, ?_, ?_, ?_⟩ <;> (try dsimp only) <;> (repeat' split) <;> simp

@[simp] theorem Part.postPassed_frame (x : Post) :
    (p.postPassed x).time = p.time ∧ (p.postPassed x).resetHeld = p.resetHeld ∧ (p.postPassed x).hlu = p.hlu ∧ (p.postPassed x).shu = p.shu ∧ (p.postPassed x).odu = p.odu ∧ (p.postPassed x).tru = p.tru ∧ (p.postPassed x).lmu = p.lmu ∧ (p.postPassed x).ext = p.ext ∧ (p.postPassed x).rnc = p.rnc ∧ (p.postPassed x).rlu = p.rlu ∧ (p.postPassed x).oru = p.oru ∧ (p.postPassed x).evu = p.evu := by
  unfold Part.postPassed
  refine ⟨?_, ?_, ?_, ?_, ?_, ?_, ?_, ?_, ?_, ?_, ?_, ?_⟩ <;> (try dsimp only) <;> (repeat' split) <;> simp

@[simp] theorem Part.missState_frame :
    (p.missState).time = p.time ∧ (p.missState).resetHeld = p.resetHeld ∧ (p.missState).hlu = p.hlu ∧ (p.missState).shu = p.shu ∧ (p.missState).odu = p.odu ∧ (p.missState).tru = p.tru ∧ (p.missState).lmu = p.lmu ∧ (p.missState).ext = p.ext ∧ (p.missState).rnc = p.rnc ∧ (p.missState).oru = p.oru := by
  unfold Part.missState
  refine ⟨?_, ?_, ?_, ?_, ?_, ?_, ?_, ?_, ?_, ?_⟩ <;> (try dsimp only) <;> (repeat' split) <;> simp

@[simp] theorem Part.markerMissed_frame :
    (p.markerMissed).time = p.time ∧ (p.markerMissed).resetHeld = p.resetHeld ∧ (p.markerMissed).hlu = p.hlu ∧ (p.markerMissed).shu = p.shu ∧ (p.markerMissed).odu = p.odu ∧ (p.markerMissed).tru = p.tru ∧ (p.markerMissed).lmu = p.lmu ∧ (p.markerMissed).ext = p.ext ∧ (p.markerMissed).rnc = p.rnc ∧ (p.markerMissed).oru = p.oru := by
  unfold Part.markerMissed
  refine ⟨?_, ?_, ?_, ?_, ?_, ?_, ?_, ?_, ?_, ?_⟩ <;> (try dsimp only) <;> (repeat' split) <;> simp

@[simp] theorem Part.markerGone_frame (b : Bool) :
    (p.markerGone b).time = p.time ∧ (p.markerGone b).resetHeld = p.resetHeld ∧ (p.markerGone b).hlu = p.hlu ∧ (p.markerGone b).shu = p.shu ∧ (p.markerGone b).odu = p.odu ∧ (p.markerGone b).tru = p.tru ∧ (p.markerGone b).lmu = p.lmu ∧ (p.markerGone b).ext = p.ext ∧ (p.markerGone b).rnc = p.rnc ∧ (p.markerGone b).oru = p.oru := by
  unfold Part.markerGone
  refine ⟨?_, ?_, ?_, ?_, ?_, ?_, ?_, ?_, ?_, ?_⟩ <;> (try dsimp only) <;> (repeat' split) <;> simp

@[simp] theorem Part.scanRoute_frame (b : Bool) (l : List RouteEntry) :
    (p.scanRoute b l).1.time = p.time ∧ (p.scanRoute b l).1.resetHeld = p.resetHeld ∧ (p.scanRoute b l).1.hlu = p.hlu ∧ (p.scanRoute b l).1.shu = p.shu ∧ (p.scanRoute b l).1.odu = p.odu ∧ (p.scanRoute b l).1.tru = p.tru ∧ (p.scanRoute b l).1.lmu = p.lmu ∧ (p.scanRoute b l).1.ext = p.ext ∧ (p.scanRoute b l).1.rnc = p.rnc ∧ (p.scanRoute b l).1.oru = p.oru := by
  induction l generalizing p with
  | nil => exact ⟨rfl, rfl, rfl, rfl, rfl, rfl, rfl, rfl, rfl, rfl⟩
  | cons e es ih =>
    unfold Part.scanRoute
    split
    · split
      · simp [ih]
      · split
        · simp [ih]
        · simp [ih]
    · exact ⟨rfl, rfl, rfl, rfl, rfl, rfl, rfl, rfl, rfl, rfl⟩

@[simp] theorem Part.routeLowTest_frame :
    (p.routeLowTest).time = p.time ∧ (p.routeLowTest).resetHeld = p.resetHeld ∧ (p.routeLowTest).hlu = p.hlu ∧ (p.routeLowTest).shu = p.shu ∧ (p.routeLowTest).odu = p.odu ∧ (p.routeLowTest).tru = p.tru ∧ (p.routeLowTest).lmu = p.lmu ∧ (p.routeLowTest).ext = p.ext ∧ (p.routeLowTest).rnc = p.rnc ∧ (p.routeLowTest).oru = p.oru := by
  unfold Part.routeLowTest
  refine ⟨?_, ?_, ?_, ?_, ?_, ?_, ?_, ?_, ?_, ?_⟩ <;> (try dsimp only) <;> (repeat' split) <;> simp

@[simp] theorem Part.routeAdvance_frame (b : Bool) :
    (p.routeAdvance b).time = p.time ∧ (p.routeAdvance b).resetHeld = p.resetHeld ∧ (p.routeAdvance b).hlu = p.hlu ∧ (p.routeAdvance b).shu = p.shu ∧ (p.routeAdvance b).odu = p.odu ∧ (p.routeAdvance b).tru = p.tru ∧ (p.routeAdvance b).lmu = p.lmu ∧ (p.routeAdvance b).ext = p.ext ∧ (p.routeAdvance b).rnc = p.rnc ∧ (p.routeAdvance b).oru = p.oru := by
  unfold Part.routeAdvance
  refine ⟨?_, ?_, ?_, ?_, ?_, ?_, ?_, ?_, ?_, ?_⟩ <;> (try dsimp only) <;> (repeat' split) <;> simp

@[simp] theorem Part.emptyRoute_frame :
    (p.emptyRoute).time = p.time ∧ (p.emptyRoute).resetHeld = p.resetHeld ∧ (p.emptyRoute).hlu = p.hlu ∧ (p.emptyRoute).shu = p.shu ∧ (p.emptyRoute).odu = p.odu ∧ (p.emptyRoute).tru = p.tru ∧ (p.emptyRoute).lmu = p.lmu ∧ (p.emptyRoute).ext = p.ext ∧ (p.emptyRoute).rnc = p.rnc ∧ (p.emptyRoute).rlu = p.rlu ∧ (p.emptyRoute).oru = p.oru ∧ (p.emptyRoute).evu = p.evu := by
  unfold Part.emptyRoute
  refine ⟨?_, ?_, ?_, ?_, ?_, ?_, ?_, ?_, ?_, ?_, ?_, ?_⟩ <;> (try dsimp only) <;> (repeat' split) <;> simp

@[simp] theorem Part.armRoute_frame :
    (p.armRoute).time = p.time ∧ (p.armRoute).resetHeld = p.resetHeld ∧ (p.armRoute).hlu = p.hlu ∧ (p.armRoute).shu = p.shu ∧ (p.armRoute).odu = p.odu ∧ (p.armRoute).tru = p.tru ∧ (p.armRoute).lmu = p.lmu ∧ (p.armRoute).ext = p.ext ∧ (p.armRoute).rnc = p.rnc ∧ (p.armRoute).rlu = p.rlu ∧ (p.armRoute).oru = p.oru ∧ (p.armRoute).evu = p.evu := by
  unfold Part.armRoute
  refine ⟨?_, ?_, ?_, ?_, ?_, ?_, ?_, ?_, ?_, ?_, ?_, ?_⟩ <;> (try dsimp only) <;> (repeat' split) <;> simp

@[simp] theorem Part.appendRouteList_frame (rs : List RawRoute) :
    (p.appendRouteList rs).1.time = p.time ∧ (p.appendRouteList rs).1.resetHeld = p.resetHeld ∧ (p.appendRouteList rs).1.hlu = p.hlu ∧ (p.appendRouteList rs).1.shu = p.shu ∧ (p.appendRouteList rs).1.odu = p.odu ∧ (p.appendRouteList rs).1.tru = p.tru ∧ (p.appendRouteList rs).1.lmu = p.lmu ∧ (p.appendRouteList rs).1.ext = p.ext ∧ (p.appendRouteList rs).1.rnc = p.rnc ∧ (p.appendRouteList rs).1.rlu = p.rlu ∧ (p.appendRouteList rs).1.oru = p.oru ∧ (p.appendRouteList rs).1.evu = p.evu := by
  unfold Part.appendRouteList
  refine ⟨?_, ?_, ?_, ?_, ?_, ?_, ?_, ?_, ?_, ?_, ?_, ?_⟩ <;> (try dsimp only) <;> (repeat' split) <;> simp

@[simp] theorem Part.missBefore_frame (n : Nat) :
    (p.missBefore n).time = p.time ∧ (p.missBefore n).resetHeld = p.resetHeld ∧ (p.missBefore n).hlu = p.hlu ∧ (p.missBefore n).shu = p.shu ∧ (p.missBefore n).odu = p.odu ∧ (p.missBefore n).pfu = p.pfu ∧ (p.missBefore n).tru = p.tru ∧ (p.missBefore n).lmu = p.lmu ∧ (p.missBefore n).ext = p.ext ∧ (p.missBefore n).rnc = p.rnc ∧ (p.missBefore n).oru = p.oru := by
  unfold Part.missBefore
  refine ⟨?_, ?_, ?_, ?_, ?_, ?_, ?_, ?_, ?_, ?_, ?_⟩ <;> (try dsimp only) <;> (repeat' split) <;> simp

@[simp] theorem Part.largeTest_frame (c : Int) :
    (p.largeTest c).time = p.time ∧ (p.largeTest c).resetHeld = p.resetHeld ∧ (p.largeTest c).hlu = p.hlu ∧ (p.largeTest c).shu = p.shu ∧ (p.largeTest c).odu = p.odu ∧ (p.largeTest c).pfu = p.pfu ∧ (p.largeTest c).tru = p.tru ∧ (p.largeTest c).lmu = p.lmu ∧ (p.largeTest c).ext = p.ext ∧ (p.largeTest c).rnc = p.rnc ∧ (p.largeTest c).oru = p.oru := by
  unfold Part.largeTest
  refine ⟨?_, ?_, ?_, ?_, ?_, ?_, ?_, ?_, ?_, ?_, ?_⟩ <;> (try dsimp only) <;> (repeat' split) <;> simp

@[simp] theorem Part.handOff_frame (c : Int) :
    (p.handOff c).time = p.time ∧ (p.handOff c).resetHeld = p.resetHeld ∧ (p.handOff c).hlu = p.hlu ∧ (p.handOff c).shu = p.shu ∧ (p.handOff c).odu = p.odu ∧ (p.handOff c).tru = p.tru ∧ (p.handOff c).lmu = p.lmu ∧ (p.handOff c).rnc = p.rnc ∧ (p.handOff c).oru = p.oru := by
  unfold Part.handOff
  refine ⟨?_, ?_, ?_, ?_, ?_, ?_, ?_, ?_, ?_⟩ <;> (try dsimp only) <;> (repeat' split) <;> simp

@[simp] theorem Part.fixedAt_frame (m : Int) :
    (p.fixedAt m).time = p.time ∧ (p.fixedAt m).resetHeld = p.resetHeld ∧ (p.fixedAt m).hlu = p.hlu ∧ (p.fixedAt m).shu = p.shu ∧ (p.fixedAt m).odu = p.odu ∧ (p.fixedAt m).tru = p.tru ∧ (p.fixedAt m).lmu = p.lmu ∧ (p.fixedAt m).ext = p.ext ∧ (p.fixedAt m).rnc = p.rnc ∧ (p.fixedAt m).rlu = p.rlu ∧ (p.fixedAt m).oru = p.oru ∧ (p.fixedAt m).evu = p.evu := by
  unfold Part.fixedAt
  refine ⟨?_, ?_, ?_, ?_, ?_, ?_, ?_, ?_, ?_, ?_, ?_, ?_⟩ <;> (try dsimp only) <;> (repeat' split) <;> simp

@[simp] theorem Part.fix_frame (b : List RouteEntry) (m : Int) (a : List RouteEntry) :
    (p.fix b m a).time = p.time ∧ (p.fix b m a).resetHeld = p.resetHeld ∧ (p.fix b m a).hlu = p.hlu ∧ (p.fix b m a).shu = p.shu ∧ (p.fix b m a).odu = p.odu ∧ (p.fix b m a).tru = p.tru ∧ (p.fix b m a).rnc = p.rnc ∧ (p.fix b m a).oru = p.oru := by
  unfold Part.fix
  refine ⟨?_, ?_, ?_, ?_, ?_, ?_, ?_, ?_⟩ <;> (try dsimp only) <;> (repeat' split) <;> simp

@[simp] theorem Part.detect_frame (c : BitVec 32) :
    (p.detect c).time = p.time ∧ (p.detect c).resetHeld = p.resetHeld ∧ (p.detect c).hlu = p.hlu ∧ (p.detect c).shu = p.shu ∧ (p.detect c).odu = p.odu ∧ (p.detect c).tru = p.tru ∧ (p.detect c).rnc = p.rnc ∧ (p.detect c).oru = p.oru := by
  unfold Part.detect
  refine ⟨?_, ?_, ?_, ?_, ?_, ?_, ?_, ?_⟩ <;> (try dsimp only) <;> (repeat' split) <;> simp

@[simp] theorem Part.turnTo_frame (d : Direction) :
    (p.turnTo d).time = p.time ∧ (p.turnTo d).resetHeld = p.resetHeld ∧ (p.turnTo d).hlu = p.hlu ∧ (p.turnTo d).shu = p.shu ∧ (p.turnTo d).tru = p.tru ∧ (p.turnTo d).ext = p.ext ∧ (p.turnTo d).rnc = p.rnc ∧ (p.turnTo d).rlu = p.rlu ∧ (p.turnTo d).oru = p.oru ∧ (p.turnTo d).evu = p.evu := by
  unfold Part.turnTo
  refine ⟨?_, ?_, ?_, ?_, ?_, ?_, ?_, ?_, ?_, ?_⟩ <;> (try dsimp only) <;> (repeat' split) <;> simp

@[simp] theorem Part.setPositionTo_frame (m : Int) (d : Direction) :
    (p.setPositionTo m d).time = p.time ∧ (p.setPositionTo m d).resetHeld = p.resetHeld ∧ (p.setPositionTo m d).hlu = p.hlu ∧ (p.setPositionTo m d).shu = p.shu ∧ (p.setPositionTo m d).tru = p.tru ∧ (p.setPositionTo m d).rnc = p.rnc ∧ (p.setPositionTo m d).oru = p.oru := by
  unfold Part.setPositionTo
  refine ⟨?_, ?_, ?_, ?_, ?_, ?_, ?_⟩ <;> (try dsimp only) <;> (repeat' split) <;> simp

end Sys2Proof.Machine
end

