-- ==== Sys2Proof/Laws/TraceFrames.lean ====
section
/-! SUPPORT. The blocks that the Trace Unit's and Run Control's operations leave unchanged, one lemma per operation. -/

set_option linter.unusedTactic false
set_option linter.unreachableTactic false

namespace Sys2Proof.Machine

variable (p : Part)

@[simp] theorem Part.captureEntry_frame (t : TickData) :
    (p.captureEntry t).time = p.time ∧ (p.captureEntry t).resetHeld = p.resetHeld ∧ (p.captureEntry t).hlu = p.hlu ∧ (p.captureEntry t).shu = p.shu ∧ (p.captureEntry t).odu = p.odu ∧ (p.captureEntry t).lmu = p.lmu ∧ (p.captureEntry t).ext = p.ext ∧ (p.captureEntry t).rnc = p.rnc ∧ (p.captureEntry t).rlu = p.rlu ∧ (p.captureEntry t).oru = p.oru := by
  unfold Part.captureEntry
  refine ⟨?_, ?_, ?_, ?_, ?_, ?_, ?_, ?_, ?_, ?_⟩ <;> (try dsimp only) <;> (repeat' split) <;> simp

@[simp] theorem Part.countDrop_frame (d : GeometryRecord) :
    (p.countDrop d).time = p.time ∧ (p.countDrop d).resetHeld = p.resetHeld ∧ (p.countDrop d).hlu = p.hlu ∧ (p.countDrop d).shu = p.shu ∧ (p.countDrop d).odu = p.odu ∧ (p.countDrop d).pfu = p.pfu ∧ (p.countDrop d).tru = p.tru ∧ (p.countDrop d).lmu = p.lmu ∧ (p.countDrop d).ext = p.ext ∧ (p.countDrop d).rnc = p.rnc ∧ (p.countDrop d).oru = p.oru := by
  unfold Part.countDrop
  refine ⟨?_, ?_, ?_, ?_, ?_, ?_, ?_, ?_, ?_, ?_, ?_⟩ <;> (try dsimp only) <;> (repeat' split) <;> simp

@[simp] theorem Part.offerGr_frame (g : GeometryRecord) :
    (p.offerGr g).time = p.time ∧ (p.offerGr g).resetHeld = p.resetHeld ∧ (p.offerGr g).hlu = p.hlu ∧ (p.offerGr g).shu = p.shu ∧ (p.offerGr g).odu = p.odu ∧ (p.offerGr g).pfu = p.pfu ∧ (p.offerGr g).tru = p.tru ∧ (p.offerGr g).lmu = p.lmu ∧ (p.offerGr g).ext = p.ext ∧ (p.offerGr g).rnc = p.rnc ∧ (p.offerGr g).oru = p.oru := by
  unfold Part.offerGr
  refine ⟨?_, ?_, ?_, ?_, ?_, ?_, ?_, ?_, ?_, ?_, ?_⟩ <;> (try dsimp only) <;> (repeat' split) <;> simp

@[simp] theorem Part.emit_frame (e : TraceEntry) :
    (p.emit e).time = p.time ∧ (p.emit e).resetHeld = p.resetHeld ∧ (p.emit e).hlu = p.hlu ∧ (p.emit e).shu = p.shu ∧ (p.emit e).odu = p.odu ∧ (p.emit e).pfu = p.pfu ∧ (p.emit e).lmu = p.lmu ∧ (p.emit e).rnc = p.rnc ∧ (p.emit e).oru = p.oru := by
  unfold Part.emit
  refine ⟨?_, ?_, ?_, ?_, ?_, ?_, ?_, ?_, ?_⟩ <;> (try dsimp only) <;> (repeat' split) <;> simp

@[simp] theorem Part.retain_frame (s : Seq) :
    (p.retain s).time = p.time ∧ (p.retain s).resetHeld = p.resetHeld ∧ (p.retain s).hlu = p.hlu ∧ (p.retain s).shu = p.shu ∧ (p.retain s).odu = p.odu ∧ (p.retain s).pfu = p.pfu ∧ (p.retain s).lmu = p.lmu ∧ (p.retain s).ext = p.ext ∧ (p.retain s).rnc = p.rnc ∧ (p.retain s).rlu = p.rlu ∧ (p.retain s).oru = p.oru ∧ (p.retain s).evu = p.evu := by
  unfold Part.retain
  refine ⟨?_, ?_, ?_, ?_, ?_, ?_, ?_, ?_, ?_, ?_, ?_, ?_⟩ <;> (try dsimp only) <;> (repeat' split) <;> simp

@[simp] theorem Part.emitNext_frame :
    (p.emitNext).time = p.time ∧ (p.emitNext).resetHeld = p.resetHeld ∧ (p.emitNext).hlu = p.hlu ∧ (p.emitNext).shu = p.shu ∧ (p.emitNext).odu = p.odu ∧ (p.emitNext).pfu = p.pfu ∧ (p.emitNext).lmu = p.lmu ∧ (p.emitNext).rnc = p.rnc ∧ (p.emitNext).oru = p.oru := by
  unfold Part.emitNext
  refine ⟨?_, ?_, ?_, ?_, ?_, ?_, ?_, ?_, ?_⟩ <;> (try dsimp only) <;> (repeat' split) <;> simp

@[simp] theorem Part.capture_frame (t : TickData) :
    (p.capture t).time = p.time ∧ (p.capture t).resetHeld = p.resetHeld ∧ (p.capture t).hlu = p.hlu ∧ (p.capture t).shu = p.shu ∧ (p.capture t).odu = p.odu ∧ (p.capture t).lmu = p.lmu ∧ (p.capture t).rnc = p.rnc ∧ (p.capture t).oru = p.oru := by
  unfold Part.capture
  refine ⟨?_, ?_, ?_, ?_, ?_, ?_, ?_, ?_⟩ <;> (try dsimp only) <;> (repeat' split) <;> simp

@[simp] theorem Part.foldl_emit_frame (l : List TraceEntry) :
    (l.foldl Part.emit p).time = p.time ∧ (l.foldl Part.emit p).resetHeld = p.resetHeld ∧ (l.foldl Part.emit p).hlu = p.hlu ∧ (l.foldl Part.emit p).shu = p.shu ∧ (l.foldl Part.emit p).odu = p.odu ∧ (l.foldl Part.emit p).pfu = p.pfu ∧ (l.foldl Part.emit p).lmu = p.lmu ∧ (l.foldl Part.emit p).rnc = p.rnc ∧ (l.foldl Part.emit p).oru = p.oru := by
  induction l generalizing p with
  | nil => exact ⟨rfl, rfl, rfl, rfl, rfl, rfl, rfl, rfl, rfl⟩
  | cons x xs ih => simp [ih]

@[simp] theorem Part.flush_frame :
    (p.flush).time = p.time ∧ (p.flush).resetHeld = p.resetHeld ∧ (p.flush).hlu = p.hlu ∧ (p.flush).shu = p.shu ∧ (p.flush).odu = p.odu ∧ (p.flush).pfu = p.pfu ∧ (p.flush).lmu = p.lmu ∧ (p.flush).rnc = p.rnc ∧ (p.flush).oru = p.oru := by
  unfold Part.flush
  refine ⟨?_, ?_, ?_, ?_, ?_, ?_, ?_, ?_, ?_⟩ <;> (try dsimp only) <;> (repeat' split) <;> simp

@[simp] theorem Part.emptySpeed_frame :
    (p.emptySpeed).time = p.time ∧ (p.emptySpeed).resetHeld = p.resetHeld ∧ (p.emptySpeed).hlu = p.hlu ∧ (p.emptySpeed).shu = p.shu ∧ (p.emptySpeed).pfu = p.pfu ∧ (p.emptySpeed).tru = p.tru ∧ (p.emptySpeed).lmu = p.lmu ∧ (p.emptySpeed).ext = p.ext ∧ (p.emptySpeed).rnc = p.rnc ∧ (p.emptySpeed).rlu = p.rlu ∧ (p.emptySpeed).oru = p.oru ∧ (p.emptySpeed).evu = p.evu := by
  unfold Part.emptySpeed
  refine ⟨?_, ?_, ?_, ?_, ?_, ?_, ?_, ?_, ?_, ?_, ?_, ?_⟩ <;> (try dsimp only) <;> (repeat' split) <;> simp

@[simp] theorem Part.freshWatchdogs_frame :
    (p.freshWatchdogs).time = p.time ∧ (p.freshWatchdogs).resetHeld = p.resetHeld ∧ (p.freshWatchdogs).shu = p.shu ∧ (p.freshWatchdogs).odu = p.odu ∧ (p.freshWatchdogs).pfu = p.pfu ∧ (p.freshWatchdogs).tru = p.tru ∧ (p.freshWatchdogs).lmu = p.lmu ∧ (p.freshWatchdogs).ext = p.ext ∧ (p.freshWatchdogs).rnc = p.rnc ∧ (p.freshWatchdogs).rlu = p.rlu ∧ (p.freshWatchdogs).oru = p.oru ∧ (p.freshWatchdogs).evu = p.evu := by
  unfold Part.freshWatchdogs
  refine ⟨?_, ?_, ?_, ?_, ?_, ?_, ?_, ?_, ?_, ?_, ?_, ?_⟩ <;> (try dsimp only) <;> (repeat' split) <;> simp

@[simp] theorem Part.stopWatchdogs_frame :
    (p.stopWatchdogs).time = p.time ∧ (p.stopWatchdogs).resetHeld = p.resetHeld ∧ (p.stopWatchdogs).shu = p.shu ∧ (p.stopWatchdogs).odu = p.odu ∧ (p.stopWatchdogs).pfu = p.pfu ∧ (p.stopWatchdogs).tru = p.tru ∧ (p.stopWatchdogs).lmu = p.lmu ∧ (p.stopWatchdogs).ext = p.ext ∧ (p.stopWatchdogs).rnc = p.rnc ∧ (p.stopWatchdogs).rlu = p.rlu ∧ (p.stopWatchdogs).oru = p.oru ∧ (p.stopWatchdogs).evu = p.evu := by
  unfold Part.stopWatchdogs
  refine ⟨?_, ?_, ?_, ?_, ?_, ?_, ?_, ?_, ?_, ?_, ?_, ?_⟩ <;> (try dsimp only) <;> (repeat' split) <;> simp

@[simp] theorem Part.setRunState_frame (x : RunState) :
    (p.setRunState x).time = p.time ∧ (p.setRunState x).resetHeld = p.resetHeld ∧ (p.setRunState x).hlu = p.hlu ∧ (p.setRunState x).shu = p.shu ∧ (p.setRunState x).odu = p.odu ∧ (p.setRunState x).pfu = p.pfu ∧ (p.setRunState x).tru = p.tru ∧ (p.setRunState x).lmu = p.lmu ∧ (p.setRunState x).ext = p.ext ∧ (p.setRunState x).rlu = p.rlu ∧ (p.setRunState x).oru = p.oru ∧ (p.setRunState x).evu = p.evu := by
  unfold Part.setRunState
  refine ⟨?_, ?_, ?_, ?_, ?_, ?_, ?_, ?_, ?_, ?_, ?_, ?_⟩ <;> (try dsimp only) <;> (repeat' split) <;> simp

@[simp] theorem Part.startParkTimer_frame (t : Time) :
    (p.startParkTimer t).time = p.time ∧ (p.startParkTimer t).resetHeld = p.resetHeld ∧ (p.startParkTimer t).hlu = p.hlu ∧ (p.startParkTimer t).shu = p.shu ∧ (p.startParkTimer t).odu = p.odu ∧ (p.startParkTimer t).pfu = p.pfu ∧ (p.startParkTimer t).tru = p.tru ∧ (p.startParkTimer t).lmu = p.lmu ∧ (p.startParkTimer t).ext = p.ext ∧ (p.startParkTimer t).rlu = p.rlu ∧ (p.startParkTimer t).oru = p.oru ∧ (p.startParkTimer t).evu = p.evu := by
  unfold Part.startParkTimer
  refine ⟨?_, ?_, ?_, ?_, ?_, ?_, ?_, ?_, ?_, ?_, ?_, ?_⟩ <;> (try dsimp only) <;> (repeat' split) <;> simp

@[simp] theorem Part.stopParkTimer_frame :
    (p.stopParkTimer).time = p.time ∧ (p.stopParkTimer).resetHeld = p.resetHeld ∧ (p.stopParkTimer).hlu = p.hlu ∧ (p.stopParkTimer).shu = p.shu ∧ (p.stopParkTimer).odu = p.odu ∧ (p.stopParkTimer).pfu = p.pfu ∧ (p.stopParkTimer).tru = p.tru ∧ (p.stopParkTimer).lmu = p.lmu ∧ (p.stopParkTimer).ext = p.ext ∧ (p.stopParkTimer).rlu = p.rlu ∧ (p.stopParkTimer).oru = p.oru ∧ (p.stopParkTimer).evu = p.evu := by
  unfold Part.stopParkTimer
  refine ⟨?_, ?_, ?_, ?_, ?_, ?_, ?_, ?_, ?_, ?_, ?_, ?_⟩ <;> (try dsimp only) <;> (repeat' split) <;> simp

@[simp] theorem Part.enterParked_frame :
    (p.enterParked).time = p.time ∧ (p.enterParked).resetHeld = p.resetHeld ∧ (p.enterParked).shu = p.shu ∧ (p.enterParked).pfu = p.pfu ∧ (p.enterParked).tru = p.tru ∧ (p.enterParked).lmu = p.lmu ∧ (p.enterParked).ext = p.ext ∧ (p.enterParked).oru = p.oru := by
  unfold Part.enterParked
  refine ⟨?_, ?_, ?_, ?_, ?_, ?_, ?_, ?_⟩ <;> (try dsimp only) <;> (repeat' split) <;> simp

@[simp] theorem Part.parkEvent_frame :
    (p.parkEvent).time = p.time ∧ (p.parkEvent).resetHeld = p.resetHeld ∧ (p.parkEvent).shu = p.shu ∧ (p.parkEvent).pfu = p.pfu ∧ (p.parkEvent).tru = p.tru ∧ (p.parkEvent).lmu = p.lmu ∧ (p.parkEvent).ext = p.ext ∧ (p.parkEvent).oru = p.oru := by
  unfold Part.parkEvent
  refine ⟨?_, ?_, ?_, ?_, ?_, ?_, ?_, ?_⟩ <;> (try dsimp only) <;> (repeat' split) <;> simp

@[simp] theorem Part.runTick_frame (t : Time) :
    (p.runTick t).time = p.time ∧ (p.runTick t).resetHeld = p.resetHeld ∧ (p.runTick t).shu = p.shu ∧ (p.runTick t).odu = p.odu ∧ (p.runTick t).pfu = p.pfu ∧ (p.runTick t).tru = p.tru ∧ (p.runTick t).lmu = p.lmu ∧ (p.runTick t).ext = p.ext ∧ (p.runTick t).oru = p.oru := by
  unfold Part.runTick
  refine ⟨?_, ?_, ?_, ?_, ?_, ?_, ?_, ?_, ?_⟩ <;> (try dsimp only) <;> (repeat' split) <;> simp

@[simp] theorem Part.beginRun_frame (n : BitVec 16) :
    (p.beginRun n).time = p.time ∧ (p.beginRun n).resetHeld = p.resetHeld ∧ (p.beginRun n).hlu = p.hlu ∧ (p.beginRun n).shu = p.shu ∧ (p.beginRun n).lmu = p.lmu ∧ (p.beginRun n).ext = p.ext ∧ (p.beginRun n).oru = p.oru := by
  unfold Part.beginRun
  refine ⟨?_, ?_, ?_, ?_, ?_, ?_, ?_⟩ <;> (try dsimp only) <;> (repeat' split) <;> simp

@[simp] theorem Part.haltRun_frame :
    (p.haltRun).time = p.time ∧ (p.haltRun).resetHeld = p.resetHeld ∧ (p.haltRun).shu = p.shu ∧ (p.haltRun).odu = p.odu ∧ (p.haltRun).pfu = p.pfu ∧ (p.haltRun).tru = p.tru ∧ (p.haltRun).lmu = p.lmu ∧ (p.haltRun).ext = p.ext ∧ (p.haltRun).oru = p.oru := by
  unfold Part.haltRun
  refine ⟨?_, ?_, ?_, ?_, ?_, ?_, ?_, ?_, ?_⟩ <;> (try dsimp only) <;> (repeat' split) <;> simp

@[simp] theorem Part.endRun_frame :
    (p.endRun).time = p.time ∧ (p.endRun).resetHeld = p.resetHeld ∧ (p.endRun).shu = p.shu ∧ (p.endRun).odu = p.odu ∧ (p.endRun).pfu = p.pfu ∧ (p.endRun).lmu = p.lmu ∧ (p.endRun).oru = p.oru := by
  unfold Part.endRun
  refine ⟨?_, ?_, ?_, ?_, ?_, ?_, ?_⟩ <;> (try dsimp only) <;> (repeat' split) <;> simp

end Sys2Proof.Machine
end

