-- ==== Sys2Proof/Laws/HeadFrames.lean ====
section
/-! SUPPORT. The blocks that the Head Link Unit's operations leave unchanged, one lemma per operation. -/

set_option linter.unusedTactic false
set_option linter.unreachableTactic false

namespace Sys2Proof.Machine

variable (p : Part)

@[simp] theorem Part.onHead_frame (h : Head) (f : HeadRecord → HeadRecord) :
    (p.onHead h f).time = p.time ∧ (p.onHead h f).resetHeld = p.resetHeld ∧ (p.onHead h f).shu = p.shu ∧ (p.onHead h f).odu = p.odu ∧ (p.onHead h f).pfu = p.pfu ∧ (p.onHead h f).tru = p.tru ∧ (p.onHead h f).lmu = p.lmu ∧ (p.onHead h f).ext = p.ext ∧ (p.onHead h f).rnc = p.rnc ∧ (p.onHead h f).rlu = p.rlu ∧ (p.onHead h f).oru = p.oru ∧ (p.onHead h f).evu = p.evu := by
  unfold Part.onHead
  refine ⟨?_, ?_, ?_, ?_, ?_, ?_, ?_, ?_, ?_, ?_, ?_, ?_⟩ <;> (try dsimp only) <;> (repeat' split) <;> simp

@[simp] theorem Part.writeHead_frame (h : Head) (r : HeadRecord) :
    (p.writeHead h r).time = p.time ∧ (p.writeHead h r).resetHeld = p.resetHeld ∧ (p.writeHead h r).shu = p.shu ∧ (p.writeHead h r).odu = p.odu ∧ (p.writeHead h r).pfu = p.pfu ∧ (p.writeHead h r).tru = p.tru ∧ (p.writeHead h r).lmu = p.lmu ∧ (p.writeHead h r).ext = p.ext ∧ (p.writeHead h r).rnc = p.rnc ∧ (p.writeHead h r).oru = p.oru := by
  unfold Part.writeHead
  refine ⟨?_, ?_, ?_, ?_, ?_, ?_, ?_, ?_, ?_, ?_⟩ <;> (try dsimp only) <;> (repeat' split) <;> simp

@[simp] theorem Part.setRx_frame (x : HeadRx) :
    (p.setRx x).time = p.time ∧ (p.setRx x).resetHeld = p.resetHeld ∧ (p.setRx x).shu = p.shu ∧ (p.setRx x).odu = p.odu ∧ (p.setRx x).pfu = p.pfu ∧ (p.setRx x).tru = p.tru ∧ (p.setRx x).lmu = p.lmu ∧ (p.setRx x).ext = p.ext ∧ (p.setRx x).rnc = p.rnc ∧ (p.setRx x).rlu = p.rlu ∧ (p.setRx x).oru = p.oru ∧ (p.setRx x).evu = p.evu := by
  unfold Part.setRx
  refine ⟨?_, ?_, ?_, ?_, ?_, ?_, ?_, ?_, ?_, ?_, ?_, ?_⟩ <;> (try dsimp only) <;> (repeat' split) <;> simp

@[simp] theorem Part.unlock_frame :
    (p.unlock).time = p.time ∧ (p.unlock).resetHeld = p.resetHeld ∧ (p.unlock).shu = p.shu ∧ (p.unlock).odu = p.odu ∧ (p.unlock).pfu = p.pfu ∧ (p.unlock).tru = p.tru ∧ (p.unlock).lmu = p.lmu ∧ (p.unlock).ext = p.ext ∧ (p.unlock).rnc = p.rnc ∧ (p.unlock).oru = p.oru := by
  unfold Part.unlock
  refine ⟨?_, ?_, ?_, ?_, ?_, ?_, ?_, ?_, ?_, ?_⟩ <;> (try dsimp only) <;> (repeat' split) <;> simp

@[simp] theorem Part.linkError_frame :
    (p.linkError).time = p.time ∧ (p.linkError).resetHeld = p.resetHeld ∧ (p.linkError).shu = p.shu ∧ (p.linkError).odu = p.odu ∧ (p.linkError).pfu = p.pfu ∧ (p.linkError).tru = p.tru ∧ (p.linkError).lmu = p.lmu ∧ (p.linkError).ext = p.ext ∧ (p.linkError).rnc = p.rnc ∧ (p.linkError).oru = p.oru := by
  unfold Part.linkError
  refine ⟨?_, ?_, ?_, ?_, ?_, ?_, ?_, ?_, ?_, ?_⟩ <;> (try dsimp only) <;> (repeat' split) <;> simp

@[simp] theorem Part.lockEvent_frame :
    (p.lockEvent).time = p.time ∧ (p.lockEvent).resetHeld = p.resetHeld ∧ (p.lockEvent).shu = p.shu ∧ (p.lockEvent).odu = p.odu ∧ (p.lockEvent).pfu = p.pfu ∧ (p.lockEvent).tru = p.tru ∧ (p.lockEvent).lmu = p.lmu ∧ (p.lockEvent).ext = p.ext ∧ (p.lockEvent).rnc = p.rnc ∧ (p.lockEvent).rlu = p.rlu ∧ (p.lockEvent).oru = p.oru ∧ (p.lockEvent).evu = p.evu := by
  unfold Part.lockEvent
  refine ⟨?_, ?_, ?_, ?_, ?_, ?_, ?_, ?_, ?_, ?_, ?_, ?_⟩ <;> (try dsimp only) <;> (repeat' split) <;> simp

@[simp] theorem Part.headLoss_frame :
    (p.headLoss).time = p.time ∧ (p.headLoss).resetHeld = p.resetHeld ∧ (p.headLoss).shu = p.shu ∧ (p.headLoss).odu = p.odu ∧ (p.headLoss).pfu = p.pfu ∧ (p.headLoss).tru = p.tru ∧ (p.headLoss).lmu = p.lmu ∧ (p.headLoss).ext = p.ext ∧ (p.headLoss).rnc = p.rnc ∧ (p.headLoss).oru = p.oru := by
  unfold Part.headLoss
  refine ⟨?_, ?_, ?_, ?_, ?_, ?_, ?_, ?_, ?_, ?_⟩ <;> (try dsimp only) <;> (repeat' split) <;> simp

@[simp] theorem Part.framingError_frame (x : HeadRx) :
    (p.framingError x).time = p.time ∧ (p.framingError x).resetHeld = p.resetHeld ∧ (p.framingError x).shu = p.shu ∧ (p.framingError x).odu = p.odu ∧ (p.framingError x).pfu = p.pfu ∧ (p.framingError x).tru = p.tru ∧ (p.framingError x).lmu = p.lmu ∧ (p.framingError x).ext = p.ext ∧ (p.framingError x).rnc = p.rnc ∧ (p.framingError x).oru = p.oru := by
  unfold Part.framingError
  refine ⟨?_, ?_, ?_, ?_, ?_, ?_, ?_, ?_, ?_, ?_⟩ <;> (try dsimp only) <;> (repeat' split) <;> simp

@[simp] theorem Part.headerError_frame :
    (p.headerError).time = p.time ∧ (p.headerError).resetHeld = p.resetHeld ∧ (p.headerError).shu = p.shu ∧ (p.headerError).odu = p.odu ∧ (p.headerError).pfu = p.pfu ∧ (p.headerError).tru = p.tru ∧ (p.headerError).lmu = p.lmu ∧ (p.headerError).ext = p.ext ∧ (p.headerError).rnc = p.rnc ∧ (p.headerError).oru = p.oru := by
  unfold Part.headerError
  refine ⟨?_, ?_, ?_, ?_, ?_, ?_, ?_, ?_, ?_, ?_⟩ <;> (try dsimp only) <;> (repeat' split) <;> simp

@[simp] theorem Part.badFrame_frame (h : Head) (b : Bool) :
    (p.badFrame h b).time = p.time ∧ (p.badFrame h b).resetHeld = p.resetHeld ∧ (p.badFrame h b).shu = p.shu ∧ (p.badFrame h b).odu = p.odu ∧ (p.badFrame h b).pfu = p.pfu ∧ (p.badFrame h b).tru = p.tru ∧ (p.badFrame h b).lmu = p.lmu ∧ (p.badFrame h b).ext = p.ext ∧ (p.badFrame h b).rnc = p.rnc ∧ (p.badFrame h b).oru = p.oru := by
  unfold Part.badFrame
  refine ⟨?_, ?_, ?_, ?_, ?_, ?_, ?_, ?_, ?_, ?_⟩ <;> (try dsimp only) <;> (repeat' split) <;> simp

@[simp] theorem Part.validFrame_frame (h : Head) (q : BitVec 8) :
    (p.validFrame h q).time = p.time ∧ (p.validFrame h q).resetHeld = p.resetHeld ∧ (p.validFrame h q).shu = p.shu ∧ (p.validFrame h q).odu = p.odu ∧ (p.validFrame h q).pfu = p.pfu ∧ (p.validFrame h q).tru = p.tru ∧ (p.validFrame h q).lmu = p.lmu ∧ (p.validFrame h q).ext = p.ext ∧ (p.validFrame h q).rnc = p.rnc ∧ (p.validFrame h q).oru = p.oru := by
  unfold Part.validFrame
  refine ⟨?_, ?_, ?_, ?_, ?_, ?_, ?_, ?_, ?_, ?_⟩ <;> (try dsimp only) <;> (repeat' split) <;> simp

@[simp] theorem Part.holdSample_frame (h : Head) (hd : Header) (l : List Byte) :
    (p.holdSample h hd l).time = p.time ∧ (p.holdSample h hd l).resetHeld = p.resetHeld ∧ (p.holdSample h hd l).odu = p.odu ∧ (p.holdSample h hd l).pfu = p.pfu ∧ (p.holdSample h hd l).tru = p.tru ∧ (p.holdSample h hd l).lmu = p.lmu ∧ (p.holdSample h hd l).ext = p.ext ∧ (p.holdSample h hd l).rnc = p.rnc ∧ (p.holdSample h hd l).rlu = p.rlu ∧ (p.holdSample h hd l).oru = p.oru ∧ (p.holdSample h hd l).evu = p.evu := by
  unfold Part.holdSample
  refine ⟨?_, ?_, ?_, ?_, ?_, ?_, ?_, ?_, ?_, ?_, ?_⟩ <;> (try dsimp only) <;> (repeat' split) <;> simp

@[simp] theorem Part.offerMirror_frame (m : MirrorFrame) :
    (p.offerMirror m).time = p.time ∧ (p.offerMirror m).resetHeld = p.resetHeld ∧ (p.offerMirror m).hlu = p.hlu ∧ (p.offerMirror m).shu = p.shu ∧ (p.offerMirror m).odu = p.odu ∧ (p.offerMirror m).pfu = p.pfu ∧ (p.offerMirror m).tru = p.tru ∧ (p.offerMirror m).lmu = p.lmu ∧ (p.offerMirror m).ext = p.ext ∧ (p.offerMirror m).rnc = p.rnc ∧ (p.offerMirror m).oru = p.oru := by
  unfold Part.offerMirror
  refine ⟨?_, ?_, ?_, ?_, ?_, ?_, ?_, ?_, ?_, ?_, ?_⟩ <;> (try dsimp only) <;> (repeat' split) <;> simp

@[simp] theorem Part.mirrorCopy_frame (h : Head) (k : HeadKind) (l : List Byte) :
    (p.mirrorCopy h k l).time = p.time ∧ (p.mirrorCopy h k l).resetHeld = p.resetHeld ∧ (p.mirrorCopy h k l).hlu = p.hlu ∧ (p.mirrorCopy h k l).shu = p.shu ∧ (p.mirrorCopy h k l).odu = p.odu ∧ (p.mirrorCopy h k l).pfu = p.pfu ∧ (p.mirrorCopy h k l).tru = p.tru ∧ (p.mirrorCopy h k l).lmu = p.lmu ∧ (p.mirrorCopy h k l).ext = p.ext ∧ (p.mirrorCopy h k l).rnc = p.rnc ∧ (p.mirrorCopy h k l).oru = p.oru := by
  unfold Part.mirrorCopy
  refine ⟨?_, ?_, ?_, ?_, ?_, ?_, ?_, ?_, ?_, ?_, ?_⟩ <;> (try dsimp only) <;> (repeat' split) <;> simp

@[simp] theorem Part.takeStatus_frame (h : Head) (b : BitVec 8) :
    (p.takeStatus h b).time = p.time ∧ (p.takeStatus h b).resetHeld = p.resetHeld ∧ (p.takeStatus h b).shu = p.shu ∧ (p.takeStatus h b).odu = p.odu ∧ (p.takeStatus h b).pfu = p.pfu ∧ (p.takeStatus h b).tru = p.tru ∧ (p.takeStatus h b).lmu = p.lmu ∧ (p.takeStatus h b).ext = p.ext ∧ (p.takeStatus h b).rnc = p.rnc ∧ (p.takeStatus h b).oru = p.oru := by
  unfold Part.takeStatus
  refine ⟨?_, ?_, ?_, ?_, ?_, ?_, ?_, ?_, ?_, ?_⟩ <;> (try dsimp only) <;> (repeat' split) <;> simp

@[simp] theorem Part.takeMarker_frame (h : Head) (c : BitVec 32) :
    (p.takeMarker h c).time = p.time ∧ (p.takeMarker h c).resetHeld = p.resetHeld ∧ (p.takeMarker h c).hlu = p.hlu ∧ (p.takeMarker h c).shu = p.shu ∧ (p.takeMarker h c).odu = p.odu ∧ (p.takeMarker h c).tru = p.tru ∧ (p.takeMarker h c).rnc = p.rnc ∧ (p.takeMarker h c).oru = p.oru := by
  unfold Part.takeMarker
  refine ⟨?_, ?_, ?_, ?_, ?_, ?_, ?_, ?_⟩ <;> (try dsimp only) <;> (repeat' split) <;> simp

@[simp] theorem Part.completeRelay_frame (x : RelaySlot) (r : Result) (l : List Byte) :
    (p.completeRelay x r l).time = p.time ∧ (p.completeRelay x r l).resetHeld = p.resetHeld ∧ (p.completeRelay x r l).shu = p.shu ∧ (p.completeRelay x r l).odu = p.odu ∧ (p.completeRelay x r l).pfu = p.pfu ∧ (p.completeRelay x r l).tru = p.tru ∧ (p.completeRelay x r l).lmu = p.lmu ∧ (p.completeRelay x r l).ext = p.ext ∧ (p.completeRelay x r l).rnc = p.rnc ∧ (p.completeRelay x r l).evu = p.evu := by
  unfold Part.completeRelay
  refine ⟨?_, ?_, ?_, ?_, ?_, ?_, ?_, ?_, ?_, ?_⟩ <;> (try dsimp only) <;> (repeat' split) <;> simp

@[simp] theorem Part.takeReply_frame (h : Head) (l : List Byte) :
    (p.takeReply h l).time = p.time ∧ (p.takeReply h l).resetHeld = p.resetHeld ∧ (p.takeReply h l).shu = p.shu ∧ (p.takeReply h l).odu = p.odu ∧ (p.takeReply h l).pfu = p.pfu ∧ (p.takeReply h l).tru = p.tru ∧ (p.takeReply h l).lmu = p.lmu ∧ (p.takeReply h l).ext = p.ext ∧ (p.takeReply h l).rnc = p.rnc := by
  unfold Part.takeReply
  refine ⟨?_, ?_, ?_, ?_, ?_, ?_, ?_, ?_, ?_⟩ <;> (try dsimp only) <;> (repeat' split) <;> simp

@[simp] theorem Part.takeKind_frame (h : Head) (hd : Header) (l : List Byte) :
    (p.takeKind h hd l).time = p.time ∧ (p.takeKind h hd l).resetHeld = p.resetHeld ∧ (p.takeKind h hd l).odu = p.odu ∧ (p.takeKind h hd l).tru = p.tru ∧ (p.takeKind h hd l).rnc = p.rnc := by
  unfold Part.takeKind
  refine ⟨?_, ?_, ?_, ?_, ?_⟩ <;> (try dsimp only) <;> (repeat' split) <;> simp

@[simp] theorem Part.judgeFrame_frame (l : List Byte) (hd : Header) :
    (p.judgeFrame l hd).time = p.time ∧ (p.judgeFrame l hd).resetHeld = p.resetHeld ∧ (p.judgeFrame l hd).odu = p.odu ∧ (p.judgeFrame l hd).tru = p.tru ∧ (p.judgeFrame l hd).rnc = p.rnc := by
  unfold Part.judgeFrame
  refine ⟨?_, ?_, ?_, ?_, ?_⟩ <;> (try dsimp only) <;> (repeat' split) <;> simp

@[simp] theorem Part.frameData_frame (l : List Byte) (hd : Option Header) (b : Byte) :
    (p.frameData l hd b).time = p.time ∧ (p.frameData l hd b).resetHeld = p.resetHeld ∧ (p.frameData l hd b).shu = p.shu ∧ (p.frameData l hd b).odu = p.odu ∧ (p.frameData l hd b).pfu = p.pfu ∧ (p.frameData l hd b).tru = p.tru ∧ (p.frameData l hd b).lmu = p.lmu ∧ (p.frameData l hd b).ext = p.ext ∧ (p.frameData l hd b).rnc = p.rnc ∧ (p.frameData l hd b).oru = p.oru := by
  unfold Part.frameData
  refine ⟨?_, ?_, ?_, ?_, ?_, ?_, ?_, ?_, ?_, ?_⟩ <;> (try dsimp only) <;> (repeat' split) <;> simp

@[simp] theorem Part.frameEnd_frame (l : List Byte) (hd : Option Header) :
    (p.frameEnd l hd).time = p.time ∧ (p.frameEnd l hd).resetHeld = p.resetHeld ∧ (p.frameEnd l hd).odu = p.odu ∧ (p.frameEnd l hd).tru = p.tru ∧ (p.frameEnd l hd).rnc = p.rnc := by
  unfold Part.frameEnd
  refine ⟨?_, ?_, ?_, ?_, ?_⟩ <;> (try dsimp only) <;> (repeat' split) <;> simp

@[simp] theorem Part.charInFrame_frame (l : List Byte) (hd : Option Header) (c : LineChar) :
    (p.charInFrame l hd c).time = p.time ∧ (p.charInFrame l hd c).resetHeld = p.resetHeld ∧ (p.charInFrame l hd c).odu = p.odu ∧ (p.charInFrame l hd c).tru = p.tru ∧ (p.charInFrame l hd c).rnc = p.rnc := by
  unfold Part.charInFrame
  refine ⟨?_, ?_, ?_, ?_, ?_⟩ <;> (try dsimp only) <;> (repeat' split) <;> simp

@[simp] theorem Part.charOutside_frame (b : Bool) (c : LineChar) :
    (p.charOutside b c).time = p.time ∧ (p.charOutside b c).resetHeld = p.resetHeld ∧ (p.charOutside b c).shu = p.shu ∧ (p.charOutside b c).odu = p.odu ∧ (p.charOutside b c).pfu = p.pfu ∧ (p.charOutside b c).tru = p.tru ∧ (p.charOutside b c).lmu = p.lmu ∧ (p.charOutside b c).ext = p.ext ∧ (p.charOutside b c).rnc = p.rnc ∧ (p.charOutside b c).oru = p.oru := by
  unfold Part.charOutside
  refine ⟨?_, ?_, ?_, ?_, ?_, ?_, ?_, ?_, ?_, ?_⟩ <;> (try dsimp only) <;> (repeat' split) <;> simp

@[simp] theorem Part.charPassing_frame (c : LineChar) :
    (p.charPassing c).time = p.time ∧ (p.charPassing c).resetHeld = p.resetHeld ∧ (p.charPassing c).shu = p.shu ∧ (p.charPassing c).odu = p.odu ∧ (p.charPassing c).pfu = p.pfu ∧ (p.charPassing c).tru = p.tru ∧ (p.charPassing c).lmu = p.lmu ∧ (p.charPassing c).ext = p.ext ∧ (p.charPassing c).rnc = p.rnc ∧ (p.charPassing c).rlu = p.rlu ∧ (p.charPassing c).oru = p.oru ∧ (p.charPassing c).evu = p.evu := by
  unfold Part.charPassing
  refine ⟨?_, ?_, ?_, ?_, ?_, ?_, ?_, ?_, ?_, ?_, ?_, ?_⟩ <;> (try dsimp only) <;> (repeat' split) <;> simp

@[simp] theorem Part.charHunting_frame (c : LineChar) :
    (p.charHunting c).time = p.time ∧ (p.charHunting c).resetHeld = p.resetHeld ∧ (p.charHunting c).shu = p.shu ∧ (p.charHunting c).odu = p.odu ∧ (p.charHunting c).pfu = p.pfu ∧ (p.charHunting c).tru = p.tru ∧ (p.charHunting c).lmu = p.lmu ∧ (p.charHunting c).ext = p.ext ∧ (p.charHunting c).rnc = p.rnc ∧ (p.charHunting c).rlu = p.rlu ∧ (p.charHunting c).oru = p.oru ∧ (p.charHunting c).evu = p.evu := by
  unfold Part.charHunting
  refine ⟨?_, ?_, ?_, ?_, ?_, ?_, ?_, ?_, ?_, ?_, ?_, ?_⟩ <;> (try dsimp only) <;> (repeat' split) <;> simp

@[simp] theorem Part.charTaken_frame (c : LineChar) :
    (p.charTaken c).time = p.time ∧ (p.charTaken c).resetHeld = p.resetHeld ∧ (p.charTaken c).odu = p.odu ∧ (p.charTaken c).tru = p.tru ∧ (p.charTaken c).rnc = p.rnc := by
  unfold Part.charTaken
  refine ⟨?_, ?_, ?_, ?_, ?_⟩ <;> (try dsimp only) <;> (repeat' split) <;> simp

@[simp] theorem Part.countViolation_frame (c : LineChar) :
    (p.countViolation c).time = p.time ∧ (p.countViolation c).resetHeld = p.resetHeld ∧ (p.countViolation c).hlu = p.hlu ∧ (p.countViolation c).shu = p.shu ∧ (p.countViolation c).odu = p.odu ∧ (p.countViolation c).pfu = p.pfu ∧ (p.countViolation c).tru = p.tru ∧ (p.countViolation c).lmu = p.lmu ∧ (p.countViolation c).ext = p.ext ∧ (p.countViolation c).rnc = p.rnc ∧ (p.countViolation c).rlu = p.rlu ∧ (p.countViolation c).oru = p.oru := by
  unfold Part.countViolation
  refine ⟨?_, ?_, ?_, ?_, ?_, ?_, ?_, ?_, ?_, ?_, ?_, ?_⟩ <;> (try dsimp only) <;> (repeat' split) <;> simp

@[simp] theorem Part.headChar_frame (c : LineChar) :
    (p.headChar c).time = p.time ∧ (p.headChar c).resetHeld = p.resetHeld ∧ (p.headChar c).odu = p.odu ∧ (p.headChar c).tru = p.tru ∧ (p.headChar c).rnc = p.rnc := by
  unfold Part.headChar
  refine ⟨?_, ?_, ?_, ?_, ?_⟩ <;> (try dsimp only) <;> (repeat' split) <;> simp

@[simp] theorem Part.foldl_headChar_frame (l : List LineChar) :
    (l.foldl Part.headChar p).time = p.time ∧ (l.foldl Part.headChar p).resetHeld = p.resetHeld ∧ (l.foldl Part.headChar p).odu = p.odu ∧ (l.foldl Part.headChar p).tru = p.tru ∧ (l.foldl Part.headChar p).rnc = p.rnc := by
  induction l generalizing p with
  | nil => exact ⟨rfl, rfl, rfl, rfl, rfl⟩
  | cons x xs ih => simp [ih]

@[simp] theorem Part.headFrame_frame (l : List LineChar) :
    (p.headFrame l).time = p.time ∧ (p.headFrame l).resetHeld = p.resetHeld ∧ (p.headFrame l).odu = p.odu ∧ (p.headFrame l).tru = p.tru ∧ (p.headFrame l).rnc = p.rnc := by
  unfold Part.headFrame
  refine ⟨?_, ?_, ?_, ?_, ?_⟩ <;> (try dsimp only) <;> (repeat' split) <;> simp

@[simp] theorem Part.relaySentEvent_frame :
    (p.relaySentEvent).time = p.time ∧ (p.relaySentEvent).resetHeld = p.resetHeld ∧ (p.relaySentEvent).shu = p.shu ∧ (p.relaySentEvent).odu = p.odu ∧ (p.relaySentEvent).pfu = p.pfu ∧ (p.relaySentEvent).tru = p.tru ∧ (p.relaySentEvent).lmu = p.lmu ∧ (p.relaySentEvent).ext = p.ext ∧ (p.relaySentEvent).rnc = p.rnc ∧ (p.relaySentEvent).rlu = p.rlu ∧ (p.relaySentEvent).oru = p.oru ∧ (p.relaySentEvent).evu = p.evu := by
  unfold Part.relaySentEvent
  refine ⟨?_, ?_, ?_, ?_, ?_, ?_, ?_, ?_, ?_, ?_, ?_, ?_⟩ <;> (try dsimp only) <;> (repeat' split) <;> simp

@[simp] theorem Part.relayTimeoutEvent_frame :
    (p.relayTimeoutEvent).time = p.time ∧ (p.relayTimeoutEvent).resetHeld = p.resetHeld ∧ (p.relayTimeoutEvent).shu = p.shu ∧ (p.relayTimeoutEvent).odu = p.odu ∧ (p.relayTimeoutEvent).pfu = p.pfu ∧ (p.relayTimeoutEvent).tru = p.tru ∧ (p.relayTimeoutEvent).lmu = p.lmu ∧ (p.relayTimeoutEvent).ext = p.ext ∧ (p.relayTimeoutEvent).rnc = p.rnc := by
  unfold Part.relayTimeoutEvent
  refine ⟨?_, ?_, ?_, ?_, ?_, ?_, ?_, ?_, ?_⟩ <;> (try dsimp only) <;> (repeat' split) <;> simp

@[simp] theorem Part.watchdogEvent_frame (h : Head) :
    (p.watchdogEvent h).time = p.time ∧ (p.watchdogEvent h).resetHeld = p.resetHeld ∧ (p.watchdogEvent h).shu = p.shu ∧ (p.watchdogEvent h).odu = p.odu ∧ (p.watchdogEvent h).pfu = p.pfu ∧ (p.watchdogEvent h).tru = p.tru ∧ (p.watchdogEvent h).lmu = p.lmu ∧ (p.watchdogEvent h).ext = p.ext ∧ (p.watchdogEvent h).rnc = p.rnc ∧ (p.watchdogEvent h).oru = p.oru := by
  unfold Part.watchdogEvent
  refine ⟨?_, ?_, ?_, ?_, ?_, ?_, ?_, ?_, ?_, ?_⟩ <;> (try dsimp only) <;> (repeat' split) <;> simp

@[simp] theorem Part.stopFreshness_frame (h : Head) :
    (p.stopFreshness h).time = p.time ∧ (p.stopFreshness h).resetHeld = p.resetHeld ∧ (p.stopFreshness h).hlu = p.hlu ∧ (p.stopFreshness h).odu = p.odu ∧ (p.stopFreshness h).pfu = p.pfu ∧ (p.stopFreshness h).tru = p.tru ∧ (p.stopFreshness h).lmu = p.lmu ∧ (p.stopFreshness h).ext = p.ext ∧ (p.stopFreshness h).rnc = p.rnc ∧ (p.stopFreshness h).rlu = p.rlu ∧ (p.stopFreshness h).oru = p.oru ∧ (p.stopFreshness h).evu = p.evu := by
  unfold Part.stopFreshness
  refine ⟨?_, ?_, ?_, ?_, ?_, ?_, ?_, ?_, ?_, ?_, ?_, ?_⟩ <;> (try dsimp only) <;> (repeat' split) <;> simp

@[simp] theorem Part.freshnessEvent_frame (h : Head) :
    (p.freshnessEvent h).time = p.time ∧ (p.freshnessEvent h).resetHeld = p.resetHeld ∧ (p.freshnessEvent h).hlu = p.hlu ∧ (p.freshnessEvent h).odu = p.odu ∧ (p.freshnessEvent h).pfu = p.pfu ∧ (p.freshnessEvent h).tru = p.tru ∧ (p.freshnessEvent h).lmu = p.lmu ∧ (p.freshnessEvent h).ext = p.ext ∧ (p.freshnessEvent h).rnc = p.rnc ∧ (p.freshnessEvent h).rlu = p.rlu ∧ (p.freshnessEvent h).oru = p.oru ∧ (p.freshnessEvent h).evu = p.evu := by
  unfold Part.freshnessEvent
  refine ⟨?_, ?_, ?_, ?_, ?_, ?_, ?_, ?_, ?_, ?_, ?_, ?_⟩ <;> (try dsimp only) <;> (repeat' split) <;> simp

end Sys2Proof.Machine
end

