-- ==== Sys2Proof/Laws/MotionFrames.lean ====
section
/-! SUPPORT. The blocks that the Odometry Unit's operations and the motion events leave unchanged, one lemma per operation. -/

set_option linter.unusedTactic false
set_option linter.unreachableTactic false

namespace Sys2Proof.Machine

variable (p : Part)

@[simp] theorem Part.setPhases_frame (c : Encoder) (a b : Bool) :
    (p.setPhases c a b).time = p.time ∧ (p.setPhases c a b).resetHeld = p.resetHeld ∧ (p.setPhases c a b).hlu = p.hlu ∧ (p.setPhases c a b).shu = p.shu ∧ (p.setPhases c a b).pfu = p.pfu ∧ (p.setPhases c a b).tru = p.tru ∧ (p.setPhases c a b).lmu = p.lmu ∧ (p.setPhases c a b).ext = p.ext ∧ (p.setPhases c a b).rnc = p.rnc ∧ (p.setPhases c a b).rlu = p.rlu ∧ (p.setPhases c a b).oru = p.oru ∧ (p.setPhases c a b).evu = p.evu := by
  unfold Part.setPhases
  refine ⟨?_, ?_, ?_, ?_, ?_, ?_, ?_, ?_, ?_, ?_, ?_, ?_⟩ <;> (try dsimp only) <;> (repeat' split) <;> simp

@[simp] theorem Part.reversalTest_frame (d : Int) :
    (p.reversalTest d).time = p.time ∧ (p.reversalTest d).resetHeld = p.resetHeld ∧ (p.reversalTest d).hlu = p.hlu ∧ (p.reversalTest d).shu = p.shu ∧ (p.reversalTest d).pfu = p.pfu ∧ (p.reversalTest d).tru = p.tru ∧ (p.reversalTest d).lmu = p.lmu ∧ (p.reversalTest d).ext = p.ext ∧ (p.reversalTest d).rnc = p.rnc ∧ (p.reversalTest d).rlu = p.rlu ∧ (p.reversalTest d).oru = p.oru ∧ (p.reversalTest d).evu = p.evu := by
  unfold Part.reversalTest
  refine ⟨?_, ?_, ?_, ?_, ?_, ?_, ?_, ?_, ?_, ?_, ?_, ?_⟩ <;> (try dsimp only) <;> (repeat' split) <;> simp

@[simp] theorem Part.activeStep_frame (d : Int) :
    (p.activeStep d).time = p.time ∧ (p.activeStep d).resetHeld = p.resetHeld ∧ (p.activeStep d).hlu = p.hlu ∧ (p.activeStep d).shu = p.shu ∧ (p.activeStep d).tru = p.tru ∧ (p.activeStep d).lmu = p.lmu ∧ (p.activeStep d).ext = p.ext ∧ (p.activeStep d).rnc = p.rnc ∧ (p.activeStep d).rlu = p.rlu ∧ (p.activeStep d).oru = p.oru := by
  unfold Part.activeStep
  refine ⟨?_, ?_, ?_, ?_, ?_, ?_, ?_, ?_, ?_, ?_⟩ <;> (try dsimp only) <;> (repeat' split) <;> simp

@[simp] theorem Part.stepChannel_frame (c : Encoder) (d : Int) :
    (p.stepChannel c d).time = p.time ∧ (p.stepChannel c d).resetHeld = p.resetHeld ∧ (p.stepChannel c d).hlu = p.hlu ∧ (p.stepChannel c d).shu = p.shu ∧ (p.stepChannel c d).tru = p.tru ∧ (p.stepChannel c d).lmu = p.lmu ∧ (p.stepChannel c d).ext = p.ext ∧ (p.stepChannel c d).rnc = p.rnc ∧ (p.stepChannel c d).rlu = p.rlu ∧ (p.stepChannel c d).oru = p.oru := by
  unfold Part.stepChannel
  refine ⟨?_, ?_, ?_, ?_, ?_, ?_, ?_, ?_, ?_, ?_⟩ <;> (try dsimp only) <;> (repeat' split) <;> simp

@[simp] theorem Part.phaseChange_frame (c : Encoder) (a b : Bool) :
    (p.phaseChange c a b).time = p.time ∧ (p.phaseChange c a b).resetHeld = p.resetHeld ∧ (p.phaseChange c a b).hlu = p.hlu ∧ (p.phaseChange c a b).shu = p.shu ∧ (p.phaseChange c a b).tru = p.tru ∧ (p.phaseChange c a b).lmu = p.lmu ∧ (p.phaseChange c a b).ext = p.ext ∧ (p.phaseChange c a b).rnc = p.rnc ∧ (p.phaseChange c a b).rlu = p.rlu ∧ (p.phaseChange c a b).oru = p.oru := by
  unfold Part.phaseChange
  refine ⟨?_, ?_, ?_, ?_, ?_, ?_, ?_, ?_, ?_, ?_⟩ <;> (try dsimp only) <;> (repeat' split) <;> simp

@[simp] theorem Part.zeroUpdate_frame (c : Encoder) :
    (p.zeroUpdate c).time = p.time ∧ (p.zeroUpdate c).resetHeld = p.resetHeld ∧ (p.zeroUpdate c).hlu = p.hlu ∧ (p.zeroUpdate c).shu = p.shu ∧ (p.zeroUpdate c).pfu = p.pfu ∧ (p.zeroUpdate c).tru = p.tru ∧ (p.zeroUpdate c).lmu = p.lmu ∧ (p.zeroUpdate c).ext = p.ext ∧ (p.zeroUpdate c).rnc = p.rnc ∧ (p.zeroUpdate c).rlu = p.rlu ∧ (p.zeroUpdate c).oru = p.oru := by
  unfold Part.zeroUpdate
  refine ⟨?_, ?_, ?_, ?_, ?_, ?_, ?_, ?_, ?_, ?_, ?_⟩ <;> (try dsimp only) <;> (repeat' split) <;> simp

@[simp] theorem Part.zeroUpdates_frame :
    (p.zeroUpdates).time = p.time ∧ (p.zeroUpdates).resetHeld = p.resetHeld ∧ (p.zeroUpdates).hlu = p.hlu ∧ (p.zeroUpdates).shu = p.shu ∧ (p.zeroUpdates).pfu = p.pfu ∧ (p.zeroUpdates).tru = p.tru ∧ (p.zeroUpdates).lmu = p.lmu ∧ (p.zeroUpdates).ext = p.ext ∧ (p.zeroUpdates).rnc = p.rnc ∧ (p.zeroUpdates).rlu = p.rlu ∧ (p.zeroUpdates).oru = p.oru := by
  unfold Part.zeroUpdates
  refine ⟨?_, ?_, ?_, ?_, ?_, ?_, ?_, ?_, ?_, ?_, ?_⟩ <;> (try dsimp only) <;> (repeat' split) <;> simp

@[simp] theorem Part.switchChannel_frame :
    (p.switchChannel).time = p.time ∧ (p.switchChannel).resetHeld = p.resetHeld ∧ (p.switchChannel).hlu = p.hlu ∧ (p.switchChannel).shu = p.shu ∧ (p.switchChannel).tru = p.tru ∧ (p.switchChannel).lmu = p.lmu ∧ (p.switchChannel).ext = p.ext ∧ (p.switchChannel).rnc = p.rnc ∧ (p.switchChannel).rlu = p.rlu ∧ (p.switchChannel).oru = p.oru := by
  unfold Part.switchChannel
  refine ⟨?_, ?_, ?_, ?_, ?_, ?_, ?_, ?_, ?_, ?_⟩ <;> (try dsimp only) <;> (repeat' split) <;> simp

@[simp] theorem Part.countSlip_frame (b : Bool) :
    (p.countSlip b).time = p.time ∧ (p.countSlip b).resetHeld = p.resetHeld ∧ (p.countSlip b).hlu = p.hlu ∧ (p.countSlip b).shu = p.shu ∧ (p.countSlip b).odu = p.odu ∧ (p.countSlip b).pfu = p.pfu ∧ (p.countSlip b).tru = p.tru ∧ (p.countSlip b).lmu = p.lmu ∧ (p.countSlip b).ext = p.ext ∧ (p.countSlip b).rnc = p.rnc ∧ (p.countSlip b).oru = p.oru := by
  unfold Part.countSlip
  refine ⟨?_, ?_, ?_, ?_, ?_, ?_, ?_, ?_, ?_, ?_, ?_⟩ <;> (try dsimp only) <;> (repeat' split) <;> simp

@[simp] theorem Part.judgeChannels_frame :
    (p.judgeChannels).1.time = p.time ∧ (p.judgeChannels).1.resetHeld = p.resetHeld ∧ (p.judgeChannels).1.hlu = p.hlu ∧ (p.judgeChannels).1.shu = p.shu ∧ (p.judgeChannels).1.tru = p.tru ∧ (p.judgeChannels).1.lmu = p.lmu ∧ (p.judgeChannels).1.ext = p.ext ∧ (p.judgeChannels).1.rnc = p.rnc ∧ (p.judgeChannels).1.oru = p.oru := by
  unfold Part.judgeChannels
  refine ⟨?_, ?_, ?_, ?_, ?_, ?_, ?_, ?_, ?_⟩ <;> (try dsimp only) <;> (repeat' split) <;> simp

@[simp] theorem Part.newWindow_frame :
    (p.newWindow).time = p.time ∧ (p.newWindow).resetHeld = p.resetHeld ∧ (p.newWindow).hlu = p.hlu ∧ (p.newWindow).shu = p.shu ∧ (p.newWindow).pfu = p.pfu ∧ (p.newWindow).tru = p.tru ∧ (p.newWindow).lmu = p.lmu ∧ (p.newWindow).ext = p.ext ∧ (p.newWindow).rnc = p.rnc ∧ (p.newWindow).rlu = p.rlu ∧ (p.newWindow).oru = p.oru ∧ (p.newWindow).evu = p.evu := by
  unfold Part.newWindow
  refine ⟨?_, ?_, ?_, ?_, ?_, ?_, ?_, ?_, ?_, ?_, ?_, ?_⟩ <;> (try dsimp only) <;> (repeat' split) <;> simp

@[simp] theorem Part.comparison_frame :
    (p.comparison).1.time = p.time ∧ (p.comparison).1.resetHeld = p.resetHeld ∧ (p.comparison).1.hlu = p.hlu ∧ (p.comparison).1.shu = p.shu ∧ (p.comparison).1.tru = p.tru ∧ (p.comparison).1.lmu = p.lmu ∧ (p.comparison).1.ext = p.ext ∧ (p.comparison).1.rnc = p.rnc ∧ (p.comparison).1.oru = p.oru := by
  unfold Part.comparison
  refine ⟨?_, ?_, ?_, ?_, ?_, ?_, ?_, ?_, ?_⟩ <;> (try dsimp only) <;> (repeat' split) <;> simp

@[simp] theorem Part.speedTick_frame (t : TickData) :
    (p.speedTick t).time = p.time ∧ (p.speedTick t).resetHeld = p.resetHeld ∧ (p.speedTick t).hlu = p.hlu ∧ (p.speedTick t).shu = p.shu ∧ (p.speedTick t).pfu = p.pfu ∧ (p.speedTick t).tru = p.tru ∧ (p.speedTick t).lmu = p.lmu ∧ (p.speedTick t).ext = p.ext ∧ (p.speedTick t).rnc = p.rnc ∧ (p.speedTick t).rlu = p.rlu ∧ (p.speedTick t).oru = p.oru := by
  unfold Part.speedTick
  refine ⟨?_, ?_, ?_, ?_, ?_, ?_, ?_, ?_, ?_, ?_, ?_⟩ <;> (try dsimp only) <;> (repeat' split) <;> simp

@[simp] theorem Part.tickAdvance_frame :
    (p.tickAdvance).time = p.time ∧ (p.tickAdvance).resetHeld = p.resetHeld ∧ (p.tickAdvance).hlu = p.hlu ∧ (p.tickAdvance).shu = p.shu ∧ (p.tickAdvance).odu = p.odu ∧ (p.tickAdvance).tru = p.tru ∧ (p.tickAdvance).ext = p.ext ∧ (p.tickAdvance).rnc = p.rnc ∧ (p.tickAdvance).oru = p.oru := by
  unfold Part.tickAdvance
  refine ⟨?_, ?_, ?_, ?_, ?_, ?_, ?_, ?_, ?_⟩ <;> (try dsimp only) <;> (repeat' split) <;> simp

@[simp] theorem Part.deliverTick_frame (t : TickData) :
    (p.deliverTick t).time = p.time ∧ (p.deliverTick t).resetHeld = p.resetHeld ∧ (p.deliverTick t).shu = p.shu ∧ (p.deliverTick t).odu = p.odu ∧ (p.deliverTick t).oru = p.oru := by
  unfold Part.deliverTick
  refine ⟨?_, ?_, ?_, ?_, ?_⟩ <;> (try dsimp only) <;> (repeat' split) <;> simp

@[simp] theorem Part.tickOnce_frame (b : Bool) :
    (p.tickOnce b).time = p.time ∧ (p.tickOnce b).resetHeld = p.resetHeld ∧ (p.tickOnce b).shu = p.shu ∧ (p.tickOnce b).oru = p.oru := by
  unfold Part.tickOnce
  refine ⟨?_, ?_, ?_, ?_⟩ <;> (try dsimp only) <;> (repeat' split) <;> simp

@[simp] theorem Part.nextBoundary_frame :
    (p.nextBoundary).time = p.time ∧ (p.nextBoundary).resetHeld = p.resetHeld ∧ (p.nextBoundary).hlu = p.hlu ∧ (p.nextBoundary).shu = p.shu ∧ (p.nextBoundary).pfu = p.pfu ∧ (p.nextBoundary).tru = p.tru ∧ (p.nextBoundary).lmu = p.lmu ∧ (p.nextBoundary).ext = p.ext ∧ (p.nextBoundary).rnc = p.rnc ∧ (p.nextBoundary).rlu = p.rlu ∧ (p.nextBoundary).oru = p.oru ∧ (p.nextBoundary).evu = p.evu := by
  unfold Part.nextBoundary
  refine ⟨?_, ?_, ?_, ?_, ?_, ?_, ?_, ?_, ?_, ?_, ?_, ?_⟩ <;> (try dsimp only) <;> (repeat' split) <;> simp

@[simp] theorem Part.switchTicks_frame (b : Bool) (n : Nat) :
    (p.switchTicks b n).time = p.time ∧ (p.switchTicks b n).resetHeld = p.resetHeld ∧ (p.switchTicks b n).shu = p.shu ∧ (p.switchTicks b n).oru = p.oru := by
  induction n generalizing p with
  | zero => exact ⟨rfl, rfl, rfl, rfl⟩
  | succ n ih =>
    unfold Part.switchTicks
    split
    · simp [ih]
    · exact ⟨rfl, rfl, rfl, rfl⟩

@[simp] theorem Part.tickEvent_frame :
    (p.tickEvent).time = p.time ∧ (p.tickEvent).resetHeld = p.resetHeld ∧ (p.tickEvent).shu = p.shu ∧ (p.tickEvent).oru = p.oru := by
  unfold Part.tickEvent
  refine ⟨?_, ?_, ?_, ?_⟩ <;> (try dsimp only) <;> (repeat' split) <;> simp

@[simp] theorem Part.carrySlip_frame (b : Bool) :
    (p.carrySlip b).time = p.time ∧ (p.carrySlip b).resetHeld = p.resetHeld ∧ (p.carrySlip b).hlu = p.hlu ∧ (p.carrySlip b).shu = p.shu ∧ (p.carrySlip b).pfu = p.pfu ∧ (p.carrySlip b).tru = p.tru ∧ (p.carrySlip b).lmu = p.lmu ∧ (p.carrySlip b).ext = p.ext ∧ (p.carrySlip b).rnc = p.rnc ∧ (p.carrySlip b).rlu = p.rlu ∧ (p.carrySlip b).oru = p.oru ∧ (p.carrySlip b).evu = p.evu := by
  unfold Part.carrySlip
  refine ⟨?_, ?_, ?_, ?_, ?_, ?_, ?_, ?_, ?_, ?_, ?_, ?_⟩ <;> (try dsimp only) <;> (repeat' split) <;> simp

@[simp] theorem Part.watchEvent_frame :
    (p.watchEvent).time = p.time ∧ (p.watchEvent).resetHeld = p.resetHeld ∧ (p.watchEvent).shu = p.shu ∧ (p.watchEvent).oru = p.oru := by
  unfold Part.watchEvent
  refine ⟨?_, ?_, ?_, ?_⟩ <;> (try dsimp only) <;> (repeat' split) <;> simp

@[simp] theorem Part.loseLists_frame :
    (p.loseLists).time = p.time ∧ (p.loseLists).resetHeld = p.resetHeld ∧ (p.loseLists).hlu = p.hlu ∧ (p.loseLists).shu = p.shu ∧ (p.loseLists).odu = p.odu ∧ (p.loseLists).tru = p.tru ∧ (p.loseLists).ext = p.ext ∧ (p.loseLists).rnc = p.rnc ∧ (p.loseLists).rlu = p.rlu ∧ (p.loseLists).oru = p.oru ∧ (p.loseLists).evu = p.evu := by
  unfold Part.loseLists
  refine ⟨?_, ?_, ?_, ?_, ?_, ?_, ?_, ?_, ?_, ?_, ?_⟩ <;> (try dsimp only) <;> (repeat' split) <;> simp

@[simp] theorem Part.reversalFlush_frame :
    (p.reversalFlush).time = p.time ∧ (p.reversalFlush).resetHeld = p.resetHeld ∧ (p.reversalFlush).hlu = p.hlu ∧ (p.reversalFlush).shu = p.shu ∧ (p.reversalFlush).odu = p.odu ∧ (p.reversalFlush).pfu = p.pfu ∧ (p.reversalFlush).lmu = p.lmu ∧ (p.reversalFlush).rnc = p.rnc ∧ (p.reversalFlush).oru = p.oru := by
  unfold Part.reversalFlush
  refine ⟨?_, ?_, ?_, ?_, ?_, ?_, ?_, ?_, ?_⟩ <;> (try dsimp only) <;> (repeat' split) <;> simp

@[simp] theorem Part.reverse_frame :
    (p.reverse).time = p.time ∧ (p.reverse).resetHeld = p.resetHeld ∧ (p.reverse).hlu = p.hlu ∧ (p.reverse).shu = p.shu ∧ (p.reverse).rnc = p.rnc ∧ (p.reverse).oru = p.oru := by
  unfold Part.reverse
  refine ⟨?_, ?_, ?_, ?_, ?_, ?_⟩ <;> (try dsimp only) <;> (repeat' split) <;> simp

@[simp] theorem Part.reversalEvent_frame :
    (p.reversalEvent).time = p.time ∧ (p.reversalEvent).resetHeld = p.resetHeld ∧ (p.reversalEvent).hlu = p.hlu ∧ (p.reversalEvent).shu = p.shu ∧ (p.reversalEvent).rnc = p.rnc ∧ (p.reversalEvent).oru = p.oru := by
  unfold Part.reversalEvent
  refine ⟨?_, ?_, ?_, ?_, ?_, ?_⟩ <;> (try dsimp only) <;> (repeat' split) <;> simp

@[simp] theorem Part.historyEvent_frame :
    (p.historyEvent).time = p.time ∧ (p.historyEvent).resetHeld = p.resetHeld ∧ (p.historyEvent).hlu = p.hlu ∧ (p.historyEvent).shu = p.shu ∧ (p.historyEvent).pfu = p.pfu ∧ (p.historyEvent).tru = p.tru ∧ (p.historyEvent).lmu = p.lmu ∧ (p.historyEvent).ext = p.ext ∧ (p.historyEvent).rnc = p.rnc ∧ (p.historyEvent).rlu = p.rlu ∧ (p.historyEvent).oru = p.oru ∧ (p.historyEvent).evu = p.evu := by
  unfold Part.historyEvent
  refine ⟨?_, ?_, ?_, ?_, ?_, ?_, ?_, ?_, ?_, ?_, ?_, ?_⟩ <;> (try dsimp only) <;> (repeat' split) <;> simp

@[simp] theorem Part.settleMotion_frame :
    (p.settleMotion).time = p.time ∧ (p.settleMotion).resetHeld = p.resetHeld ∧ (p.settleMotion).shu = p.shu ∧ (p.settleMotion).oru = p.oru := by
  unfold Part.settleMotion
  refine ⟨?_, ?_, ?_, ?_⟩ <;> (try dsimp only) <;> (repeat' split) <;> simp

@[simp] theorem Part.closeEvent_frame (n : SlotNo) :
    (p.closeEvent n).time = p.time ∧ (p.closeEvent n).resetHeld = p.resetHeld ∧ (p.closeEvent n).hlu = p.hlu ∧ (p.closeEvent n).shu = p.shu ∧ (p.closeEvent n).odu = p.odu ∧ (p.closeEvent n).pfu = p.pfu ∧ (p.closeEvent n).tru = p.tru ∧ (p.closeEvent n).lmu = p.lmu ∧ (p.closeEvent n).rnc = p.rnc ∧ (p.closeEvent n).oru = p.oru := by
  unfold Part.closeEvent
  refine ⟨?_, ?_, ?_, ?_, ?_, ?_, ?_, ?_, ?_, ?_⟩ <;> (try dsimp only) <;> (repeat' split) <;> simp

@[simp] theorem Part.gapEvent_frame (n : SlotNo) :
    (p.gapEvent n).time = p.time ∧ (p.gapEvent n).resetHeld = p.resetHeld ∧ (p.gapEvent n).hlu = p.hlu ∧ (p.gapEvent n).shu = p.shu ∧ (p.gapEvent n).odu = p.odu ∧ (p.gapEvent n).pfu = p.pfu ∧ (p.gapEvent n).tru = p.tru ∧ (p.gapEvent n).lmu = p.lmu ∧ (p.gapEvent n).rnc = p.rnc ∧ (p.gapEvent n).oru = p.oru := by
  unfold Part.gapEvent
  refine ⟨?_, ?_, ?_, ?_, ?_, ?_, ?_, ?_, ?_, ?_⟩ <;> (try dsimp only) <;> (repeat' split) <;> simp

end Sys2Proof.Machine
end

