-- ==== Sys2Proof/Laws/OrderFrames.lean ====
section
/-! SUPPORT. The blocks that the Order Unit's shared operations leave unchanged, one lemma per operation. -/

set_option linter.unusedTactic false
set_option linter.unreachableTactic false

namespace Sys2Proof.Machine

variable (p : Part)

@[simp] theorem Part.taken_frame :
    (p.taken).time = p.time ∧ (p.taken).resetHeld = p.resetHeld ∧ (p.taken).hlu = p.hlu ∧ (p.taken).shu = p.shu ∧ (p.taken).odu = p.odu ∧ (p.taken).pfu = p.pfu ∧ (p.taken).tru = p.tru ∧ (p.taken).lmu = p.lmu ∧ (p.taken).ext = p.ext ∧ (p.taken).rnc = p.rnc := by
  unfold Part.taken
  refine ⟨?_, ?_, ?_, ?_, ?_, ?_, ?_, ?_, ?_, ?_⟩ <;> (try dsimp only) <;> (repeat' split) <;> simp

@[simp] theorem Part.refuseLength_frame (l : List Byte) :
    (p.refuseLength l).time = p.time ∧ (p.refuseLength l).resetHeld = p.resetHeld ∧ (p.refuseLength l).hlu = p.hlu ∧ (p.refuseLength l).shu = p.shu ∧ (p.refuseLength l).odu = p.odu ∧ (p.refuseLength l).pfu = p.pfu ∧ (p.refuseLength l).tru = p.tru ∧ (p.refuseLength l).lmu = p.lmu ∧ (p.refuseLength l).ext = p.ext ∧ (p.refuseLength l).rnc = p.rnc ∧ (p.refuseLength l).oru = p.oru := by
  unfold Part.refuseLength
  refine ⟨?_, ?_, ?_, ?_, ?_, ?_, ?_, ?_, ?_, ?_, ?_⟩ <;> (try dsimp only) <;> (repeat' split) <;> simp

@[simp] theorem Part.dropHeld_frame (a : Nat) :
    (p.dropHeld a).time = p.time ∧ (p.dropHeld a).resetHeld = p.resetHeld ∧ (p.dropHeld a).odu = p.odu ∧ (p.dropHeld a).pfu = p.pfu ∧ (p.dropHeld a).tru = p.tru ∧ (p.dropHeld a).lmu = p.lmu ∧ (p.dropHeld a).ext = p.ext ∧ (p.dropHeld a).rnc = p.rnc ∧ (p.dropHeld a).rlu = p.rlu ∧ (p.dropHeld a).oru = p.oru ∧ (p.dropHeld a).evu = p.evu := by
  unfold Part.dropHeld
  refine ⟨?_, ?_, ?_, ?_, ?_, ?_, ?_, ?_, ?_, ?_, ?_⟩ <;> (try dsimp only) <;> (repeat' split) <;> simp

@[simp] theorem Part.settingEffect_frame (n a : Nat) :
    (p.settingEffect n a).time = p.time ∧ (p.settingEffect n a).resetHeld = p.resetHeld ∧ (p.settingEffect n a).tru = p.tru ∧ (p.settingEffect n a).ext = p.ext ∧ (p.settingEffect n a).rnc = p.rnc ∧ (p.settingEffect n a).rlu = p.rlu ∧ (p.settingEffect n a).oru = p.oru ∧ (p.settingEffect n a).evu = p.evu := by
  unfold Part.settingEffect
  refine ⟨?_, ?_, ?_, ?_, ?_, ?_, ?_, ?_⟩ <;> (try dsimp only) <;> (repeat' split) <;> simp

@[simp] theorem Part.clearCounters_frame (l : List Nat) :
    (p.clearCounters l).time = p.time ∧ (p.clearCounters l).resetHeld = p.resetHeld ∧ (p.clearCounters l).hlu = p.hlu ∧ (p.clearCounters l).shu = p.shu ∧ (p.clearCounters l).odu = p.odu ∧ (p.clearCounters l).pfu = p.pfu ∧ (p.clearCounters l).tru = p.tru ∧ (p.clearCounters l).lmu = p.lmu ∧ (p.clearCounters l).ext = p.ext ∧ (p.clearCounters l).rnc = p.rnc ∧ (p.clearCounters l).rlu = p.rlu ∧ (p.clearCounters l).oru = p.oru := by
  unfold Part.clearCounters
  refine ⟨?_, ?_, ?_, ?_, ?_, ?_, ?_, ?_, ?_, ?_, ?_, ?_⟩ <;> (try dsimp only) <;> (repeat' split) <;> simp

@[simp] theorem Part.clearEvents_frame (l : List Byte) :
    (p.clearEvents l).time = p.time ∧ (p.clearEvents l).resetHeld = p.resetHeld ∧ (p.clearEvents l).shu = p.shu ∧ (p.clearEvents l).odu = p.odu ∧ (p.clearEvents l).pfu = p.pfu ∧ (p.clearEvents l).tru = p.tru ∧ (p.clearEvents l).lmu = p.lmu ∧ (p.clearEvents l).ext = p.ext ∧ (p.clearEvents l).rnc = p.rnc ∧ (p.clearEvents l).rlu = p.rlu ∧ (p.clearEvents l).oru = p.oru := by
  unfold Part.clearEvents
  refine ⟨?_, ?_, ?_, ?_, ?_, ?_, ?_, ?_, ?_, ?_, ?_⟩ <;> (try dsimp only) <;> (repeat' split) <;> simp

@[simp] theorem Part.writeMasks_frame (l : List Byte) :
    (p.writeMasks l).time = p.time ∧ (p.writeMasks l).resetHeld = p.resetHeld ∧ (p.writeMasks l).shu = p.shu ∧ (p.writeMasks l).odu = p.odu ∧ (p.writeMasks l).pfu = p.pfu ∧ (p.writeMasks l).tru = p.tru ∧ (p.writeMasks l).lmu = p.lmu ∧ (p.writeMasks l).ext = p.ext ∧ (p.writeMasks l).rnc = p.rnc ∧ (p.writeMasks l).rlu = p.rlu ∧ (p.writeMasks l).oru = p.oru := by
  unfold Part.writeMasks
  refine ⟨?_, ?_, ?_, ?_, ?_, ?_, ?_, ?_, ?_, ?_, ?_⟩ <;> (try dsimp only) <;> (repeat' split) <;> simp

@[simp] theorem Part.relayOrder_frame (h : Head) (l : List Byte) :
    (p.relayOrder h l).time = p.time ∧ (p.relayOrder h l).resetHeld = p.resetHeld ∧ (p.relayOrder h l).shu = p.shu ∧ (p.relayOrder h l).odu = p.odu ∧ (p.relayOrder h l).pfu = p.pfu ∧ (p.relayOrder h l).tru = p.tru ∧ (p.relayOrder h l).lmu = p.lmu ∧ (p.relayOrder h l).ext = p.ext ∧ (p.relayOrder h l).rnc = p.rnc ∧ (p.relayOrder h l).rlu = p.rlu ∧ (p.relayOrder h l).evu = p.evu := by
  unfold Part.relayOrder
  refine ⟨?_, ?_, ?_, ?_, ?_, ?_, ?_, ?_, ?_, ?_, ?_⟩ <;> (try dsimp only) <;> (repeat' split) <;> simp

end Sys2Proof.Machine
end

