-- ==== Sys2Proof/Laws/RecorderFrames.lean ====
section
/-! SUPPORT. The blocks that the Recorder Link Unit's operations leave unchanged, one lemma per operation. -/

set_option linter.unusedTactic false
set_option linter.unreachableTactic false

namespace Sys2Proof.Machine

variable (p : Part)

@[simp] theorem Part.cutTransmission_frame :
    (p.cutTransmission).time = p.time ∧ (p.cutTransmission).resetHeld = p.resetHeld ∧ (p.cutTransmission).hlu = p.hlu ∧ (p.cutTransmission).shu = p.shu ∧ (p.cutTransmission).odu = p.odu ∧ (p.cutTransmission).pfu = p.pfu ∧ (p.cutTransmission).tru = p.tru ∧ (p.cutTransmission).lmu = p.lmu ∧ (p.cutTransmission).ext = p.ext ∧ (p.cutTransmission).rnc = p.rnc ∧ (p.cutTransmission).oru = p.oru := by
  unfold Part.cutTransmission
  refine ⟨?_, ?_, ?_, ?_, ?_, ?_, ?_, ?_, ?_, ?_, ?_⟩ <;> (try dsimp only) <;> (repeat' split) <;> simp

@[simp] theorem Part.goDown_frame :
    (p.goDown).time = p.time ∧ (p.goDown).resetHeld = p.resetHeld ∧ (p.goDown).hlu = p.hlu ∧ (p.goDown).shu = p.shu ∧ (p.goDown).odu = p.odu ∧ (p.goDown).pfu = p.pfu ∧ (p.goDown).tru = p.tru ∧ (p.goDown).lmu = p.lmu ∧ (p.goDown).ext = p.ext ∧ (p.goDown).rnc = p.rnc ∧ (p.goDown).oru = p.oru := by
  unfold Part.goDown
  refine ⟨?_, ?_, ?_, ?_, ?_, ?_, ?_, ?_, ?_, ?_, ?_⟩ <;> (try dsimp only) <;> (repeat' split) <;> simp

@[simp] theorem Part.recorderError_frame :
    (p.recorderError).time = p.time ∧ (p.recorderError).resetHeld = p.resetHeld ∧ (p.recorderError).hlu = p.hlu ∧ (p.recorderError).shu = p.shu ∧ (p.recorderError).odu = p.odu ∧ (p.recorderError).pfu = p.pfu ∧ (p.recorderError).tru = p.tru ∧ (p.recorderError).lmu = p.lmu ∧ (p.recorderError).ext = p.ext ∧ (p.recorderError).rnc = p.rnc ∧ (p.recorderError).oru = p.oru := by
  unfold Part.recorderError
  refine ⟨?_, ?_, ?_, ?_, ?_, ?_, ?_, ?_, ?_, ?_, ?_⟩ <;> (try dsimp only) <;> (repeat' split) <;> simp

@[simp] theorem Part.linkUpEvent_frame :
    (p.linkUpEvent).time = p.time ∧ (p.linkUpEvent).resetHeld = p.resetHeld ∧ (p.linkUpEvent).hlu = p.hlu ∧ (p.linkUpEvent).shu = p.shu ∧ (p.linkUpEvent).odu = p.odu ∧ (p.linkUpEvent).pfu = p.pfu ∧ (p.linkUpEvent).tru = p.tru ∧ (p.linkUpEvent).lmu = p.lmu ∧ (p.linkUpEvent).ext = p.ext ∧ (p.linkUpEvent).rnc = p.rnc ∧ (p.linkUpEvent).oru = p.oru ∧ (p.linkUpEvent).evu = p.evu := by
  unfold Part.linkUpEvent
  refine ⟨?_, ?_, ?_, ?_, ?_, ?_, ?_, ?_, ?_, ?_, ?_, ?_⟩ <;> (try dsimp only) <;> (repeat' split) <;> simp

@[simp] theorem Part.recorderLoss_frame :
    (p.recorderLoss).time = p.time ∧ (p.recorderLoss).resetHeld = p.resetHeld ∧ (p.recorderLoss).hlu = p.hlu ∧ (p.recorderLoss).shu = p.shu ∧ (p.recorderLoss).odu = p.odu ∧ (p.recorderLoss).pfu = p.pfu ∧ (p.recorderLoss).tru = p.tru ∧ (p.recorderLoss).lmu = p.lmu ∧ (p.recorderLoss).ext = p.ext ∧ (p.recorderLoss).rnc = p.rnc ∧ (p.recorderLoss).oru = p.oru := by
  unfold Part.recorderLoss
  refine ⟨?_, ?_, ?_, ?_, ?_, ?_, ?_, ?_, ?_, ?_, ?_⟩ <;> (try dsimp only) <;> (repeat' split) <;> simp

@[simp] theorem Part.checkFailure_frame :
    (p.checkFailure).time = p.time ∧ (p.checkFailure).resetHeld = p.resetHeld ∧ (p.checkFailure).hlu = p.hlu ∧ (p.checkFailure).shu = p.shu ∧ (p.checkFailure).odu = p.odu ∧ (p.checkFailure).pfu = p.pfu ∧ (p.checkFailure).tru = p.tru ∧ (p.checkFailure).lmu = p.lmu ∧ (p.checkFailure).ext = p.ext ∧ (p.checkFailure).rnc = p.rnc ∧ (p.checkFailure).oru = p.oru := by
  unfold Part.checkFailure
  refine ⟨?_, ?_, ?_, ?_, ?_, ?_, ?_, ?_, ?_, ?_, ?_⟩ <;> (try dsimp only) <;> (repeat' split) <;> simp

@[simp] theorem Part.takeCredit_frame (v : Nat) :
    (p.takeCredit v).time = p.time ∧ (p.takeCredit v).resetHeld = p.resetHeld ∧ (p.takeCredit v).hlu = p.hlu ∧ (p.takeCredit v).shu = p.shu ∧ (p.takeCredit v).odu = p.odu ∧ (p.takeCredit v).pfu = p.pfu ∧ (p.takeCredit v).tru = p.tru ∧ (p.takeCredit v).lmu = p.lmu ∧ (p.takeCredit v).ext = p.ext ∧ (p.takeCredit v).rnc = p.rnc ∧ (p.takeCredit v).oru = p.oru := by
  unfold Part.takeCredit
  refine ⟨?_, ?_, ?_, ?_, ?_, ?_, ?_, ?_, ?_, ?_, ?_⟩ <;> (try dsimp only) <;> (repeat' split) <;> simp

@[simp] theorem Part.offerOrder_frame (l : List Byte) :
    (p.offerOrder l).time = p.time ∧ (p.offerOrder l).resetHeld = p.resetHeld ∧ (p.offerOrder l).hlu = p.hlu ∧ (p.offerOrder l).shu = p.shu ∧ (p.offerOrder l).odu = p.odu ∧ (p.offerOrder l).pfu = p.pfu ∧ (p.offerOrder l).tru = p.tru ∧ (p.offerOrder l).lmu = p.lmu ∧ (p.offerOrder l).ext = p.ext ∧ (p.offerOrder l).rnc = p.rnc := by
  unfold Part.offerOrder
  refine ⟨?_, ?_, ?_, ?_, ?_, ?_, ?_, ?_, ?_, ?_⟩ <;> (try dsimp only) <;> (repeat' split) <;> simp

@[simp] theorem Part.takeInbound_frame (l : List Byte) :
    (p.takeInbound l).time = p.time ∧ (p.takeInbound l).resetHeld = p.resetHeld ∧ (p.takeInbound l).hlu = p.hlu ∧ (p.takeInbound l).shu = p.shu ∧ (p.takeInbound l).odu = p.odu ∧ (p.takeInbound l).pfu = p.pfu ∧ (p.takeInbound l).tru = p.tru ∧ (p.takeInbound l).lmu = p.lmu ∧ (p.takeInbound l).ext = p.ext ∧ (p.takeInbound l).rnc = p.rnc := by
  unfold Part.takeInbound
  refine ⟨?_, ?_, ?_, ?_, ?_, ?_, ?_, ?_, ?_, ?_⟩ <;> (try dsimp only) <;> (repeat' split) <;> simp

@[simp] theorem Part.tallyIdle_frame :
    (p.tallyIdle).time = p.time ∧ (p.tallyIdle).resetHeld = p.resetHeld ∧ (p.tallyIdle).hlu = p.hlu ∧ (p.tallyIdle).shu = p.shu ∧ (p.tallyIdle).odu = p.odu ∧ (p.tallyIdle).pfu = p.pfu ∧ (p.tallyIdle).tru = p.tru ∧ (p.tallyIdle).lmu = p.lmu ∧ (p.tallyIdle).ext = p.ext ∧ (p.tallyIdle).rnc = p.rnc ∧ (p.tallyIdle).oru = p.oru ∧ (p.tallyIdle).evu = p.evu := by
  unfold Part.tallyIdle
  refine ⟨?_, ?_, ?_, ?_, ?_, ?_, ?_, ?_, ?_, ?_, ?_, ?_⟩ <;> (try dsimp only) <;> (repeat' split) <;> simp

@[simp] theorem Part.setInbound_frame (x : Option (List Byte)) :
    (p.setInbound x).time = p.time ∧ (p.setInbound x).resetHeld = p.resetHeld ∧ (p.setInbound x).hlu = p.hlu ∧ (p.setInbound x).shu = p.shu ∧ (p.setInbound x).odu = p.odu ∧ (p.setInbound x).pfu = p.pfu ∧ (p.setInbound x).tru = p.tru ∧ (p.setInbound x).lmu = p.lmu ∧ (p.setInbound x).ext = p.ext ∧ (p.setInbound x).rnc = p.rnc ∧ (p.setInbound x).oru = p.oru ∧ (p.setInbound x).evu = p.evu := by
  unfold Part.setInbound
  refine ⟨?_, ?_, ?_, ?_, ?_, ?_, ?_, ?_, ?_, ?_, ?_, ?_⟩ <;> (try dsimp only) <;> (repeat' split) <;> simp

@[simp] theorem Part.inboundStart_frame :
    (p.inboundStart).time = p.time ∧ (p.inboundStart).resetHeld = p.resetHeld ∧ (p.inboundStart).hlu = p.hlu ∧ (p.inboundStart).shu = p.shu ∧ (p.inboundStart).odu = p.odu ∧ (p.inboundStart).pfu = p.pfu ∧ (p.inboundStart).tru = p.tru ∧ (p.inboundStart).lmu = p.lmu ∧ (p.inboundStart).ext = p.ext ∧ (p.inboundStart).rnc = p.rnc ∧ (p.inboundStart).oru = p.oru := by
  unfold Part.inboundStart
  refine ⟨?_, ?_, ?_, ?_, ?_, ?_, ?_, ?_, ?_, ?_, ?_⟩ <;> (try dsimp only) <;> (repeat' split) <;> simp

@[simp] theorem Part.inboundData_frame (b : Byte) :
    (p.inboundData b).time = p.time ∧ (p.inboundData b).resetHeld = p.resetHeld ∧ (p.inboundData b).hlu = p.hlu ∧ (p.inboundData b).shu = p.shu ∧ (p.inboundData b).odu = p.odu ∧ (p.inboundData b).pfu = p.pfu ∧ (p.inboundData b).tru = p.tru ∧ (p.inboundData b).lmu = p.lmu ∧ (p.inboundData b).ext = p.ext ∧ (p.inboundData b).rnc = p.rnc ∧ (p.inboundData b).oru = p.oru := by
  unfold Part.inboundData
  refine ⟨?_, ?_, ?_, ?_, ?_, ?_, ?_, ?_, ?_, ?_, ?_⟩ <;> (try dsimp only) <;> (repeat' split) <;> simp

@[simp] theorem Part.inboundEnd_frame :
    (p.inboundEnd).time = p.time ∧ (p.inboundEnd).resetHeld = p.resetHeld ∧ (p.inboundEnd).hlu = p.hlu ∧ (p.inboundEnd).shu = p.shu ∧ (p.inboundEnd).odu = p.odu ∧ (p.inboundEnd).pfu = p.pfu ∧ (p.inboundEnd).tru = p.tru ∧ (p.inboundEnd).lmu = p.lmu ∧ (p.inboundEnd).ext = p.ext ∧ (p.inboundEnd).rnc = p.rnc := by
  unfold Part.inboundEnd
  refine ⟨?_, ?_, ?_, ?_, ?_, ?_, ?_, ?_, ?_, ?_⟩ <;> (try dsimp only) <;> (repeat' split) <;> simp

@[simp] theorem Part.inboundViolation_frame :
    (p.inboundViolation).time = p.time ∧ (p.inboundViolation).resetHeld = p.resetHeld ∧ (p.inboundViolation).hlu = p.hlu ∧ (p.inboundViolation).shu = p.shu ∧ (p.inboundViolation).odu = p.odu ∧ (p.inboundViolation).pfu = p.pfu ∧ (p.inboundViolation).tru = p.tru ∧ (p.inboundViolation).lmu = p.lmu ∧ (p.inboundViolation).ext = p.ext ∧ (p.inboundViolation).rnc = p.rnc ∧ (p.inboundViolation).oru = p.oru := by
  unfold Part.inboundViolation
  refine ⟨?_, ?_, ?_, ?_, ?_, ?_, ?_, ?_, ?_, ?_, ?_⟩ <;> (try dsimp only) <;> (repeat' split) <;> simp

@[simp] theorem Part.charUp_frame (c : LineChar) :
    (p.charUp c).time = p.time ∧ (p.charUp c).resetHeld = p.resetHeld ∧ (p.charUp c).hlu = p.hlu ∧ (p.charUp c).shu = p.shu ∧ (p.charUp c).odu = p.odu ∧ (p.charUp c).pfu = p.pfu ∧ (p.charUp c).tru = p.tru ∧ (p.charUp c).lmu = p.lmu ∧ (p.charUp c).ext = p.ext ∧ (p.charUp c).rnc = p.rnc := by
  unfold Part.charUp
  refine ⟨?_, ?_, ?_, ?_, ?_, ?_, ?_, ?_, ?_, ?_⟩ <;> (try dsimp only) <;> (repeat' split) <;> simp

@[simp] theorem Part.charHunt_frame (c : LineChar) :
    (p.charHunt c).time = p.time ∧ (p.charHunt c).resetHeld = p.resetHeld ∧ (p.charHunt c).hlu = p.hlu ∧ (p.charHunt c).shu = p.shu ∧ (p.charHunt c).odu = p.odu ∧ (p.charHunt c).pfu = p.pfu ∧ (p.charHunt c).tru = p.tru ∧ (p.charHunt c).lmu = p.lmu ∧ (p.charHunt c).ext = p.ext ∧ (p.charHunt c).rnc = p.rnc ∧ (p.charHunt c).oru = p.oru ∧ (p.charHunt c).evu = p.evu := by
  unfold Part.charHunt
  refine ⟨?_, ?_, ?_, ?_, ?_, ?_, ?_, ?_, ?_, ?_, ?_, ?_⟩ <;> (try dsimp only) <;> (repeat' split) <;> simp

@[simp] theorem Part.recorderTaken_frame (c : LineChar) :
    (p.recorderTaken c).time = p.time ∧ (p.recorderTaken c).resetHeld = p.resetHeld ∧ (p.recorderTaken c).hlu = p.hlu ∧ (p.recorderTaken c).shu = p.shu ∧ (p.recorderTaken c).odu = p.odu ∧ (p.recorderTaken c).pfu = p.pfu ∧ (p.recorderTaken c).tru = p.tru ∧ (p.recorderTaken c).lmu = p.lmu ∧ (p.recorderTaken c).ext = p.ext ∧ (p.recorderTaken c).rnc = p.rnc := by
  unfold Part.recorderTaken
  refine ⟨?_, ?_, ?_, ?_, ?_, ?_, ?_, ?_, ?_, ?_⟩ <;> (try dsimp only) <;> (repeat' split) <;> simp

@[simp] theorem Part.countRecorderViolation_frame (c : LineChar) :
    (p.countRecorderViolation c).time = p.time ∧ (p.countRecorderViolation c).resetHeld = p.resetHeld ∧ (p.countRecorderViolation c).hlu = p.hlu ∧ (p.countRecorderViolation c).shu = p.shu ∧ (p.countRecorderViolation c).odu = p.odu ∧ (p.countRecorderViolation c).pfu = p.pfu ∧ (p.countRecorderViolation c).tru = p.tru ∧ (p.countRecorderViolation c).lmu = p.lmu ∧ (p.countRecorderViolation c).ext = p.ext ∧ (p.countRecorderViolation c).rnc = p.rnc ∧ (p.countRecorderViolation c).rlu = p.rlu ∧ (p.countRecorderViolation c).oru = p.oru := by
  unfold Part.countRecorderViolation
  refine ⟨?_, ?_, ?_, ?_, ?_, ?_, ?_, ?_, ?_, ?_, ?_, ?_⟩ <;> (try dsimp only) <;> (repeat' split) <;> simp

@[simp] theorem Part.recorderChar_frame (c : LineChar) :
    (p.recorderChar c).time = p.time ∧ (p.recorderChar c).resetHeld = p.resetHeld ∧ (p.recorderChar c).hlu = p.hlu ∧ (p.recorderChar c).shu = p.shu ∧ (p.recorderChar c).odu = p.odu ∧ (p.recorderChar c).pfu = p.pfu ∧ (p.recorderChar c).tru = p.tru ∧ (p.recorderChar c).lmu = p.lmu ∧ (p.recorderChar c).ext = p.ext ∧ (p.recorderChar c).rnc = p.rnc := by
  unfold Part.recorderChar
  refine ⟨?_, ?_, ?_, ?_, ?_, ?_, ?_, ?_, ?_, ?_⟩ <;> (try dsimp only) <;> (repeat' split) <;> simp

@[simp] theorem Part.foldl_recorderChar_frame (l : List LineChar) :
    (l.foldl Part.recorderChar p).time = p.time ∧ (l.foldl Part.recorderChar p).resetHeld = p.resetHeld ∧ (l.foldl Part.recorderChar p).hlu = p.hlu ∧ (l.foldl Part.recorderChar p).shu = p.shu ∧ (l.foldl Part.recorderChar p).odu = p.odu ∧ (l.foldl Part.recorderChar p).pfu = p.pfu ∧ (l.foldl Part.recorderChar p).tru = p.tru ∧ (l.foldl Part.recorderChar p).lmu = p.lmu ∧ (l.foldl Part.recorderChar p).ext = p.ext ∧ (l.foldl Part.recorderChar p).rnc = p.rnc := by
  induction l generalizing p with
  | nil => exact ⟨rfl, rfl, rfl, rfl, rfl, rfl, rfl, rfl, rfl, rfl⟩
  | cons x xs ih => simp [ih]

@[simp] theorem Part.recorderFrame_frame (l : List LineChar) :
    (p.recorderFrame l).time = p.time ∧ (p.recorderFrame l).resetHeld = p.resetHeld ∧ (p.recorderFrame l).hlu = p.hlu ∧ (p.recorderFrame l).shu = p.shu ∧ (p.recorderFrame l).odu = p.odu ∧ (p.recorderFrame l).pfu = p.pfu ∧ (p.recorderFrame l).tru = p.tru ∧ (p.recorderFrame l).lmu = p.lmu ∧ (p.recorderFrame l).ext = p.ext ∧ (p.recorderFrame l).rnc = p.rnc := by
  unfold Part.recorderFrame
  refine ⟨?_, ?_, ?_, ?_, ?_, ?_, ?_, ?_, ?_, ?_⟩ <;> (try dsimp only) <;> (repeat' split) <;> simp

@[simp] theorem Part.arbiterEvent_frame :
    (p.arbiterEvent).time = p.time ∧ (p.arbiterEvent).resetHeld = p.resetHeld ∧ (p.arbiterEvent).hlu = p.hlu ∧ (p.arbiterEvent).shu = p.shu ∧ (p.arbiterEvent).odu = p.odu ∧ (p.arbiterEvent).pfu = p.pfu ∧ (p.arbiterEvent).tru = p.tru ∧ (p.arbiterEvent).lmu = p.lmu ∧ (p.arbiterEvent).ext = p.ext ∧ (p.arbiterEvent).rnc = p.rnc ∧ (p.arbiterEvent).oru = p.oru := by
  unfold Part.arbiterEvent
  refine ⟨?_, ?_, ?_, ?_, ?_, ?_, ?_, ?_, ?_, ?_, ?_⟩ <;> (try dsimp only) <;> (repeat' split) <;> simp

@[simp] theorem Part.leaveQueue_frame (q : QueueId) :
    (p.leaveQueue q).time = p.time ∧ (p.leaveQueue q).resetHeld = p.resetHeld ∧ (p.leaveQueue q).hlu = p.hlu ∧ (p.leaveQueue q).shu = p.shu ∧ (p.leaveQueue q).odu = p.odu ∧ (p.leaveQueue q).pfu = p.pfu ∧ (p.leaveQueue q).tru = p.tru ∧ (p.leaveQueue q).lmu = p.lmu ∧ (p.leaveQueue q).rnc = p.rnc ∧ (p.leaveQueue q).oru = p.oru := by
  unfold Part.leaveQueue
  refine ⟨?_, ?_, ?_, ?_, ?_, ?_, ?_, ?_, ?_, ?_⟩ <;> (try dsimp only) <;> (repeat' split) <;> simp

@[simp] theorem Part.leavingEvent_frame :
    (p.leavingEvent).time = p.time ∧ (p.leavingEvent).resetHeld = p.resetHeld ∧ (p.leavingEvent).hlu = p.hlu ∧ (p.leavingEvent).shu = p.shu ∧ (p.leavingEvent).odu = p.odu ∧ (p.leavingEvent).pfu = p.pfu ∧ (p.leavingEvent).tru = p.tru ∧ (p.leavingEvent).lmu = p.lmu ∧ (p.leavingEvent).rnc = p.rnc ∧ (p.leavingEvent).oru = p.oru := by
  unfold Part.leavingEvent
  refine ⟨?_, ?_, ?_, ?_, ?_, ?_, ?_, ?_, ?_, ?_⟩ <;> (try dsimp only) <;> (repeat' split) <;> simp

@[simp] theorem Part.leavingWith_frame (b : Bool) :
    (p.leavingWith b).time = p.time ∧ (p.leavingWith b).resetHeld = p.resetHeld ∧ (p.leavingWith b).hlu = p.hlu ∧ (p.leavingWith b).shu = p.shu ∧ (p.leavingWith b).odu = p.odu ∧ (p.leavingWith b).pfu = p.pfu ∧ (p.leavingWith b).tru = p.tru ∧ (p.leavingWith b).lmu = p.lmu ∧ (p.leavingWith b).rnc = p.rnc ∧ (p.leavingWith b).oru = p.oru := by
  unfold Part.leavingWith
  refine ⟨?_, ?_, ?_, ?_, ?_, ?_, ?_, ?_, ?_, ?_⟩ <;> (try dsimp only) <;> (repeat' split) <;> simp

end Sys2Proof.Machine
end

