-- ==== Sys2Proof/Laws/Steps.lean ====
section
/-! SUPPORT. What a step can do, said once: every command answers a next state with the waiting commands untouched, and how an order row is carried out. -/

namespace Sys2Proof.Machine

/-- A command's effect on a part that is not held in hard reset. -/
theorem live_next (s : State) (f : Part → Part) (h : s.part.resetHeld = false) :
    live s f = .next { s with part := (f s.part).moveOwed } := by
  simp [live, unheld, h]

/-- A command's effect on a part that is held in hard reset: none. -/
theorem live_held (s : State) (f : Part → Part) (h : s.part.resetHeld = true) : live s f = .next s := by
  simp [live, unheld, h]

/-- A live command answers a next state and leaves the waiting commands. -/
theorem live_total (s : State) (f : Part → Part) : ∃ t, live s f = .next t ∧ t.pending = s.pending := by
  unfold live unheld
  split
  · exact ⟨s, rfl, rfl⟩
  · exact ⟨_, rfl, rfl⟩

/-- A step takes the command at the front of the queue. -/
theorem step_cons (s : State) (c : Instr) (rest : List Instr) (h : s.pending = c :: rest) :
    step s = exec c { s with pending := rest } := by
  unfold step
  rw [h]

/-- A step on an empty queue idles. -/
theorem step_nil (s : State) (h : s.pending = []) : step s = idle s := by
  unfold step
  rw [h]

/-- An order row where the order at the head of the buffer is another, or none, or cannot be taken. -/
theorem Part.orderRow_none (p : Part) (code : Nat) (sel : List Byte → Bool) (carry : Part → List Byte → Part)
    (h : p.readyOrder = none) : p.orderRow code sel carry = p := by
  simp [Part.orderRow, h]

/-- The order row of the order at the head of the buffer. -/
theorem Part.orderRow_ready (p : Part) (code : Nat) (sel : List Byte → Bool) (carry : Part → List Byte → Part)
    (body : List Byte) (rest : List (List Byte)) (hb : p.oru.buffer = body :: rest)
    (ha : p.rlu.admitsNonUrgent = true) (hc : (orderCode body).toNat = code)
    (hs : sel (orderParams body) = true) (hl : lengthOk body = true) :
    p.orderRow code sel carry = carry p.taken body := by
  simp [Part.orderRow, Part.readyOrder, hb, ha, hc, hs, Part.carryOut, hl]

/-- The answered row of the order at the head of the buffer. -/
theorem Part.answeredRow_ready (p : Part) (code : Nat) (owner : Part → List Byte → Answer)
    (body : List Byte) (rest : List (List Byte)) (hb : p.oru.buffer = body :: rest)
    (ha : p.rlu.admitsNonUrgent = true) (hc : (orderCode body).toNat = code) (hl : lengthOk body = true) :
    p.answeredRow code owner = answered owner p.taken body :=
  p.orderRow_ready code _ _ body rest hb ha hc rfl hl

end Sys2Proof.Machine
end

