-- ==== Sys2Proof/Laws/Owed.lean ====
section
/-! SUPPORT. The moving of owed urgent notices into free control entries, in the vocabulary of the statements, and the end of every command that makes it (R148). -/

namespace Sys2Proof.Machine

/-- One owed notice moved into the control queue (R148). -/
theorem Part.sendOwed_eq (p : Part) (x : Owed) (xs : List Owed) :
    ((p.withExt { p.ext with owed := xs }).markOwed x.owner false).sendUrgent x.owner x.notice =
      Part.bumpBy { p with
        rlu := { p.rlu with control := p.rlu.control ++ [.urgent x.notice] }
        ext := { p.ext with
          owed := xs
          slots := Vector.ofFn (fun n =>
            if x.owner = .slot n then ⟨(p.ext.slots[n]).hold.markUrgentSent, false⟩ else p.ext.slots[n])
          latches := Vector.ofFn (fun k =>
            if x.owner = .latch k then { p.ext.latches[k] with urgentOwed := false } else p.ext.latches[k]) } }
        .urgentSent 1 := by
  obtain ⟨o, u⟩ := x
  cases o with
  | slot n =>
    have hs : vmodify (vmodify p.ext.slots n (fun x => { x with urgentOwed := false })) n
        (fun x => { x with hold := x.hold.markUrgentSent }) =
        Vector.ofFn (fun m => if n = m then ⟨(p.ext.slots[m]).hold.markUrgentSent, false⟩ else p.ext.slots[m]) := by
      apply Vector.ext; intro i hi
      have e1 := vmodify_get (vmodify p.ext.slots n (fun x => { x with urgentOwed := false })) n ⟨i, hi⟩
        (fun x => { x with hold := x.hold.markUrgentSent })
      have e2 := vmodify_get p.ext.slots n ⟨i, hi⟩ (fun x => { x with urgentOwed := false })
      simp only [Fin.getElem_fin] at e1 e2 ⊢
      rw [e1, e2, Vector.getElem_ofFn]
      by_cases h : n = ⟨i, hi⟩ <;> simp [h]
    have hl : p.ext.latches = Vector.ofFn (fun k => p.ext.latches[k]) := by
      apply Vector.ext; intro i hi; simp
    simp only [Part.withExt, Part.markOwed, Part.sendUrgent, Part.markSent, Part.withRlu, Rlu.placeControl, Part.bump,
      Part.bumpBy, Part.withEvu, Owner.slot.injEq, reduceCtorEq, if_false]
    rw [hs, ← hl]
  | latch k =>
    have hl : vmodify p.ext.latches k (fun x => { x with urgentOwed := false }) =
        Vector.ofFn (fun m => if k = m then { p.ext.latches[m] with urgentOwed := false } else p.ext.latches[m]) := by
      apply Vector.ext; intro i hi
      have e2 := vmodify_get p.ext.latches k ⟨i, hi⟩ (fun x => { x with urgentOwed := false })
      simp only [Fin.getElem_fin] at e2 ⊢
      rw [e2, Vector.getElem_ofFn]
    have hs : p.ext.slots = Vector.ofFn (fun k => p.ext.slots[k]) := by
      apply Vector.ext; intro i hi; simp
    simp only [Part.withExt, Part.markOwed, Part.onLatch, Part.sendUrgent, Part.markSent, Part.withRlu, Rlu.placeControl,
      Part.bump, Part.bumpBy, Part.withEvu, Owner.latch.injEq, reduceCtorEq, if_false]
    rw [hl, ← hs]

/-- URGENT_SENT set twice is URGENT_SENT set once. -/
theorem SlotHold.markUrgentSent_twice (h : SlotHold) : h.markUrgentSent.markUrgentSent = h.markUrgentSent := by
  cases h <;> rfl

/-- The moving of a list of owed notices, oldest first, in plain values (R148). -/
theorem Part.moveOwedList_eq (l : List Owed) : ∀ p : Part, p.ext.owed = l → p.moveOwedList l = p.owedMoved := by
  induction l with
  | nil => intro p h; simp [Part.moveOwedList, Part.owedMoved, h]
  | cons x xs ih =>
    intro p h
    unfold Part.moveOwedList
    by_cases hf : 1 ≤ p.rlu.freeEntries
    · obtain ⟨n, hn⟩ : ∃ n, 16 - (p.rlu.control.length + p.rlu.reservations) = n + 1 :=
        ⟨16 - (p.rlu.control.length + p.rlu.reservations) - 1, by
          simp only [Rlu.freeEntries, Config.controlCapacity] at hf; omega⟩
      rw [if_pos hf, Part.sendOwed_eq, ih _ rfl]
      have hn' : 16 - ((p.rlu.control ++ [ControlFrame.urgent x.notice]).length + p.rlu.reservations) = n := by
        rw [List.length_append, List.length_singleton]; omega
      unfold Part.owedMoved
      simp only [hn, h, Part.bumpBy, Part.withEvu, hn', List.take_succ_cons, List.drop_succ_cons, reduceCtorEq, if_false]
      by_cases hm : xs.take n = []
      · rcases List.take_eq_nil_iff.1 hm with hz | hz <;> simp [hz]
      · simp only [hm, if_false, List.mem_cons, exists_eq_or_imp, List.map_cons, List.length_cons, Vector.getElem_ofFn,
          Fin.getElem_fin, List.append_assoc, List.singleton_append, vmodify, Vector.set_set, Vector.getElem_set_self,
          counterUp_add]
        have hs : ∀ m : SlotNo, (if ∃ y ∈ xs.take n, y.owner = .slot m then
              (⟨(if x.owner = .slot m then ⟨p.ext.slots[m.val].hold.markUrgentSent, false⟩
                else p.ext.slots[m.val] : Slot).hold.markUrgentSent, false⟩ : Slot)
            else if x.owner = .slot m then ⟨p.ext.slots[m.val].hold.markUrgentSent, false⟩ else p.ext.slots[m.val]) =
            if x.owner = .slot m ∨ ∃ y ∈ xs.take n, y.owner = .slot m then
              ⟨p.ext.slots[m.val].hold.markUrgentSent, false⟩ else p.ext.slots[m.val] := by
          intro m
          by_cases h1 : x.owner = .slot m <;> by_cases h2 : ∃ y ∈ xs.take n, y.owner = .slot m <;>
            simp [h1, h2, SlotHold.markUrgentSent_twice]
        have hl : ∀ k : Pair, (if ∃ y ∈ xs.take n, y.owner = .latch k then
              { (if x.owner = .latch k then { p.ext.latches[k.val] with urgentOwed := false }
                else p.ext.latches[k.val] : Latch) with urgentOwed := false }
            else if x.owner = .latch k then { p.ext.latches[k.val] with urgentOwed := false } else p.ext.latches[k.val]) =
            if x.owner = .latch k ∨ ∃ y ∈ xs.take n, y.owner = .latch k then
              { p.ext.latches[k.val] with urgentOwed := false } else p.ext.latches[k.val] := by
          intro k
          by_cases h1 : x.owner = .latch k <;> by_cases h2 : ∃ y ∈ xs.take n, y.owner = .latch k <;> simp [h1, h2]
        simp only [hs, hl]
    · rw [if_neg hf]
      have : 16 - (p.rlu.control.length + p.rlu.reservations) = 0 := by
        simp only [Rlu.freeEntries, Config.controlCapacity] at hf; omega
      simp [Part.owedMoved, this]

/-- Owed notices moved into free control entries (R148). -/
theorem Part.moveOwed_eq (p : Part) : p.moveOwed = p.owedMoved := Part.moveOwedList_eq _ p rfl

/-- A command's effect on a part that is not held in hard reset, and the owed notices that then move (R148). -/
theorem live_nextWith (s : State) (f : Part → Part) (h : s.part.resetHeld = false) : live s f = nextWith s (f s.part) := by
  rw [live_next s f h, Part.moveOwed_eq]; rfl

end Sys2Proof.Machine
end

