-- ==== Sys2Proof/Laws/Orders.lean ====
section
/-! SUPPORT. What the taking of an order and the list and table writes can do, said once: a ready order row, the reply, and the rows, entries, route entries and sections taken up to the first that fails. -/

namespace Sys2Proof.Machine

/-! ## Taking -/

/-- The room of R171 admits a reservation. -/
theorem Rlu.admits_iff (r : Rlu) :
    r.admitsNonUrgent = true ↔ r.nonUrgent + r.reservations ≤ 11 ∧ r.control.length + r.reservations < 16 := by
  unfold Rlu.admitsNonUrgent Rlu.freeEntries Config.nonUrgentMark Config.controlCapacity
  rw [Bool.and_eq_true, decide_eq_true_iff, decide_eq_true_iff]
  omega

/-- An order row whose order is ready is carried out after the taking (R179, R180). -/
theorem orderRow_of_ready (s : State) (code : Nat) (sel : List Byte → Bool) (carry : Part → List Byte → Part)
    (body : List Byte) (h : s.part.Ready code body) (hs : sel (orderParams body) = true) :
    live s (Part.orderRow code sel carry) = nextWith s (carry s.part.taken body) := by
  obtain ⟨h1, h2, h3, h4, h5, h6⟩ := h
  obtain ⟨rest, hb⟩ : ∃ rest, s.part.oru.buffer = body :: rest := by
    cases hh : s.part.oru.buffer with
    | nil => simp [hh] at h2
    | cons a l =>
      simp only [hh, List.head?_cons, Option.some.injEq] at h2
      exact ⟨l, by rw [h2]⟩
  rw [live_nextWith _ _ h1, s.part.orderRow_ready code sel carry body rest hb ((Rlu.admits_iff _).2 ⟨h5, h6⟩) h3 hs h4]

/-- An answered row whose order is ready (R179 to R181). -/
theorem answeredRow_of_ready (s : State) (code : Nat) (owner : Part → List Byte → Answer) (body : List Byte)
    (h : s.part.Ready code body) :
    live s (Part.answeredRow code owner) = nextWith s (answered owner s.part.taken body) :=
  orderRow_of_ready s code _ _ body h rfl

/-- A reply that fills the reservation of a taking whose owner changed nothing (R181). -/
theorem taken_answered (p : Part) (body : List Byte) (r : Result) (data : List Byte) :
    (p.taken).fillReservation (replyTo body r data) = p.afterOrder body r data := rfl

/-- An order row waits while no reservation can be made for the head order (R179). -/
theorem readyOrder_none (p : Part) (h : ¬ (p.rlu.nonUrgent + p.rlu.reservations ≤ 11 ∧
    p.rlu.control.length + p.rlu.reservations < 16)) : p.readyOrder = none := by
  unfold Part.readyOrder
  have : p.rlu.admitsNonUrgent = false := by
    rw [Bool.eq_false_iff]
    exact fun hh => h ((Rlu.admits_iff _).1 hh)
  cases p.oru.buffer <;> simp [this]

/-! ## Lists (R60, R107) -/

/-- Route entries join at the tail, in order, and the result is DONE exactly when all are taken (R60). -/
theorem takeRoutes_spec (dir : Direction) (set : Bool) (d : Int) (rs : List RawRoute) (xs : List RouteEntry) :
    xs <+: (takeRoutes dir set d rs xs).1 ∧
    (takeRoutes dir set d rs xs).1.length = xs.length + (takeRoutes dir set d rs xs).2.1 ∧
    (takeRoutes dir set d rs xs).2.1 ≤ rs.length ∧
    ((takeRoutes dir set d rs xs).2.2 = .done ↔ (takeRoutes dir set d rs xs).2.1 = rs.length) ∧
    (xs.length ≤ 128 → (takeRoutes dir set d rs xs).1.length ≤ 128) := by
  induction rs generalizing xs with
  | nil => simp [takeRoutes]
  | cons r rs ih =>
    unfold takeRoutes
    split
    · simp
    · rename_i k _
      split
      · simp
      · rename_i hc
        split
        · simp
        · obtain ⟨h1, h2, h3, h4, h5⟩ := ih (xs ++ [⟨r.distance, k⟩])
          refine ⟨(List.prefix_append _ _).trans h1, ?_, ?_, ?_, ?_⟩
          · refine h2.trans ?_
            rw [List.length_append]
            exact Nat.add_right_comm _ _ _
          · exact Nat.succ_le_succ h3
          · exact h4.trans Nat.succ_inj.symm
          · intro _
            refine h5 ?_
            simp only [Config.routeCapacity] at hc
            simp; omega

/-- Sections join at the tail, in order, and the result is DONE exactly when all are taken (R107). -/
theorem takeSections_spec (dir : Direction) (set : Bool) (d : Int) (rs : List RawSection) (xs : List TrackSection) :
    xs <+: (takeSections dir set d rs xs).1 ∧
    (takeSections dir set d rs xs).1.length = xs.length + (takeSections dir set d rs xs).2.1 ∧
    (takeSections dir set d rs xs).2.1 ≤ rs.length ∧
    ((takeSections dir set d rs xs).2.2 = .done ↔ (takeSections dir set d rs xs).2.1 = rs.length) ∧
    (xs.length ≤ 64 → (takeSections dir set d rs xs).1.length ≤ 64) := by
  induction rs generalizing xs with
  | nil => simp [takeSections]
  | cons r rs ih =>
    unfold takeSections
    have hne : ∀ e, sectionRefusal dir set d xs r = some e → e ≠ .done := by
      intro e he
      unfold sectionRefusal at he
      split at he
      · cases he; simp
      · split at he
        · cases he; simp
        · split at he <;> split at he <;> cases he <;> simp
    split
    · rename_i e he
      simp [hne e he]
    · rename_i he
      obtain ⟨h1, h2, h3, h4, h5⟩ := ih (xs ++ [r.taken])
      refine ⟨(List.prefix_append _ _).trans h1, ?_, ?_, ?_, ?_⟩
      · refine h2.trans ?_
        rw [List.length_append]
        exact Nat.add_right_comm _ _ _
      · exact Nat.succ_le_succ h3
      · exact h4.trans Nat.succ_inj.symm
      · intro _
        refine h5 ?_
        have hc : ¬ Config.sectionCapacity ≤ xs.length := by
          intro hc
          unfold sectionRefusal at he
          split at he
          · cases he
          · cases he
        simp only [Config.sectionCapacity] at hc
        simp; omega

/-! ## Tables (R37, R119) -/

/-- How many items stand in front of the first that fails `ok` or lies past `last`. -/
def leading {α : Type} (ok : α → Bool) (last a : Nat) (l : List α) : Nat :=
  ((l.zipIdx a).takeWhile (fun x => ok x.1 && decide (x.2 ≤ last))).length

theorem leading_nil {α : Type} (ok : α → Bool) (last a : Nat) : leading ok last a [] = 0 := rfl

theorem leading_cons {α : Type} (ok : α → Bool) (last a : Nat) (x : α) (l : List α) :
    leading ok last a (x :: l) = if ok x = true ∧ a ≤ last then leading ok last (a + 1) l + 1 else 0 := by
  unfold leading
  simp only [List.zipIdx_cons, List.takeWhile_cons]
  by_cases h : ok x = true ∧ a ≤ last
  · simp [h]
  · have : (ok x && decide (a ≤ last)) = false := by
      rw [Bool.eq_false_iff]
      simpa using h
    simp [this, h]

theorem leading_le {α : Type} (ok : α → Bool) (last a : Nat) (l : List α) : leading ok last a l ≤ l.length := by
  induction l generalizing a with
  | nil => simp [leading]
  | cons x l ih =>
    rw [leading_cons]
    split
    · have := ih (a + 1); simp; omega
    · simp

/-- A table after an entry of it has been written and then a run of later entries. -/
theorem written_step {α : Type} {m : Nat} (t t1 : Vector α m) (a n : Nat) (ha : a < m) (x : α) (xs : List (Option α))
    (h : ∀ i : Fin m, some t1[i] =
      if a + 1 ≤ i.val ∧ i.val < a + 1 + n then (xs[i.val - (a + 1)]?).join
      else some (vmodify t ⟨a, ha⟩ (fun _ => x))[i]) :
    ∀ i : Fin m, some t1[i] =
      if a ≤ i.val ∧ i.val < a + (n + 1) then ((some x :: xs)[i.val - a]?).join else some t[i] := by
  intro i
  rw [h i, vmodify_get]
  by_cases hi : i.val = a
  · have e1 : (⟨a, ha⟩ : Fin m) = i := Fin.ext hi.symm
    rw [if_neg (by omega), if_pos e1, if_pos (by omega), hi]
    simp
  · have e1 : (⟨a, ha⟩ : Fin m) ≠ i := fun e => hi (by rw [← e])
    rw [if_neg e1]
    by_cases h2 : a + 1 ≤ i.val ∧ i.val < a + 1 + n
    · have : i.val - a = (i.val - (a + 1)) + 1 := by omega
      rw [if_pos h2, if_pos (by omega), this, List.getElem?_cons_succ]
    · rw [if_neg h2, if_neg (by omega)]

theorem writeRows_cons (a : Nat) (r : RawRow) (rs : List RawRow) (t : Vector LimitRow 64) :
    writeRows a (r :: rs) t =
      if h : a < 64 then
        if r.row.valid then
          ((writeRows (a + 1) rs (vmodify t ⟨a, h⟩ (fun _ => r.row))).1,
            (writeRows (a + 1) rs (vmodify t ⟨a, h⟩ (fun _ => r.row))).2.1 + 1,
            (writeRows (a + 1) rs (vmodify t ⟨a, h⟩ (fun _ => r.row))).2.2)
        else (t, 0, .badValue)
      else (t, 0, .badValue) := rfl

/-- Rows are written whole from the start address up to the first that is invalid or past address 63 (R119). -/
theorem writeRows_spec (a : Nat) (rs : List RawRow) (t : Vector LimitRow 64) :
    (writeRows a rs t).2.1 = leading LimitRow.valid 63 a (rs.map RawRow.row) ∧
    (writeRows a rs t).2.2 = (if (writeRows a rs t).2.1 = rs.length then .done else .badValue) ∧
    ∀ i : Fin 64, some (writeRows a rs t).1[i] =
      if a ≤ i.val ∧ i.val < a + (writeRows a rs t).2.1 then (((rs.map RawRow.row).map some)[i.val - a]?).join
      else some t[i] := by
  induction rs generalizing a t with
  | nil =>
    refine ⟨rfl, rfl, fun i => ?_⟩
    rw [if_neg (by simp [writeRows])]
    rfl
  | cons r rs ih =>
    simp only [List.map_cons, leading_cons]
    have e := writeRows_cons a r rs t
    generalize writeRows a (r :: rs) t = w at e ⊢
    by_cases hc : r.row.valid = true ∧ a ≤ 63
    · rw [dif_pos (show a < 64 by omega), if_pos hc.1] at e
      subst e
      obtain ⟨h1, h2, h3⟩ := ih (a + 1) (vmodify t ⟨a, by omega⟩ (fun _ => r.row))
      refine ⟨?_, ?_, ?_⟩
      · rw [if_pos hc]
        exact congrArg (· + 1) h1
      · simp only [List.length_cons, Nat.add_right_cancel_iff]
        exact h2
      · exact written_step t _ a _ (by omega) r.row _ h3
    · have e2 : w = (t, 0, .badValue) := by
        rw [e]
        split
        · rw [if_neg (fun hv => hc ⟨hv, by omega⟩)]
        · rfl
      subst e2
      refine ⟨?_, ?_, fun i => ?_⟩
      · rw [if_neg hc]
      · simp
      · rw [if_neg (by simp)]

theorem writeEntries_cons (a : Nat) (e : RawEntry) (es : List RawEntry) (t : Vector (Option MapEntry) 7) :
    writeEntries a (e :: es) t =
      if h : a < 7 then
        match e.checked with
        | some x =>
          ((writeEntries (a + 1) es (vmodify t ⟨a, h⟩ (fun _ => x))).1,
            (writeEntries (a + 1) es (vmodify t ⟨a, h⟩ (fun _ => x))).2.1 + 1,
            (writeEntries (a + 1) es (vmodify t ⟨a, h⟩ (fun _ => x))).2.2)
        | none => (t, 0, .badValue)
      else (t, 0, .badValue) := rfl

/-- Map entries are written whole from the start index up to the first that is refused or past index 6 (R37). -/
theorem writeEntries_spec (a : Nat) (es : List RawEntry) (t : Vector (Option MapEntry) 7) :
    (writeEntries a es t).2.1 = leading Option.isSome 6 a (es.map RawEntry.checked) ∧
    (writeEntries a es t).2.2 = (if (writeEntries a es t).2.1 = es.length then .done else .badValue) ∧
    ∀ i : Fin 7, some (writeEntries a es t).1[i] =
      if a ≤ i.val ∧ i.val < a + (writeEntries a es t).2.1 then ((es.map RawEntry.checked)[i.val - a]?).join
      else some t[i] := by
  induction es generalizing a t with
  | nil =>
    refine ⟨rfl, rfl, fun i => ?_⟩
    rw [if_neg (by simp [writeEntries])]
    rfl
  | cons r rs ih =>
    simp only [List.map_cons, leading_cons]
    have e := writeEntries_cons a r rs t
    generalize writeEntries a (r :: rs) t = w at e ⊢
    by_cases hc : r.checked.isSome = true ∧ a ≤ 6
    · obtain ⟨x, hx⟩ := Option.isSome_iff_exists.1 hc.1
      rw [dif_pos (show a < 7 by omega), hx] at e
      subst e
      obtain ⟨h1, h2, h3⟩ := ih (a + 1) (vmodify t ⟨a, by omega⟩ (fun _ => x))
      refine ⟨?_, ?_, ?_⟩
      · rw [if_pos hc]
        exact congrArg (· + 1) h1
      · simp only [List.length_cons, Nat.add_right_cancel_iff]
        exact h2
      · rw [hx]
        exact written_step t _ a _ (by omega) x _ h3
    · have e2 : w = (t, 0, .badValue) := by
        rw [e]
        split
        · cases hx : r.checked with
          | some x => exact absurd ⟨by rw [hx]; rfl, by omega⟩ hc
          | none => rfl
        · rfl
      subst e2
      refine ⟨?_, ?_, fun i => ?_⟩
      · rw [if_neg hc]
      · simp
      · rw [if_neg (by simp)]

/-! ## The bytes of the list and table orders (R180, R197) -/

/-- The entries of a list order, one after another. -/
theorem pieces_eq (k n : Nat) (bs : List Byte) : pieces k n bs = (List.range n).map (fun i => (bs.drop (k * i)).take k) := by
  induction n generalizing bs with
  | zero => rfl
  | succ n ih =>
    rw [pieces, ih, List.range_succ_eq_map, List.map_cons, List.map_map]
    simp [Function.comp_def, Nat.mul_succ, Nat.add_comm]

/-- The length read from a source's mark is the length of the source (R197). -/
theorem sourceLength_marked (x rest : List Byte) (h : MarkedSource x) : sourceLength (x ++ rest) = some x.length := by
  obtain ⟨m, f, rfl, hf⟩ := h
  simp only [List.cons_append, sourceLength, List.length_cons, hf]
  by_cases hm : m = 0#8 <;> simp [hm]

/-- A source is read from its own bytes alone. -/
theorem rawSource_marked (x rest : List Byte) (h : MarkedSource x) : rawSource (x ++ rest) = rawSource x := by
  obtain ⟨m, f, rfl, hf⟩ := h
  by_cases hm : m = 0
  · subst hm; simp [rawSource]
  · simp only [hm, if_false] at hf
    match f, hf with
    | [a, b, c, d, e, g], _ => simp [rawSource, fieldNat, fieldInt]

/-- The entries of a WRITE INPUT MAP are read source by source (R36, R197). -/
theorem rawEntries_marked : ∀ (entries : List (List Byte × List Byte)) (rest : List Byte),
      (∀ x ∈ entries, MarkedSource x.1 ∧ MarkedSource x.2) →
      rawEntries entries.length (entries.flatMap (fun x => x.1 ++ x.2) ++ rest) =
        entries.map (fun x => ⟨rawSource x.1, rawSource x.2⟩)
  | [], _, _ => rfl
  | x :: l, rest, h => by
    have hx := h x (by simp)
    have ih := rawEntries_marked l rest (fun y hy => h y (by simp [hy]))
    simp only [List.flatMap_cons, List.length_cons, rawEntries, List.map_cons, List.append_assoc]
    rw [sourceLength_marked _ _ hx.1, rawSource_marked _ _ hx.1]
    simp only [Option.getD_some, List.drop_left]
    rw [sourceLength_marked _ _ hx.2, rawSource_marked _ _ hx.2]
    simp only [Option.getD_some]
    rw [← List.length_append, ← List.append_assoc, List.drop_left, ih]

/-- The length that `n` entries must have is the length of the bytes exactly where these are `2 n` sources (R180, R197). -/
theorem mapEntriesLength_marked : ∀ (n : Nat) (bs : List Byte),
    mapEntriesLength n bs = some bs.length ↔ ∃ sources : List (List Byte), bs = sources.flatten ∧ sources.length = 2 * n ∧
      ∀ x ∈ sources, MarkedSource x
  | 0, bs => by
    constructor
    · intro h
      simp [mapEntriesLength] at h
      exact ⟨[], by simp; exact List.length_eq_zero_iff.1 h.symm, rfl, by simp⟩
    · rintro ⟨l, rfl, hl, _⟩
      have : l = [] := List.length_eq_zero_iff.1 hl
      subst this; rfl
  | n + 1, bs => by
    constructor
    · intro h
      have take : ∀ (bs : List Byte) k, sourceLength bs = some k → k ≤ bs.length → MarkedSource (bs.take k) := by
        intro bs k hk hle
        cases bs with
        | nil => simp [sourceLength] at hk
        | cons m t =>
          simp only [sourceLength, Option.some.injEq] at hk
          by_cases hm : m = 0#8
          · simp [hm] at hk; subst hk; exact ⟨m, [], by simp, by simp [hm]⟩
          · simp [hm] at hk; subst hk
            refine ⟨m, t.take 6, by simp, ?_⟩
            simp at hle
            simp [hm]; omega
      unfold mapEntriesLength at h
      cases h1 : sourceLength bs with
      | none => simp [h1] at h
      | some k1 =>
        simp only [h1] at h
        cases h2 : sourceLength (bs.drop k1) with
        | none => simp [h2] at h
        | some k2 =>
          simp only [h2] at h
          cases h3 : mapEntriesLength n (bs.drop (k1 + k2)) with
          | none => simp [h3] at h
          | some k =>
            simp only [h3, Option.some.injEq] at h
            have e : k = (bs.drop (k1 + k2)).length := by simp; omega
            rw [e] at h3
            obtain ⟨l, hl, hn, hm⟩ := (mapEntriesLength_marked n _).1 h3
            refine ⟨bs.take k1 :: (bs.drop k1).take k2 :: l, ?_, by simp [hn]; omega, ?_⟩
            · simp only [List.flatten_cons, ← hl]
              rw [← List.drop_drop, List.take_append_drop, List.take_append_drop]
            · intro x hx
              simp only [List.mem_cons] at hx
              rcases hx with rfl | rfl | hx
              · exact take _ _ h1 (by omega)
              · exact take _ _ h2 (by simp; omega)
              · exact hm x hx
    · rintro ⟨l, rfl, hl, hm⟩
      match l, hl with
      | a :: b :: l, hl =>
        have ih := (mapEntriesLength_marked n l.flatten).2 ⟨l, rfl, by simp at hl; omega, fun x hx => hm x (by simp [hx])⟩
        simp only [List.flatten_cons, mapEntriesLength]
        rw [sourceLength_marked _ _ (hm a (by simp))]
        simp only [List.drop_left]
        rw [sourceLength_marked _ _ (hm b (by simp))]
        simp only
        rw [← List.append_assoc, ← List.length_append, List.drop_left, ih]
        simp; omega

end Sys2Proof.Machine
end

