-- ==== Sys2Proof/Laws/Receivers.lean ====
section
/-! SUPPORT. A well-formed frame, taken character by character, comes to its judgement whole: the head link's and the recorder link's receivers on the characters of one frame. -/

namespace Sys2Proof.Machine

theorem Part.lockEvent_locked (p : Part) (h : p.hlu.locked = true) : p.lockEvent = p := by
  simp [Part.lockEvent, Part.lockDue, h]

/-- A character of a LOCKED link. -/
theorem Part.headChar_locked (p : Part) (c : LineChar) (h : p.hlu.locked = true) (hv : c ≠ .violation) :
    p.headChar c = p.charTaken c := by
  have : p.countViolation c = p := by cases c <;> simp_all [Part.countViolation]
  simp [Part.headChar, p.lockEvent_locked h, this]

/-- A FRAME START of a LOCKED link outside a frame opens one. -/
theorem Part.headChar_start (p : Part) (h : p.hlu.locked = true) (hr : ∀ b hd, p.hlu.rx ≠ .inFrame b hd) :
    p.headChar .frameStart = p.setRx (.inFrame [] none) := by
  rw [p.headChar_locked _ h (by simp)]
  unfold Part.charTaken
  rw [if_pos h]
  split
  · simp [Part.charOutside]
  · simp [Part.charOutside]
  · simp [Part.charPassing]
  · rename_i b hd e
    exact absurd e (hr b hd)

theorem Part.headChar_data (p : Part) (h : p.hlu.locked = true) (bytes : List Byte) (hd : Option Header) (b : Byte) :
    (p.setRx (.inFrame bytes hd)).headChar (.data b) = (p.setRx (.inFrame bytes hd)).frameData bytes hd b := by
  rw [Part.headChar_locked _ _ (by exact h) (by simp)]
  unfold Part.charTaken
  rw [if_pos (by exact h)]
  rfl

theorem Part.setRx_setRx (p : Part) (x y : HeadRx) : (p.setRx x).setRx y = p.setRx y := rfl

/-- An IDLE character inside a frame is passed over (R1). -/
theorem Part.headChar_idle (p : Part) (h : p.hlu.locked = true) (bytes : List Byte) (hd : Option Header) :
    (p.setRx (.inFrame bytes hd)).headChar .idle = p.setRx (.inFrame bytes hd) := by
  rw [Part.headChar_locked _ _ (by exact h) (by simp)]
  unfold Part.charTaken
  rw [if_pos (by exact h)]
  rfl

theorem dataBytes_data (b : Byte) (l : List LineChar) : dataBytes (.data b :: l) = b :: dataBytes l := rfl

theorem dataBytes_idle (l : List LineChar) : dataBytes (.idle :: l) = dataBytes l := rfl

theorem dataBytes_append (l m : List LineChar) : dataBytes (l ++ m) = dataBytes l ++ dataBytes m := by
  simp [dataBytes, List.filterMap_append]

/-- Data characters before the header is whole, with IDLE characters among them. -/
theorem Part.headChars_short (p : Part) (h : p.hlu.locked = true) (l : List LineChar) (bytes : List Byte)
    (hi : l.all LineChar.inside = true) (hl : bytes.length + (dataBytes l).length < 4) :
    l.foldl Part.headChar (p.setRx (.inFrame bytes none)) = p.setRx (.inFrame (bytes ++ dataBytes l) none) := by
  induction l generalizing bytes with
  | nil => simp [dataBytes]
  | cons c l ih =>
    simp only [List.all_cons, Bool.and_eq_true] at hi
    rw [List.foldl_cons]
    cases c with
    | idle => rw [p.headChar_idle h, dataBytes_idle, ih bytes hi.2 (by simpa [dataBytes_idle] using hl)]
    | data b =>
      rw [p.headChar_data h]
      simp only [dataBytes_data, List.length_cons] at hl
      have h4 : (bytes ++ [b]).length < 4 := by simp; omega
      unfold Part.frameData
      simp only [h4, if_true]
      rw [Part.setRx_setRx, ih (bytes ++ [b]) hi.2 (by simp; omega), dataBytes_data]
      simp
    | frameStart => simp [LineChar.inside] at hi
    | frameEnd => simp [LineChar.inside] at hi
    | violation => simp [LineChar.inside] at hi

/-- Data characters after the header, up to the implied length, with IDLE characters among them. -/
theorem Part.headChars_long (p : Part) (h : p.hlu.locked = true) (hd : Header) (l : List LineChar) (bytes : List Byte)
    (hi : l.all LineChar.inside = true) (hl : bytes.length + (dataBytes l).length ≤ hd.impliedLength) :
    l.foldl Part.headChar (p.setRx (.inFrame bytes (some hd))) =
      p.setRx (.inFrame (bytes ++ dataBytes l) (some hd)) := by
  induction l generalizing bytes with
  | nil => simp [dataBytes]
  | cons c l ih =>
    simp only [List.all_cons, Bool.and_eq_true] at hi
    rw [List.foldl_cons]
    cases c with
    | idle => rw [p.headChar_idle h, dataBytes_idle, ih bytes hi.2 (by simpa [dataBytes_idle] using hl)]
    | data b =>
      rw [p.headChar_data h]
      simp only [dataBytes_data, List.length_cons] at hl
      have h4 : ¬ hd.impliedLength < (bytes ++ [b]).length := by simp; omega
      unfold Part.frameData
      simp only [h4, if_false]
      rw [Part.setRx_setRx, ih (bytes ++ [b]) hi.2 (by simp; omega), dataBytes_data]
      simp
    | frameStart => simp [LineChar.inside] at hi
    | frameEnd => simp [LineChar.inside] at hi
    | violation => simp [LineChar.inside] at hi

/-- Characters with more than `n` data characters, cut at data character number `n`. -/
theorem split_at_data (l : List LineChar) (n : Nat) (h : n < (dataBytes l).length) :
    ∃ pre d post, l = pre ++ .data d :: post ∧ (dataBytes pre).length = n := by
  induction l generalizing n with
  | nil => simp [dataBytes] at h
  | cons c l ih =>
    cases c with
    | data b =>
      cases n with
      | zero => exact ⟨[], b, l, rfl, rfl⟩
      | succ n =>
        obtain ⟨pre, d, post, e, hn⟩ := ih n (by simp only [dataBytes_data, List.length_cons] at h; omega)
        exact ⟨.data b :: pre, d, post, by rw [e]; rfl, by simp [dataBytes_data, hn]⟩
    | idle =>
      obtain ⟨pre, d, post, e, hn⟩ := ih n h
      exact ⟨.idle :: pre, d, post, by rw [e]; rfl, hn⟩
    | frameStart =>
      obtain ⟨pre, d, post, e, hn⟩ := ih n h
      exact ⟨.frameStart :: pre, d, post, by rw [e]; rfl, hn⟩
    | frameEnd =>
      obtain ⟨pre, d, post, e, hn⟩ := ih n h
      exact ⟨.frameEnd :: pre, d, post, by rw [e]; rfl, hn⟩
    | violation =>
      obtain ⟨pre, d, post, e, hn⟩ := ih n h
      exact ⟨.violation :: pre, d, post, by rw [e]; rfl, hn⟩

/-- The part with a corrected header counted, where a bit was corrected (R6). -/
def Part.countCorrected (p : Part) (corrected : Bool) : Part :=
  if corrected then p.bump .correctedHeaders else p

/-- A frame whose header decodes and which is as long as its header implies is judged whole (R4 to R6). -/
theorem Part.headFrame_whole (p : Part) (chars : List LineChar) (bytes : List Byte) (hd : Header) (corrected : Bool)
    (h : p.TakesHeadFrame chars bytes hd corrected) :
    p.headFrame chars = ((p.countCorrected corrected).setRx .outside).judgeFrame bytes hd := by
  obtain ⟨_, hlock, hr, ⟨inner, rfl, hi, hb⟩, hw, hl⟩ := h
  have h6 : 6 ≤ bytes.length := by rw [hl]; unfold Header.impliedLength; omega
  obtain ⟨pre, d, post, e, h3⟩ := split_at_data inner 3 (by rw [hb]; omega)
  subst e
  simp only [List.all_append, List.all_cons, Bool.and_eq_true] at hi
  rw [dataBytes_append, dataBytes_data] at hb
  have hlk : (p.countCorrected corrected).hlu.locked = true := by
    unfold Part.countCorrected; split <;> simpa using hlock
  have h4 : bytes.take 4 = dataBytes pre ++ [d] := by
    rw [← hb]; simp [List.take_append, h3]
  have hword : headerWord (dataBytes pre ++ [d]) = headerWord bytes := by
    unfold headerWord
    rw [h4, List.take_of_length_le (by simp [h3])]
  have key : (p.setRx (.inFrame (dataBytes pre) none)).frameData (dataBytes pre) none d =
      (p.countCorrected corrected).setRx (.inFrame (dataBytes pre ++ [d]) (some hd)) := by
    unfold Part.frameData
    simp only [List.length_append, h3, List.length_cons, List.length_nil, hword, hw]
    cases corrected <;> rfl
  unfold Part.headFrame
  rw [List.foldl_cons, p.headChar_start hlock hr, List.append_assoc, List.foldl_append,
    p.headChars_short hlock pre [] hi.1 (by simp; omega), List.nil_append, List.cons_append, List.foldl_cons,
    p.headChar_data hlock, key, List.foldl_append,
    Part.headChars_long _ hlk hd post _ hi.2.2 (by rw [← hl, ← hb]; simp; omega)]
  have e2 : dataBytes pre ++ [d] ++ dataBytes post = bytes := by rw [← hb]; simp
  rw [e2]
  show ((p.countCorrected corrected).setRx (.inFrame bytes (some hd))).headChar .frameEnd = _
  rw [Part.headChar_locked _ _ (by exact hlk) (by simp)]
  unfold Part.charTaken
  rw [if_pos (by exact hlk)]
  show ((p.countCorrected corrected).setRx (.inFrame bytes (some hd))).frameEnd bytes (some hd) = _
  unfold Part.frameEnd
  simp only [hl, lt_irrefl, if_false]
  rfl

/-! ## The recorder link -/

/-- Going DOWN in plain values (R167). -/
theorem Part.goDown_eq (p : Part) : p.goDown = p.linkDowned := by
  unfold Part.goDown Part.linkDowned Part.cutTransmission
  cases h : p.rlu.tx <;> simp [h, Part.bump, Part.bumpBy, Part.withEvu, Part.withRlu]

/-- Going DOWN forgets the link error count and the receiver. -/
theorem Part.linkDowned_withErrors (p : Part) (n : Nat) (rx : Option (List Byte)) :
    (Part.linkDowned { p with rlu := { p.rlu with linkErrors := n, rx := rx } }) = p.linkDowned := by
  unfold Part.linkDowned
  by_cases h : p.rlu.tx = none <;> simp [h, Part.bump, Part.bumpBy, Part.withEvu]

/-- A link error of the recorder link (R166). -/
theorem Part.recorderError_eq (p : Part) : p.recorderError = p.linkErred p.rlu.rx := by
  unfold Part.recorderError Part.linkErred
  simp only
  by_cases h : min (p.rlu.linkErrors + 1) 63 < p.oru.settings.recorderErrorThreshold
  · rw [if_pos h, if_neg (by show ¬ _ ≤ _; omega)]; rfl
  · rw [if_neg h, if_pos (by show _ ≤ _; omega), Part.goDown_eq]
    exact Part.linkDowned_withErrors p _ p.rlu.rx

/-- A link error overwrites the receiver. -/
theorem Part.linkErred_setInbound (p : Part) (x y : Option (List Byte)) : (p.setInbound x).linkErred y = p.linkErred y := by
  unfold Part.linkErred Part.setInbound
  simp only [Part.withRlu]
  by_cases h : min (p.rlu.linkErrors + 1) 63 < p.oru.settings.recorderErrorThreshold
  · simp only [h, if_true]
  · simp only [h, if_false]
    exact Part.linkDowned_withErrors p p.rlu.linkErrors x

/-- A check failure of an inbound frame (R168). -/
theorem Part.checkFailure_eq (p : Part) : p.checkFailure = (p.bump .checkFailures).linkErred none := by
  unfold Part.checkFailure
  rw [Part.recorderError_eq]
  exact Part.linkErred_setInbound (p.bump .checkFailures) none none


/-- The receiver written after a link error that has left the link UP. -/
theorem Part.linkErred_up (p : Part) (x : Option (List Byte)) (h : p.rlu.link = .up) :
    (if (p.linkErred none).rlu.link = .up then (p.linkErred none).setInbound x else p.linkErred none) = p.linkErred x := by
  unfold Part.linkErred
  by_cases h1 : min (p.rlu.linkErrors + 1) 63 < p.oru.settings.recorderErrorThreshold
  · simp only [h1, if_true]
    rw [if_pos (by exact h)]; rfl
  · simp only [h1, if_false]
    rw [if_neg]
    unfold Part.linkDowned; simp

theorem Part.linkUpEvent_up (p : Part) (h : p.rlu.link = .up) : p.linkUpEvent = p := by
  simp [Part.linkUpEvent, Part.linkUpDue, h]

/-- A character of a link that is UP. -/
theorem Part.recorderChar_up (p : Part) (c : LineChar) (h : p.rlu.link = .up) (hv : c ≠ .violation) :
    p.recorderChar c = p.charUp c := by
  have : p.countRecorderViolation c = p := by cases c <;> simp_all [Part.countRecorderViolation]
  simp [Part.recorderChar, p.linkUpEvent_up h, this, Part.recorderTaken, h]

theorem Part.setInbound_twice (p : Part) (x y : Option (List Byte)) : (p.setInbound x).setInbound y = p.setInbound y := rfl

/-- IDLE characters in UP leave the receiver's place. -/
theorem Part.tallyIdle_inbound (p : Part) (x : Option (List Byte)) :
    (p.setInbound x).tallyIdle = p.tallyIdle.setInbound x := by
  show (if p.rlu.idleTally = 255 then _ else _) = _
  unfold Part.tallyIdle
  by_cases h : p.rlu.idleTally = 255
  · rw [if_pos h, if_pos h]; rfl
  · rw [if_neg h, if_neg h]; rfl

@[simp] theorem Part.tallyIdle_link (p : Part) : p.tallyIdle.rlu.link = p.rlu.link ∧ p.tallyIdle.rlu.rx = p.rlu.rx := by
  unfold Part.tallyIdle
  split <;> exact ⟨rfl, rfl⟩

/-- Data characters of an inbound frame while its length allows them, with IDLE characters among them. -/
theorem Part.recorderChars (p : Part) (h : p.rlu.link = .up) (l : List LineChar) (bytes : List Byte)
    (hi : l.all LineChar.inside = true)
    (hl : ∀ k, k < (dataBytes l).length → inboundTooLong (bytes ++ (dataBytes l).take (k + 1)) = false) :
    l.foldl Part.recorderChar (p.setInbound (some bytes)) =
      (p.afterIdles (idlesIn l)).setInbound (some (bytes ++ dataBytes l)) := by
  induction l generalizing bytes p with
  | nil => simp [dataBytes, idlesIn, Part.afterIdles]
  | cons c l ih =>
    simp only [List.all_cons, Bool.and_eq_true] at hi
    rw [List.foldl_cons]
    cases c with
    | idle =>
      rw [Part.recorderChar_up _ _ (by exact h) (by simp)]
      show l.foldl Part.recorderChar ((p.setInbound (some bytes)).tallyIdle) = _
      rw [p.tallyIdle_inbound, ih p.tallyIdle (by simpa using h) bytes hi.2 (by simpa [dataBytes_idle] using hl),
        dataBytes_idle]
      simp [idlesIn, Part.afterIdles]
    | data b =>
      rw [Part.recorderChar_up _ _ (by exact h) (by simp)]
      have h0 := hl 0 (by simp [dataBytes_data])
      simp only [dataBytes_data, List.take_succ_cons, List.take_zero] at h0
      have : (p.setInbound (some bytes)).charUp (.data b) = p.setInbound (some (bytes ++ [b])) := by
        show (p.setInbound (some bytes)).inboundData b = _
        unfold Part.inboundData
        show (if inboundTooLong (bytes ++ [b]) then (p.setInbound (some bytes)).checkFailure else (p.setInbound (some bytes)).setInbound (some (bytes ++ [b]))) = _
        rw [h0]
        rfl
      rw [this, ih p h (bytes ++ [b]) hi.2]
      · simp [dataBytes_data, idlesIn]
      · intro k hk
        have := hl (k + 1) (by simp only [dataBytes_data, List.length_cons]; omega)
        simpa [dataBytes_data] using this
    | frameStart => simp [LineChar.inside] at hi
    | frameEnd => simp [LineChar.inside] at hi
    | violation => simp [LineChar.inside] at hi

/-- The length field of an inbound frame does not change as more bytes come. -/
theorem inboundLength_append (a b : List Byte) (h : 3 ≤ a.length) : inboundLength (a ++ b) = inboundLength a := by
  unfold inboundLength
  rw [List.drop_append_of_le_length (by omega), List.take_append_of_le_length (by simp; omega)]

theorem Part.afterIdles_link (p : Part) (k : Nat) :
    (p.afterIdles k).rlu.link = p.rlu.link ∧ (p.afterIdles k).rlu.rx = p.rlu.rx := by
  induction k generalizing p with
  | zero => exact ⟨rfl, rfl⟩
  | succ k ih =>
    have := ih p.tallyIdle
    simpa [Part.afterIdles] using this

/-- An inbound frame whose length field is right and at most 1024, and whose CRC matches, is taken whole (R168). -/
theorem Part.recorderFrame_whole (p : Part) (chars : List LineChar) (bytes : List Byte) (h : p.rlu.link = .up)
    (hr : p.rlu.rx = none) (hc : Carries chars bytes) (hk : inboundOk bytes = true) (hm : inboundLength bytes ≤ 1024) :
    p.recorderFrame chars = ((p.afterIdles (idlesIn chars)).setInbound (some bytes)).takeInbound bytes := by
  obtain ⟨inner, rfl, hi, rfl⟩ := hc
  have h3 : 3 ≤ (dataBytes inner).length ∧ (dataBytes inner).length = 5 + inboundLength (dataBytes inner) := by
    unfold inboundOk at hk
    simp only [Bool.and_eq_true, decide_eq_true_eq, beq_iff_eq] at hk
    exact ⟨hk.1.1, hk.1.2⟩
  have hn : idlesIn (inner ++ [.frameEnd]) = idlesIn inner := by simp [idlesIn]
  unfold Part.recorderFrame
  rw [List.foldl_cons, p.recorderChar_up _ h (by simp)]
  have hs : p.charUp .frameStart = p.setInbound (some []) := by
    show p.inboundStart = _
    unfold Part.inboundStart
    rw [hr]
  rw [hs, List.foldl_append, p.recorderChars h inner [] hi]
  · simp only [List.nil_append, List.foldl_cons, List.foldl_nil, hn]
    rw [Part.recorderChar_up _ _ (by simpa [Part.setInbound] using (p.afterIdles_link (idlesIn inner)).1.trans h) (by simp)]
    show ((p.afterIdles (idlesIn inner)).setInbound (some (dataBytes inner))).inboundEnd = _
    unfold Part.inboundEnd
    show (if inboundOk (dataBytes inner) then ((p.afterIdles (idlesIn inner)).setInbound (some (dataBytes inner))).takeInbound (dataBytes inner) else ((p.afterIdles (idlesIn inner)).setInbound (some (dataBytes inner))).checkFailure) = _
    rw [hk]
    rfl
  · intro k hk2
    simp only [List.nil_append]
    unfold inboundTooLong
    by_cases h3' : 3 ≤ ((dataBytes inner).take (k + 1)).length
    · have e : inboundLength ((dataBytes inner).take (k + 1)) = inboundLength (dataBytes inner) := by
        conv_rhs => rw [← List.take_append_drop (k + 1) (dataBytes inner)]
        rw [inboundLength_append _ _ h3']
      have hle : ((dataBytes inner).take (k + 1)).length ≤ (dataBytes inner).length := by simp
      simp only [e, Bool.and_eq_false_iff, Bool.or_eq_false_iff, decide_eq_false_iff_not]
      right
      constructor <;> omega
    · simp only [h3', decide_false, Bool.false_and]

end Sys2Proof.Machine
end

