-- ==== Sys2Proof/Laws/Vocabulary.lean ====
section
/-! SUPPORT. The model's shared operations in the vocabulary of the statements: one lemma per operation that says in plain values what it leaves (R62 to R64, R76, R84 to R88, R94 to R98, R109, R112, R113, R127, R137, R140 to R142, R147, R154). -/

namespace Sys2Proof.Machine

/-! ## Urgent notices, finalisation and cuts -/

/-- A finalisation with the flag of its cut, if it has one (R134, R137, R140 to R142). -/
theorem Part.finaliseEx_eq (p : Part) (n : SlotNo) (ex : Exceedance) (c : Option CutFlag) :
    p.finaliseEx n ex c = p.finalisedIn n { ex with flags := ex.flags.withCut c } := by
  unfold Part.finaliseEx Part.finalisedIn
  generalize ({ ex with flags := ex.flags.withCut c } : Exceedance) = x
  have h1 : p.isShort x = true ↔
      (x.endSeq - x.startSeq + 1).toNat < (p.limitRow x.peak.cls x.param).minLength ∧ x.grade < 3 := by
    simp [Part.isShort, Exceedance.length]
  by_cases h : (x.endSeq - x.startSeq + 1).toNat < (p.limitRow x.peak.cls x.param).minLength ∧ x.grade < 3
  · rw [if_pos h]; exact if_pos (h1.2 h)
  · rw [if_neg h]
    refine (if_neg (fun y => h (h1.1 y))).trans ?_
    by_cases h2 : p.rlu.xr.length < 32
    · rw [if_pos h2]; exact if_pos h2
    · rw [if_neg h2]; exact if_neg h2

/-- An urgent notice that becomes due (R147). -/
theorem Part.urgentDue_eq (p : Part) (o : Owner) (u : UrgentNotice) : p.urgentDue o u = p.urgentOffered o u := by
  unfold Part.urgentDue Part.urgentOffered
  have h1 : (p.ext.owed.isEmpty && decide (1 ≤ p.rlu.freeEntries)) = true ↔
      p.ext.owed = [] ∧ p.rlu.control.length + p.rlu.reservations < 16 := by
    simp only [Bool.and_eq_true, List.isEmpty_iff, decide_eq_true_eq]
    simp only [Rlu.freeEntries, Config.controlCapacity]
    constructor <;> rintro ⟨a, b⟩ <;> exact ⟨a, by omega⟩
  have h2 : (p.ext.owed.any (fun x => x.owner == o)) = true ↔ ∃ x ∈ p.ext.owed, x.owner = o := by simp
  simp only [h1, h2]
  split
  · cases o <;> rfl
  · split
    · rfl
    · cases o <;> rfl

/-- Pairs taken in order as a fold (R127). -/
theorem Part.judgePairs_eq (r : Emitted) (l : List Pair) (p : Part) (b : Bool) :
    l.foldl (fun (x : Part × Bool) k => ((x.1.judgePair k r).1, x.2 || (x.1.judgePair k r).2)) (p, b) =
      ((p.judgePairs r l).1, b || (p.judgePairs r l).2) := by
  induction l generalizing p b with
  | nil => simp [Part.judgePairs]
  | cons k l ih => simp [Part.judgePairs, ih, Bool.or_assoc]

/-- All 16 pairs take a record (R127). -/
theorem Part.judge_eq (p : Part) (r : Emitted) : p.judge r = p.judgedBy r := by
  unfold Part.judgedBy Part.judge
  rw [Part.judgePairs_eq]; simp

/-- A cut finalises the active slots in the order of opening and clears every latch (R137). -/
theorem Part.cut_eq (p : Part) (c : CutFlag) :
    p.cut c = p.cutThrough (fun f => f.withCut (some c)) p.ext.activeInOrder := by
  unfold Part.cut Part.cutThrough
  have h : (fun (q : Part) n => q.cutSlot c n) = fun (q : Part) n =>
      match (q.ext.slots[n]).hold with
      | .active .held ex => q.finalisedIn n ex
      | .active _ ex => q.finalisedIn n { ex with flags := ex.flags.withCut (some c) }
      | _ => q := by
    funext q n
    unfold Part.cutSlot
    cases hn : (q.ext.slots[n]).hold with
    | free => rfl
    | pending _ _ => rfl
    | active ph ex => cases ph <;> exact q.finaliseEx_eq n ex _
  rw [h]; rfl

theorem insertByAge_perm (x : Ext) (n : SlotNo) (l : List SlotNo) : (insertByAge x n l).Perm (n :: l) := by
  induction l with
  | nil => exact List.Perm.refl _
  | cons m l ih =>
    unfold insertByAge
    split
    · exact List.Perm.refl _
    · exact (List.Perm.cons m ih).trans (List.Perm.swap n m l)

theorem insertByAge_sorted (x : Ext) (n : SlotNo) (l : List SlotNo)
    (h : l.Pairwise (fun a b => x.age b ≤ x.age a)) :
    (insertByAge x n l).Pairwise (fun a b => x.age b ≤ x.age a) := by
  induction l with
  | nil => simp [insertByAge]
  | cons m l ih =>
    rw [List.pairwise_cons] at h
    unfold insertByAge
    split
    · rename_i hlt
      refine List.Pairwise.cons (fun a ha => ?_) (List.Pairwise.cons h.1 h.2)
      rcases List.mem_cons.1 ha with rfl | ha
      · omega
      · have := h.1 a ha; omega
    · rename_i hge
      refine List.Pairwise.cons (fun a ha => ?_) (ih h.2)
      rcases List.mem_cons.1 ((insertByAge_perm x n l).mem_iff.1 ha) with rfl | ha
      · omega
      · exact h.1 a ha

/-- The order of a cut holds each active slot once. -/
theorem activeInOrder_perm (x : Ext) :
    x.activeInOrder.Perm ((List.finRange 24).filter (fun n => x.slots[n].hold.active?.isSome)) := by
  unfold Ext.activeInOrder
  induction (List.finRange 24).filter (fun n => x.slots[n].hold.active?.isSome) with
  | nil => exact List.Perm.refl _
  | cons m l ih => exact (insertByAge_perm x m _).trans (List.Perm.cons m ih)

theorem Ext.age_of_active (x : Ext) (n : SlotNo) (ph : SlotPhase) (ex : Exceedance) (h : (x.slots[n]).hold = .active ph ex) :
    x.age n = (x.nextSerial + 4294967295 - ex.serial) % 4294967295 := by
  unfold Ext.age; rw [h]; rfl

/-- The order in which a cut finalises is the order of opening (R137). -/
theorem Part.openingOrder_activeInOrder (p : Part) : p.OpeningOrder p.ext.activeInOrder := by
  have hs : ∀ l : List SlotNo, (l.foldr (insertByAge p.ext) []).Pairwise (fun a b => p.ext.age b ≤ p.ext.age a) := by
    intro l
    induction l with
    | nil => exact List.Pairwise.nil
    | cons m l ih => exact insertByAge_sorted _ _ _ ih
  refine ⟨(activeInOrder_perm p.ext).nodup_iff.2 ((List.nodup_finRange 24).filter _), fun n => ?_,
    (hs _).imp (fun {m n} h ph ex ph' ex' hm hn => ?_)⟩
  · rw [(activeInOrder_perm p.ext).mem_iff]; simp [Slot.isActive]
  · rw [p.ext.age_of_active m ph ex hm, p.ext.age_of_active n ph' ex' hn] at h; exact h

/-! ## Emission, flush and capture -/

theorem saturateParam_ne (v : Int) : (saturateParam v != v) = decide (v < -32767 ∨ 32767 < v) := by
  unfold saturateParam clampInt
  rw [Bool.eq_iff_iff]
  simp only [bne_iff_ne, decide_eq_true_eq]
  split
  · omega
  · split <;> omega

theorem vector_any {α : Type} {n : Nat} (v : Vector α n) (f : α → Bool) :
    v.toList.any f = decide (∃ i : Fin n, f v[i] = true) := by
  rw [Bool.eq_iff_iff, List.any_eq_true]
  simp only [decide_eq_true_eq, Vector.mem_toList_iff, Vector.mem_iff_getElem]
  constructor
  · rintro ⟨x, ⟨i, h, rfl⟩, hx⟩; exact ⟨⟨i, h⟩, hx⟩
  · rintro ⟨i, hi⟩; exact ⟨_, ⟨i.val, i.isLt, rfl⟩, hi⟩

theorem Part.deriveAll_limited (p : Part) (e : TraceEntry) :
    (p.deriveAll e).toList.countP Derived.limited = p.limitedOf e := by
  unfold Part.deriveAll Part.limitedOf
  rw [Vector.toList_ofFn, List.ofFn_eq_map, List.countP_map]
  congr 1
  funext q
  simp only [Function.comp]
  cases p.derive e q with
  | value v m => exact saturateParam_ne v
  | absent c => rfl

theorem Part.record_eq (p q : Part) (e : TraceEntry) (r : Emitted) (b : Bool) (h : q.rnc = p.rnc) :
    q.record e r b = p.recordBuilt e r b := by
  have ha : ∀ (c : AbsenceCause) (v : ParamValue), v.absentFor c = true ↔ v = .absent c := by
    intro c v; cases v <;> simp [ParamValue.absentFor]
  unfold Part.record Part.recordBuilt
  simp only [h, vector_any, ha]
  rfl

/-- The emission of an entry (R94 to R97). -/
theorem Part.emit_eq (p : Part) (e : TraceEntry) : p.emit e = p.emissionOf e := by
  unfold Part.emit Part.emissionOf
  simp only [Part.deriveAll_limited]
  rw [Part.record_eq p _ e _ _ (by simp), Part.judge_eq]
  rfl

/-- A flush (R98). -/
theorem Part.flush_eq (p : Part) : p.flush = p.flushed := by
  unfold Part.flush Part.flushed Tru.waiting
  rw [show Part.emit = Part.emissionOf from funext fun q => funext fun e => q.emit_eq e]
  rfl

/-- The entry that a capture makes (R84, R86). -/
theorem Part.entryOf_eq (p : Part) (t : TickData) (ht : t.time = p.time) :
    p.entryOf t = p.capturedEntry t.speed t.slip t.saturated := by
  have h1 : standbyUsed (p.channelValues t.speed) = decide (∃ i : Fin 7, ∃ y,
      (p.channelValues t.speed)[i] = some y ∧ y.sample.mark = .standby) := by
    unfold standbyUsed
    rw [vector_any]
    refine decide_eq_decide.2 (exists_congr fun i => ?_)
    cases (p.channelValues t.speed)[i] <;> simp
  have h2 : p.suspectUsed (p.channelValues t.speed) = decide (∃ i : Fin 7, ∃ y,
      (p.channelValues t.speed)[i] = some y ∧ (p.hlu.heads[y.source.head]).state = .suspect) := by
    unfold Part.suspectUsed
    rw [vector_any]
    refine decide_eq_decide.2 (exists_congr fun i => ?_)
    cases (p.channelValues t.speed)[i] <;> simp
  have h3 : p.belowMinSpeed t.speed = decide (∀ v, t.speed = some v → v < p.oru.settings.minSpeed) := by
    unfold Part.belowMinSpeed
    cases t.speed <;> simp
  unfold Part.entryOf Part.capturedEntry
  simp only [ht, h1, h2, h3]
  cases p.currentSection <;> rfl

/-- A capture with the emission that it causes (R85, R87, R88). -/
theorem Part.capture_eq (p : Part) (t : TickData) (ht : t.time = p.time) :
    p.capture t = p.captured t.speed t.slip t.saturated := by
  unfold Part.capture Part.captured Part.emitNext
  simp only
  rw [← p.entryOf_eq t ht]
  have h1 : p.captureEntry t = Part.bump { p with
      pfu := { p.pfu with pendingCorrection := none }
      tru :=
        { window := p.tru.window ++ [p.entryOf t]
          nextSeq := p.tru.nextSeq + 1
          segStart := if p.tru.window.isEmpty = true then some (p.entryOf t).seq else p.tru.segStart
          nextEmit := if p.tru.window.isEmpty = true then some (p.entryOf t).seq else p.tru.nextEmit } } .captures := rfl
  rw [← h1]
  generalize hq : p.captureEntry t = q
  have ho : q.oru = p.oru := by rw [← hq]; simp
  rw [← ho]
  have h2 : q.emitEntry =
      match q.tru.window.reverse[max q.oru.settings.chordLevel q.oru.settings.chordAlign / 2]? with
      | none => none
      | some x => if q.tru.nextEmit = some x.seq then some x else none := by
    unfold Part.emitEntry Settings.lag
    split
    · rename_i h
      rw [List.getElem?_reverse h]
      split <;> rename_i hx <;> rw [hx]
    · rename_i h
      rw [List.getElem?_eq_none (by simpa using Nat.le_of_not_lt h)]
  rw [h2]
  cases q.tru.window.reverse[max q.oru.settings.chordLevel q.oru.settings.chordAlign / 2]? with
  | none => rfl
  | some x =>
    by_cases hx : q.tru.nextEmit = some x.seq
    · simp only [if_pos hx, Part.emit_eq]
      have h3 : (q.emissionOf x).oru = q.oru := by rw [← Part.emit_eq]; simp
      unfold Part.retain
      rw [show (q.emissionOf x).oru.settings.depth = q.oru.settings.depth by rw [h3]]
      generalize q.emissionOf x = z
      rfl
    · simp only [if_neg hx]

/-! ## The advances of the look-ahead lists -/

theorem counterUp_zero_of_le (v : Nat) (h : v ≤ Config.counterTop) : counterUp 0 v = v := by
  unfold counterUp; omega

theorem lowReached_eq (armed : Bool) (a b n : Nat) (h : b ≤ a) :
    lowReached armed a b n = (armed && !decide (b = a) && decide (b ≤ n)) := by
  unfold lowReached
  have : decide (b < a) = !decide (b = a) := by
    rw [Bool.eq_iff_iff]; simp; omega
  rw [this]

/-- The compare-and-advance of the section list (R109, R112, R113). -/
theorem Part.sectionAdvance_eq (p : Part) : p.sectionAdvance = p.sectionsAdvanced := by
  unfold Part.sectionAdvance Part.sectionsAdvanced sectionsLeft TrackSection.endPassed
  have hl : (p.lmu.sections.dropWhile (fun x => beyond p.odu.direction p.pfu.routeDistance x.finish)).length ≤
      p.lmu.sections.length := List.Sublist.length_le (List.dropWhile_sublist _)
  simp only
  generalize hr : p.lmu.sections.dropWhile (fun x => beyond p.odu.direction p.pfu.routeDistance x.finish) = rest at hl ⊢
  by_cases h : rest.length = p.lmu.sections.length
  · rw [if_pos h, if_pos (by omega)]
  · rw [if_neg h, if_neg (by omega), lowReached_eq _ _ _ _ hl]
    generalize p.lmu.sections.length - rest.length = n
    have ht : ∀ q : Part, q.lmu.sections = rest → q.rnc = p.rnc → q.sectionStarvedTest =
        if rest = [] ∧ p.rnc.runState = .measuring then (q.bump .sectionStarvations).raise .sectionStarved else q := by
      intro q h1 h2
      unfold Part.sectionStarvedTest
      rw [h1, h2]
      by_cases hc : rest = [] ∧ p.rnc.runState = .measuring
      · rw [if_pos hc, if_pos (by simp [hc])]
      · rw [if_neg hc, if_neg (by simpa using hc)]
    have hlow : ∀ b : Bool, (p.lmu.lowArmed && decide (rest.length ≤ p.oru.settings.sectionLowWater)) = b →
        (Part.sectionLowTest ((p.withLmu { p.lmu with sections := rest }).bumpBy .sectionsRetired n)) =
          if b = true then (Part.bumpBy { p with lmu := { p.lmu with sections := rest, lowArmed := p.lmu.lowArmed && !b } }
            .sectionsRetired n).raise .sectionLow
          else Part.bumpBy { p with lmu := { p.lmu with sections := rest, lowArmed := p.lmu.lowArmed && !b } }
            .sectionsRetired n := by
      intro b hb
      unfold Part.sectionLowTest
      cases b with
      | true => rw [if_pos (rfl : true = true), Bool.not_true, Bool.and_false]; exact if_pos hb
      | false => rw [if_neg (Bool.false_ne_true), Bool.not_false, Bool.and_true]; exact if_neg (by rw [Bool.not_eq_true]; exact hb)
    rw [show (p.lmu.lowArmed && !decide (rest.length = p.lmu.sections.length) &&
        decide (rest.length ≤ p.oru.settings.sectionLowWater)) =
      (p.lmu.lowArmed && decide (rest.length ≤ p.oru.settings.sectionLowWater)) by simp [h]]
    rw [ht _ _ _, hlow _ rfl]
    · rw [hlow _ rfl]; split <;> simp
    · rw [hlow _ rfl]; split <;> simp

theorem vmodify_vmodify {α : Type} {n : Nat} (v : Vector α n) (i j : Fin n) (f g : α → α) (h : i ≠ j) :
    vmodify (vmodify v i f) j g = vmodify (vmodify v j g) i f := by
  apply Vector.ext
  intro k hk
  have := vmodify_get (vmodify v i f) j ⟨k, hk⟩ g
  have := vmodify_get (vmodify v j g) i ⟨k, hk⟩ f
  have := vmodify_get v i ⟨k, hk⟩ f
  have := vmodify_get v j ⟨k, hk⟩ g
  simp only [Fin.getElem_fin] at *
  by_cases h1 : i = ⟨k, hk⟩ <;> by_cases h2 : j = ⟨k, hk⟩ <;> simp_all

theorem Part.bumpBy_comm (p : Part) (c d : Counter) (m n : Nat) (h : c.index ≠ d.index) :
    (p.bumpBy c m).bumpBy d n = (p.bumpBy d n).bumpBy c m := by
  unfold Part.bumpBy Part.withEvu
  simp only [vmodify_vmodify _ _ _ _ _ h]

/-- A counter that no notice raises may be raised before an event or after it. -/
theorem Part.raise_bumpBy (p : Part) (e : Event) (c : Counter) (n : Nat)
    (h1 : c.index ≠ Counter.statusSent.index) (h2 : c.index ≠ Counter.noticesLost.index) :
    (p.bumpBy c n).raise e = (p.raise e).bumpBy c n := by
  unfold Part.raise
  have a : (p.bumpBy c n).flagSet e = p.flagSet e := rfl
  have b : (p.bumpBy c n).noticeDue e = p.noticeDue e := rfl
  have d : (p.bumpBy c n).setFlag e = (p.setFlag e).bumpBy c n := rfl
  rw [a, b, d]
  split
  · rfl
  · split
    · unfold Part.offerNotice
      have f : ((p.setFlag e).bumpBy c n).rlu = (p.setFlag e).rlu := rfl
      rw [f]
      split
      · unfold Part.bump
        rw [← Part.bumpBy_comm _ _ _ _ _ h1]; rfl
      · unfold Part.bump
        rw [show ∀ q : Part, (q.setFlag .noticeLost).bumpBy c n = (q.bumpBy c n).setFlag .noticeLost from fun _ => rfl,
          ← Part.bumpBy_comm _ _ _ _ _ h2]
    · rfl

/-- The Position Fixing Unit may be written before an event or after it, its route distance standing. -/
theorem Part.raise_withPfu (p : Part) (e : Event) (x : Pfu) (h : x.routeDistance = p.pfu.routeDistance) :
    (p.withPfu x).raise e = (p.raise e).withPfu x := by
  unfold Part.raise
  have a : (p.withPfu x).flagSet e = p.flagSet e := rfl
  have b : (p.withPfu x).noticeDue e = p.noticeDue e := rfl
  have d : (p.withPfu x).setFlag e = (p.setFlag e).withPfu x := rfl
  rw [a, b, d]
  split
  · rfl
  · split
    · unfold Part.offerNotice
      have f : ((p.setFlag e).withPfu x).rlu = (p.setFlag e).rlu := rfl
      have g : ((p.setFlag e).withPfu x).statusNotice e.number = (p.setFlag e).statusNotice e.number := by
        unfold Part.statusNotice; simp [h]
      rw [f, g]
      split <;> rfl
    · rfl

theorem Part.raise_of_flagSet (p : Part) (e : Event) (h : p.flagSet e = true) : p.raise e = p := by
  unfold Part.raise; rw [if_pos h]

theorem Part.raise_keeps (p : Part) (e f : Event) (h : p.flagSet e = true) : (p.raise f).flagSet e = true :=
  p.raise_mono f e.number h

/-- The route list's part of an advance, with what it leaves in the Position Fixing Unit. -/
def Pfu.scanned (x : Pfu) (dir : Direction) (r : RouteScan) : Pfu :=
  { x with
    position := r.state
    missCount := r.miss
    lastPost := match dir with
      | .up => r.posts.getLast?.or x.lastPost
      | .down => x.lastPost }

/-- What an advance counts and raises for the markers that it removes. -/
def Part.scanReported (p : Part) (skip : Bool) (gone : Nat) (lost : Bool) : Part :=
  let q :=
    if gone = 0 then p
    else if skip = true then p.bumpBy .skippedMarkers gone
    else (p.bumpBy .missedMarkers gone).raise .markerMissed
  if lost = true then q.raise .positionLost else q

theorem Part.scanReported_missed (p : Part) (gone : Nat) (lost now : Bool) :
    (if now = true then ((p.bump .missedMarkers).raise .markerMissed).raise .positionLost
      else (p.bump .missedMarkers).raise .markerMissed).scanReported false gone lost =
    p.scanReported false (gone + 1) (lost || now) := by
  have hb : ∀ (q : Part) (e : Event) (n : Nat), (q.bumpBy .missedMarkers n).raise e = (q.raise e).bumpBy .missedMarkers n :=
    fun q e n => q.raise_bumpBy e _ n (by decide) (by decide)
  have hf : ∀ (q : Part) (e : Event) (n : Nat), (q.bumpBy .missedMarkers n).flagSet e = q.flagSet e := fun _ _ _ => rfl
  have h1 : ∀ q : Part, (q.raise .markerMissed).raise .markerMissed = q.raise .markerMissed :=
    fun q => Part.raise_of_flagSet _ _ (q.raise_flagSet _)
  have h2 : ∀ q : Part, (q.raise .positionLost).raise .positionLost = q.raise .positionLost :=
    fun q => Part.raise_of_flagSet _ _ (q.raise_flagSet _)
  have h3 : ∀ q : Part, ((q.raise .markerMissed).raise .positionLost).raise .markerMissed =
      (q.raise .markerMissed).raise .positionLost :=
    fun q => Part.raise_of_flagSet _ _ (Part.raise_keeps _ _ _ (q.raise_flagSet _))
  unfold Part.scanReported Part.bump
  cases now <;> cases lost <;> by_cases hg : gone = 0 <;>
    simp [hg, hb, h1, h2, h3, Part.bumpBy_bumpBy, Nat.add_comm]

theorem getLast?_cons_or {α : Type} (x : α) (l : List α) (o : Option α) :
    (x :: l).getLast?.or o = l.getLast?.or (some x) := by
  cases l with
  | nil => rfl
  | cons y l => simp [List.getLast?_eq_some_getLast]

theorem Part.scanReported_withPfu (p : Part) (x : Pfu) (h : x.routeDistance = p.pfu.routeDistance) (skip : Bool)
    (gone : Nat) (lost : Bool) :
    (p.withPfu x).scanReported skip gone lost = (p.scanReported skip gone lost).withPfu x := by
  unfold Part.scanReported
  have hb : ∀ (q : Part) (c : Counter) (n : Nat), (q.withPfu x).bumpBy c n = (q.bumpBy c n).withPfu x := fun _ _ _ => rfl
  by_cases hg : gone = 0 <;> cases skip <;> cases lost <;> simp [hg, hb, Part.raise_withPfu, h]

theorem Part.scanReported_frame (p : Part) (skip : Bool) (gone : Nat) (lost : Bool) :
    (p.scanReported skip gone lost).time = p.time ∧ (p.scanReported skip gone lost).odu = p.odu ∧
    (p.scanReported skip gone lost).pfu = p.pfu ∧ (p.scanReported skip gone lost).oru = p.oru := by
  unfold Part.scanReported
  by_cases hg : gone = 0 <;> cases skip <;> cases lost <;> simp [hg]

theorem Part.withPfu_self (p : Part) : p.withPfu p.pfu = p := rfl

/-- The miss count against the lost threshold, in plain values (R76). -/
theorem Part.missState_eq (p : Part) (h : p.pfu.position ≠ .unset) :
    p.missState =
      (if (decide (p.oru.settings.lostThreshold ≤ p.pfu.missCount) && p.pfu.position != .lost) = true then
        p.raise .positionLost else p).withPfu { p.pfu with
          position := if p.oru.settings.lostThreshold ≤ p.pfu.missCount then .lost else p.pfu.position.doubted } := by
  have hr : ∀ x : Pfu, x.routeDistance = p.pfu.routeDistance → (p.withPfu x).raise .positionLost =
      (p.raise .positionLost).withPfu x := fun x hx => p.raise_withPfu _ x hx
  unfold Part.missState
  by_cases ht : p.oru.settings.lostThreshold ≤ p.pfu.missCount
  · rw [if_pos ht, if_pos ht]
    have hl : p.pfu.position = .lost → p = p.withPfu { p.pfu with position := .lost } := by
      intro hs; rw [← hs]; rfl
    cases hs : p.pfu.position with
    | unset => exact absurd hs h
    | lost => simpa [ht] using hl hs
    | deadReckoned => simpa [ht] using hr { p.pfu with position := .lost } rfl
    | fixed => simpa [ht] using hr { p.pfu with position := .lost } rfl
    | uncertain => simpa [ht] using hr { p.pfu with position := .lost } rfl
  · rw [if_neg ht, if_neg ht, if_neg (by simp [ht])]

theorem Part.scanReported_skipped (p : Part) (gone : Nat) (lost : Bool) :
    (p.bump .skippedMarkers).scanReported true gone lost = p.scanReported true (gone + 1) lost := by
  unfold Part.scanReported Part.bump
  by_cases hg : gone = 0 <;> simp [hg, Part.bumpBy_bumpBy, Nat.add_comm]

/-- A marker removed as missed, in plain values (R76). -/
theorem Part.markerMissed_eq (p : Part) (h : p.pfu.position ≠ .unset) :
    let n := min (p.pfu.missCount + 1) 7
    let now : Bool := decide (p.oru.settings.lostThreshold ≤ n) && p.pfu.position != .lost
    p.markerMissed =
      (if now = true then ((p.bump .missedMarkers).raise .markerMissed).raise .positionLost
        else (p.bump .missedMarkers).raise .markerMissed).withPfu { p.pfu with
          missCount := n
          position := if p.oru.settings.lostThreshold ≤ n then .lost else p.pfu.position.doubted } := by
  intro n now
  have h1 : p.markerMissed = (((p.bump .missedMarkers).raise .markerMissed).withPfu { p.pfu with missCount := n }).missState :=
    congrArg Part.missState (Part.raise_withPfu _ _ _ rfl)
  rw [h1]
  generalize hq : (p.bump .missedMarkers).raise .markerMissed = q
  have hp : q.pfu = p.pfu := by rw [← hq]; simp
  have ho : q.oru = p.oru := by rw [← hq]; simp
  rw [Part.missState_eq (q.withPfu { p.pfu with missCount := n }) h]
  simp only [Part.withPfu_oru, Part.withPfu_pfu, ho]
  rw [Part.raise_withPfu _ _ _ (by rw [hp])]
  change Part.withPfu (if now = true then _ else _) _ = _
  cases now <;> rfl

/-- The scan of an advance, with what it counts and raises (R62, R63, R76, R80). -/
theorem Part.scanRoute_eq (skip : Bool) (l : List RouteEntry) : ∀ p : Part, p.pfu.position ≠ .unset →
    let r := routeScan p.odu.direction p.pfu.routeDistance p.oru.settings.matchWindow p.oru.settings.lostThreshold skip
      l p.pfu.position p.pfu.missCount
    p.scanRoute skip l = ((p.withPfu (p.pfu.scanned p.odu.direction r)).scanReported skip r.gone r.lost, r.kept) := by
  induction l with
  | nil =>
    intro p _ r
    have : p.pfu.scanned p.odu.direction r = p.pfu := by
      unfold Pfu.scanned; cases p.odu.direction <;> rfl
    rw [this]; rfl
  | cons e es ih =>
    intro p hp r
    by_cases hb : beyond p.odu.direction p.pfu.routeDistance e.distance = true
    · have hw : p.window = if p.pfu.position = .lost then 4 * (p.oru.settings.matchWindow : Int)
          else (p.oru.settings.matchWindow : Int) := by
        unfold Part.window; split <;> push_cast <;> rfl
      cases hk : e.kind with
      | kpost km =>
        have h1 : p.scanRoute skip (e :: es) = (p.postPassed ⟨e.distance, km⟩).scanRoute skip es := by
          rw [Part.scanRoute.eq_def]; simp [hb, hk]
        have h2 := ih (p.postPassed ⟨e.distance, km⟩) (by unfold Part.postPassed; split <;> exact hp)
        have h3 : (p.postPassed ⟨e.distance, km⟩) = p.withPfu { p.pfu with lastPost :=
            match p.odu.direction with | .up => some ⟨e.distance, km⟩ | .down => p.pfu.lastPost } := by
          unfold Part.postPassed; cases p.odu.direction <;> rfl
        rw [h1, h2, h3]
        simp only [Part.withPfu_pfu, Part.withPfu_odu, Part.withPfu_oru]
        have hr : r = (fun x : RouteScan => { x with posts := ⟨e.distance, km⟩ :: x.posts })
            (routeScan p.odu.direction p.pfu.routeDistance p.oru.settings.matchWindow
              p.oru.settings.lostThreshold skip es p.pfu.position p.pfu.missCount) := by
          simp only [r]; rw [routeScan.eq_def]; simp [hb, hk]
        rw [hr]
        generalize routeScan p.odu.direction p.pfu.routeDistance p.oru.settings.matchWindow
            p.oru.settings.lostThreshold skip es p.pfu.position p.pfu.missCount = x
        have h4 : (Pfu.scanned { p.pfu with lastPost :=
              match p.odu.direction with | .up => some ⟨e.distance, km⟩ | .down => p.pfu.lastPost } p.odu.direction x) =
            p.pfu.scanned p.odu.direction { x with posts := ⟨e.distance, km⟩ :: x.posts } := by
          unfold Pfu.scanned
          cases p.odu.direction
          · simp only [getLast?_cons_or]
          · rfl
        rw [h4]; rfl
      | marker c k =>
        have hr0 : r = routeScan p.odu.direction p.pfu.routeDistance p.oru.settings.matchWindow
            p.oru.settings.lostThreshold skip (e :: es) p.pfu.position p.pfu.missCount := rfl
        rw [routeScan.eq_def] at hr0
        simp only [hb, hk, Bool.true_eq_false, if_false, ← hw] at hr0
        by_cases hg : beyond p.odu.direction p.pfu.routeDistance (e.distance + p.odu.direction.sign * p.window) = true
        · rw [if_neg (by simp [hg])] at hr0
          have h1 : p.scanRoute skip (e :: es) = (p.markerGone skip).scanRoute skip es := by
            rw [Part.scanRoute.eq_def]; simp [hb, hk, hg]
          rw [h1]
          cases skip with
          | true =>
            rw [if_pos rfl] at hr0
            have h2 : (p.bump .skippedMarkers).scanRoute true es =
                (fun x : RouteScan => ((((p.withPfu (p.pfu.scanned p.odu.direction x)).bump .skippedMarkers).scanReported
                  true x.gone x.lost, x.kept) : Part × List RouteEntry))
                (routeScan p.odu.direction p.pfu.routeDistance p.oru.settings.matchWindow
                  p.oru.settings.lostThreshold true es p.pfu.position p.pfu.missCount) := ih (p.bump .skippedMarkers) hp
            rw [show p.markerGone true = p.bump .skippedMarkers from rfl, h2, hr0]
            simp only [Part.scanReported_skipped]
            rfl
          | false =>
            rw [if_neg Bool.false_ne_true] at hr0
            have hm := Part.markerMissed_eq p hp
            have hs : p.markerMissed.pfu = { p.pfu with
                missCount := min (p.pfu.missCount + 1) 7
                position := if p.oru.settings.lostThreshold ≤ min (p.pfu.missCount + 1) 7 then .lost
                  else p.pfu.position.doubted } := by rw [hm]; rfl
            have ho : p.markerMissed.odu = p.odu ∧ p.markerMissed.oru = p.oru := by
              rw [hm]; simp only [Part.withPfu_odu, Part.withPfu_oru]; split <;> simp
            have h2 := ih p.markerMissed (by
              rw [hs]
              simp only
              split
              · simp
              · cases hq : p.pfu.position <;> simp_all [PositionState.doubted])
            have hr1 : r = (fun x : RouteScan => { x with
                  gone := x.gone + 1
                  lost := x.lost || (decide (p.oru.settings.lostThreshold ≤ min (p.pfu.missCount + 1) 7) &&
                    p.pfu.position != .lost) })
                (routeScan p.odu.direction p.pfu.routeDistance p.oru.settings.matchWindow
                  p.oru.settings.lostThreshold false es
                  (if p.oru.settings.lostThreshold ≤ min (p.pfu.missCount + 1) 7 then .lost
                    else p.pfu.position.doubted) (min (p.pfu.missCount + 1) 7)) := by
              rw [hr0]
              cases hq : p.pfu.position <;> rfl
            simp only [hs, ho] at h2
            rw [show p.markerGone false = p.markerMissed from rfl, h2, hr1]
            generalize routeScan p.odu.direction p.pfu.routeDistance p.oru.settings.matchWindow
              p.oru.settings.lostThreshold false es _ _ = x
            rw [hm]
            generalize (decide (p.oru.settings.lostThreshold ≤ min (p.pfu.missCount + 1) 7) && p.pfu.position != .lost) = now
            refine Prod.ext ?_ rfl
            change ((if now = true then ((p.bump .missedMarkers).raise .markerMissed).raise .positionLost
                else (p.bump .missedMarkers).raise .markerMissed).withPfu
                  (p.pfu.scanned p.odu.direction x)).scanReported false x.gone x.lost =
              (p.withPfu (p.pfu.scanned p.odu.direction x)).scanReported false (x.gone + 1) (x.lost || now)
            rw [Part.scanReported_withPfu _ (p.pfu.scanned p.odu.direction x) (by split <;> simp [Pfu.scanned]),
              Part.scanReported_withPfu _ (p.pfu.scanned p.odu.direction x) rfl, Part.scanReported_missed]
        · rw [if_pos (by simpa using hg)] at hr0
          have h1 : p.scanRoute skip (e :: es) = ((p.scanRoute skip es).1, e :: (p.scanRoute skip es).2) := by
            rw [Part.scanRoute.eq_def]; simp [hb, hk, hg]
          rw [h1, ih p hp, hr0]
          rfl
    · have hb' : beyond p.odu.direction p.pfu.routeDistance e.distance = false := by simpa using hb
      have hr : r = ⟨e :: es, [], 0, p.pfu.missCount, p.pfu.position, false⟩ := by
        simp only [r]; rw [routeScan.eq_def]; simp [hb']
      have h1 : p.scanRoute skip (e :: es) = (p, e :: es) := by
        rw [Part.scanRoute.eq_def]; simp [hb']
      have : p.pfu.scanned p.odu.direction r = p.pfu := by
        rw [hr]; unfold Pfu.scanned; cases p.odu.direction <;> rfl
      rw [h1, this, hr]; rfl

theorem routeScan_kept_length (dir : Direction) (d : Int) (w thr : Nat) (skip : Bool) (l : List RouteEntry) :
    ∀ (y : PositionState) (m : Nat), (routeScan dir d w thr skip l y m).kept.length ≤ l.length := by
  induction l with
  | nil => intro y m; rfl
  | cons e es ih =>
    intro y m
    rw [routeScan.eq_def]
    simp only
    split
    · rfl
    · cases e.kind with
      | kpost km => exact Nat.le_succ_of_le (ih _ _)
      | marker c k =>
        simp only
        generalize (if y = PositionState.lost then 4 * (w : Int) else (w : Int)) = ww
        split
        · exact Nat.succ_le_succ (ih _ _)
        · split <;> exact Nat.le_succ_of_le (ih _ _)

/-- The Position Fixing Unit after an advance: what the scan leaves, and the low-water mark. -/
def Pfu.advanced (x : Pfu) (dir : Direction) (r : RouteScan) (low : Bool) : Pfu :=
  { x.scanned dir r with routeList := r.kept, lowArmed := x.lowArmed && !low }

theorem Part.routeAdvanced_eq (p : Part) (skip : Bool) :
    let x := routeScan p.odu.direction p.pfu.routeDistance p.oru.settings.matchWindow p.oru.settings.lostThreshold skip
      p.pfu.routeList p.pfu.position p.pfu.missCount
    let low := lowReached p.pfu.lowArmed p.pfu.routeList.length x.kept.length p.oru.settings.routeLowWater
    let q := (p.scanReported skip x.gone x.lost).withPfu (p.pfu.advanced p.odu.direction x low)
    p.routeAdvanced skip = if low = true then q.raise .routeLow else q := by
  intro x low q
  have h : q = (p.withPfu (p.pfu.advanced p.odu.direction x low)).scanReported skip x.gone x.lost :=
    (Part.scanReported_withPfu p (p.pfu.advanced p.odu.direction x low) rfl skip x.gone x.lost).symm
  rw [h]
  unfold Part.routeAdvanced Part.scanReported
  rfl

/-- The compare-and-advance of the route list, and the set advance, once a position is set (R62 to R64, R76, R80). -/
theorem Part.routeAdvance_eq (p : Part) (skip : Bool) (h : p.pfu.position ≠ .unset) :
    p.routeAdvance skip = p.routeAdvanced skip := by
  rw [Part.routeAdvanced_eq]
  unfold Part.routeAdvance
  simp only
  rw [Part.scanRoute_eq skip p.pfu.routeList p h]
  have hl := routeScan_kept_length p.odu.direction p.pfu.routeDistance p.oru.settings.matchWindow
    p.oru.settings.lostThreshold skip p.pfu.routeList p.pfu.position p.pfu.missCount
  simp only
  generalize routeScan p.odu.direction p.pfu.routeDistance p.oru.settings.matchWindow
    p.oru.settings.lostThreshold skip p.pfu.routeList p.pfu.position p.pfu.missCount = x at hl ⊢
  rw [Part.scanReported_withPfu _ (p.pfu.scanned p.odu.direction x) rfl, lowReached_eq _ _ _ _ hl]
  have hf := Part.scanReported_frame p skip x.gone x.lost
  generalize hlow : (p.pfu.lowArmed && !decide (x.kept.length = p.pfu.routeList.length) &&
    decide (x.kept.length ≤ p.oru.settings.routeLowWater)) = low
  generalize p.scanReported skip x.gone x.lost = q at hf ⊢
  by_cases he : x.kept.length = p.pfu.routeList.length
  · rw [if_pos he]
    have : low = false := by rw [← hlow]; simp [he]
    subst this
    rw [if_neg Bool.false_ne_true]
    unfold Pfu.advanced
    rw [Bool.not_false, Bool.and_true]
    rfl
  · rw [if_neg he]
    unfold Part.routeLowTest Pfu.advanced
    have hc : (p.pfu.lowArmed && decide (x.kept.length ≤ q.oru.settings.routeLowWater)) = low := by
      rw [← hlow, hf.2.2.2]; simp [he]
    cases low with
    | true => rw [if_pos (rfl : true = true), Bool.not_true, Bool.and_false]; exact if_pos hc
    | false => rw [if_neg Bool.false_ne_true, Bool.not_false, Bool.and_true]; exact if_neg (by rw [Bool.not_eq_true]; exact hc)

/-! ## Comparison and tick -/

/-- The speed of a tick (R55). -/
theorem tickSpeed_eq (p : Part) : tickSpeed p.oru.settings.recordSpacing p.time p.odu.history = p.speedOfTick := by
  unfold tickSpeed Part.speedOfTick
  cases p.odu.history with
  | nil => rfl
  | cons t l => rfl

/-- Run Control may be written before an event or after it. -/
theorem Part.raise_withRnc (p : Part) (e : Event) (x : Rnc) : (p.withRnc x).raise e = (p.raise e).withRnc x := by
  unfold Part.raise
  have a : (p.withRnc x).flagSet e = p.flagSet e := rfl
  have b : (p.withRnc x).noticeDue e = p.noticeDue e := rfl
  have d : (p.withRnc x).setFlag e = (p.setFlag e).withRnc x := rfl
  rw [a, b, d]
  split
  · rfl
  · split
    · unfold Part.offerNotice
      have f : ((p.setFlag e).withRnc x).rlu = (p.setFlag e).rlu := rfl
      rw [f]
      split <;> rfl
    · rfl

/-- What Run Control does at a tick (R154 to R156, R159). -/
theorem Part.runTick_eq (p : Part) : p.runTick p.time = p.runTicked := by
  unfold Part.runTick Part.runTicked
  cases hs : p.rnc.runState with
  | halted => rfl
  | armed => rfl
  | measuring =>
    have h : p = p.setRunState .measuring := by rw [← hs]; rfl
    exact congrArg (fun z : Part => z.startParkTimer p.time) h
  | parked =>
    simp only
    have h1 : ∀ y : Option Time, ({ p with rnc := { p.rnc with runState := .measuring, parkDeadline := y } } : Part).raise .parkChange =
        (p.raise .parkChange).withRnc { p.rnc with runState := .measuring, parkDeadline := y } := fun y => p.raise_withRnc _ _
    have h2 : (p.setRunState .measuring).raise .parkChange =
        (p.raise .parkChange).withRnc { p.rnc with runState := .measuring } := p.raise_withRnc _ _
    rw [h1, h2]
    have h3 : (p.raise .parkChange).time = p.time ∧ (p.raise .parkChange).oru = p.oru := by simp
    generalize p.raise .parkChange = q at h3 ⊢
    rw [← h3.1, ← h3.2]
    rfl

/-- One tick after its comparison (R45, R46). -/
theorem Part.tickOnce_eq (p : Part) (found : Bool) : p.nextBoundary.tickOnce found = p.tickDelivered found := by
  have ht : p.nextBoundary.tickData found =
      { time := p.time, speed := p.speedOfTick.1, slip := found || p.odu.slipCarried, saturated := p.speedOfTick.2 } := by
    rw [← tickSpeed_eq]; rfl
  unfold Part.tickOnce Part.tickDelivered Part.deliverTick Part.tickAdvance
  rw [ht]
  simp only
  have h1 : p.nextBoundary.speedTick
        { time := p.time, speed := p.speedOfTick.1, slip := found || p.odu.slipCarried, saturated := p.speedOfTick.2 } =
      (if p.speedOfTick.2 = true then Part.bump { p with odu := { p.odu with
          nextTick := satU64 (p.odu.nextTick + p.oru.settings.recordSpacing * 1000)
          slipCarried := false
          history := if p.odu.history.length < 8 then p.odu.history ++ [p.time] else (p.odu.history ++ [p.time]).drop 1
          lastSpeed := p.speedOfTick.1.map (fun x => ⟨x, p.time⟩) } } .speedSaturations
      else { p with odu := { p.odu with
          nextTick := satU64 (p.odu.nextTick + p.oru.settings.recordSpacing * 1000)
          slipCarried := false
          history := if p.odu.history.length < 8 then p.odu.history ++ [p.time] else (p.odu.history ++ [p.time]).drop 1
          lastSpeed := p.speedOfTick.1.map (fun x => ⟨x, p.time⟩) } }) := rfl
  rw [h1]
  have hq : ∀ q : Part, q.time = p.time →
      (if (if ((q.bump .ticks).runTick p.time).pfu.position = .unset then (q.bump .ticks).runTick p.time
          else (((q.bump .ticks).runTick p.time).routeAdvance false).sectionAdvance).rnc.runState = .measuring then
        (if ((q.bump .ticks).runTick p.time).pfu.position = .unset then (q.bump .ticks).runTick p.time
          else (((q.bump .ticks).runTick p.time).routeAdvance false).sectionAdvance).capture
            { time := p.time, speed := p.speedOfTick.1, slip := found || p.odu.slipCarried, saturated := p.speedOfTick.2 }
      else (if ((q.bump .ticks).runTick p.time).pfu.position = .unset then (q.bump .ticks).runTick p.time
          else (((q.bump .ticks).runTick p.time).routeAdvance false).sectionAdvance)) =
      (if (if (q.bump .ticks).runTicked.pfu.position = .unset then (q.bump .ticks).runTicked
          else ((q.bump .ticks).runTicked.routeAdvanced false).sectionsAdvanced).rnc.runState = .measuring then
        (if (q.bump .ticks).runTicked.pfu.position = .unset then (q.bump .ticks).runTicked
          else ((q.bump .ticks).runTicked.routeAdvanced false).sectionsAdvanced).captured p.speedOfTick.1
            (found || p.odu.slipCarried) p.speedOfTick.2
      else (if (q.bump .ticks).runTicked.pfu.position = .unset then (q.bump .ticks).runTicked
          else ((q.bump .ticks).runTicked.routeAdvanced false).sectionsAdvanced)) := by
    intro q hq
    have h2 : (q.bump .ticks).runTick p.time = (q.bump .ticks).runTicked := by
      rw [← Part.runTick_eq]; congr 1; exact hq.symm
    have h3 : (q.bump .ticks).runTicked.time = p.time := by rw [← h2]; simpa using hq
    rw [h2]
    generalize (q.bump .ticks).runTicked = r at h3 ⊢
    by_cases hu : r.pfu.position = .unset
    · rw [if_pos hu, if_pos hu]
      split
      · rw [Part.capture_eq _ _ h3.symm]
      · rfl
    · rw [if_neg hu, if_neg hu, ← Part.routeAdvance_eq r false hu, ← Part.sectionAdvance_eq]
      have h4 : ((r.routeAdvance false).sectionAdvance).time = p.time := by simpa using h3
      split
      · rw [Part.capture_eq _ _ h4.symm]
      · rfl
  exact hq _ (by split <;> rfl)

end Sys2Proof.Machine
end

