-- ==== Sys2Proof/Tests/Slice0.lean ====
section
/-! SUPPORT. The author's own tests: ill-formed commands refused, words and checks worked out apart from the model, one small step for the families of commands, and for every statement with hypotheses a state that meets them. -/

namespace Sys2Proof.Tests

-- One test after the other: each waits for the kernel, and in the package as one text they would wait side by side.
set_option Elab.async false

open Sys2Proof Sys2Proof.Machine

/-! ## Helpers -/

/-- The data characters of some bytes. -/
def chars (bytes : List Byte) : List LineChar := bytes.map LineChar.data

/-- The characters after FRAME START of a frame of some bytes. -/
def framed (bytes : List Byte) : List LineChar := chars bytes ++ [.frameEnd]

/-- The part after one command. -/
def after (c : Instr) (p : Part) : Part :=
  match exec c ⟨p, []⟩ with
  | .next t => t.part
  | _ => p

/-- The reset part with the head link LOCKED. -/
def locked : Part := { Part.reset with hlu := { Hlu.reset with locked := true } }

/-- The reset part with the recorder link UP. -/
def up : Part := { Part.reset with rlu := { Rlu.reset with link := .up } }

/-- A part with one order body in its buffer. -/
def ordered (p : Part) (body : List Byte) : Part := { p with oru := { p.oru with buffer := [body] } }

/-- A part in a run state. -/
def running (x : RunState) (p : Part) : Part := { p with rnc := { p.rnc with runState := x } }

/-- A part in a position state. -/
def placed (x : PositionState) (p : Part) : Part := { p with pfu := { p.pfu with position := x } }

/-- A part with one head's record changed. -/
def headed (h : Head) (f : HeadRecord → HeadRecord) (p : Part) : Part :=
  { p with hlu := { p.hlu with heads := p.hlu.heads.set h (f p.hlu.heads[h]) } }

/-- The data of the last reply of the control queue, with its result. -/
def lastReply (p : Part) : Option (Result × List Byte) :=
  match p.rlu.control.getLast? with
  | some (.reply _ _ r d) => some (r, d)
  | _ => none

/-! ## Characters, checks and headers, worked out apart from the model -/

theorem test_lineCharacters :
    lineCharOf 0b0110100101#10 = .data 0xA5#8 ∧ lineCharOf 0b1001010101#10 = .idle ∧
    lineCharOf 0b1011110000#10 = .frameStart ∧ lineCharOf 0b1000001111#10 = .frameEnd ∧
    lineCharOf 0b1000000000#10 = .violation ∧ lineCharOf 0b0001010101#10 = .violation ∧
    lineCharOf 0b1111110000#10 = .violation := by decide

theorem test_crcOfDigits : crc16 [0x31, 0x32, 0x33, 0x34, 0x35, 0x36, 0x37, 0x38, 0x39] = 0x29B1#16 := by
  decide +kernel

theorem test_headerWords :
    encodeHeader ⟨3, .sample, 200, 0b00010011⟩ = 0x33204C3F#32 ∧
    encodeHeader ⟨8, .reply, 0x5A, 32⟩ = 0x8D6880E8#32 ∧
    decodeHeader 0x33204C3F#32 = some (⟨3, .sample, 200, 0b00010011⟩, false) ∧
    decodeHeader 0x33204C3E#32 = some (⟨3, .sample, 200, 0b00010011⟩, true) ∧
    decodeHeader 0xB3204C3F#32 = some (⟨3, .sample, 200, 0b00010011⟩, true) ∧
    decodeHeader 0xB3204C3E#32 = none := by decide +kernel

theorem test_impossibleHeaders :
    decodeHeader (encodeHeader ⟨3, .sample, 0, 0b10001000⟩) = none ∧
    decodeHeader (encodeHeader ⟨3, .status, 0, 1⟩) = none ∧
    decodeHeader (encodeHeader ⟨3, .reply, 0, 33⟩) = none := by decide +kernel

theorem test_noTableWords : decodeTableWord 32 0 = none := rfl

/-! ## Ill-formed commands are refused -/

/-- A STATUS frame of head 3: HEAD FAULT and flag 2, sequence 17. -/
def statusBytes : List Byte := [0x38, 0x44, 0x00, 0xAB, 0x05, 0x00, 0x06, 0x28]

/-- A SAMPLE frame of head 3: one channel, one sample of 500, sequence 200. -/
def sampleBytes : List Byte := [0x33, 0x20, 0x20, 0x11, 0x01, 0xF4, 0x38, 0x7F]

/-- A MARKER frame of head 2 with the code 1A0301. -/
def markerBytes : List Byte := [0x24, 0x1C, 0x00, 0x43, 0x00, 0x1A, 0x03, 0x01, 0x1E, 0x41]

/-- A REPLY frame of head 4: relay tag 2A, two reply bytes. -/
def replyBytes : List Byte := [0x4C, 0x24, 0x08, 0xE1, 0x2A, 0x11, 0x22, 0xC8, 0xF6]

/-- A STATUS frame of the foreign address 9. -/
def foreignBytes : List Byte := [0x98, 0x04, 0x00, 0xA0, 0x00, 0x00, 0xF9, 0x6C]

theorem test_frameRowsAccept :
    WellFormed (.statusFrame (framed statusBytes)) = true ∧ WellFormed (.sampleFrame (framed sampleBytes)) = true ∧
    WellFormed (.markerFrame (framed markerBytes)) = true ∧ WellFormed (.replyFrame (framed replyBytes)) = true ∧
    WellFormed (.orderFrame (framed (outboundBytes 16 [1, 7]))) = true ∧
    WellFormed (.creditFrame (framed (outboundBytes 17 [200]))) = true ∧
    WellFormed (.unknownKind (framed (outboundBytes 18 [1]))) = true := by decide +kernel

theorem test_frameOfAnotherKindRefused :
    WellFormed (.sampleFrame (framed statusBytes)) = false ∧ WellFormed (.markerFrame (framed sampleBytes)) = false ∧
    WellFormed (.statusFrame (framed markerBytes)) = false ∧ WellFormed (.replyFrame (framed statusBytes)) = false := by
  decide +kernel

theorem test_charactersAfterTheEndRefused :
    WellFormed (.statusFrame (framed statusBytes ++ [.idle])) = false ∧
    WellFormed (.orderFrame (framed [16] ++ [.data 0])) = false ∧
    WellFormed (.creditFrame [.violation, .data 17]) = false ∧ WellFormed (.unknownKind [.frameEnd, .frameEnd]) = false := by
  decide +kernel

theorem test_frameStartInsideRefused :
    WellFormed (.statusFrame (chars statusBytes ++ [.frameStart])) = false ∧
    WellFormed (.orderFrame (chars [16] ++ [.frameStart])) = false := by decide +kernel

theorem test_recorderKindsRefused :
    WellFormed (.orderFrame (framed (outboundBytes 17 [1, 7]))) = false ∧
    WellFormed (.creditFrame (framed (outboundBytes 16 [200]))) = false ∧
    WellFormed (.unknownKind (framed (outboundBytes 16 [1]))) = false ∧
    WellFormed (.unknownKind (framed (outboundBytes 17 [1]))) = false := by decide +kernel

/-! ## Small steps -/

theorem test_recorderFrameBytes :
    outboundBytes 16 [1, 7] = [0x10, 0x00, 0x02, 0x01, 0x07, 0x38, 0xE0] ∧
    outboundBytes 17 [200] = [0x11, 0x00, 0x01, 0xC8, 0x82, 0xA6] := by decide +kernel

theorem test_orderFrameFillsTheBuffer :
    (after (.orderFrame (framed [0x10, 0x00, 0x02, 0x01, 0x07, 0x38, 0xE0])) up).oru.buffer = [[1, 7]] := by
  decide +kernel

theorem test_creditFrameAddsCredit :
    (after (.creditFrame (framed [0x11, 0x00, 0x01, 0xC8, 0x82, 0xA6])) up).rlu.credits = 200 := by decide +kernel

theorem test_unknownKindCounted :
    (after (.unknownKind (framed [0x12, 0x00, 0x01, 0x01, 0x51, 0x1F])) up).counter .unknownKinds = 1 := by
  decide +kernel

theorem test_statusFrameSetsFlags :
    let p := after (.statusFrame (framed statusBytes)) locked
    (p.hlu.heads[2]).status = 5#8 ∧ (p.hlu.heads[2]).state = .acquiring ∧ (p.hlu.heads[2]).goodRun = 1 ∧
      (p.hlu.heads[2]).lastSequence = some 17#8 ∧ (p.hlu.heads[2]).watchdog = some 1000#32 := by decide +kernel

theorem test_sampleFrameHoldsTheMean :
    let p := { locked with oru := { Oru.reset with settings := { Settings.default with
      shapes := Settings.default.shapes.set (2 : Fin 8) ⟨1, 1⟩ } } }
    ((after (.sampleFrame (framed sampleBytes)) p).hlu.heads[2]).held = some ⟨0, [500]⟩ := by decide +kernel

theorem test_sampleFrameOfAnotherShape :
    let p := after (.sampleFrame (framed sampleBytes)) locked
    (p.hlu.heads[2]).score = 8 ∧ p.counter (.shapeMismatches 2) = 1 ∧ (p.hlu.heads[2]).held = none := by
  decide +kernel

theorem test_foreignAddressCounted :
    (after (.statusFrame (framed foreignBytes)) locked).counter .foreignAddress = 1 := by decide +kernel

theorem test_framesAreNotReadInTheHunt :
    (after (.statusFrame (framed statusBytes)) Part.reset).hlu.heads = Part.reset.hlu.heads := by decide +kernel

theorem test_encoderStepMovesTheCar :
    let p := after (.encoderStep .e1 true false) (placed .deadReckoned Part.reset)
    p.odu.ahead = 2822 ∧ p.odu.high = 2822 ∧ p.pfu.routeDistance = 2 ∧ p.odu.residue = 822 := by decide +kernel

theorem test_encoderStepBack :
    let p := after (.encoderStep .e1 false true) (placed .deadReckoned Part.reset)
    p.odu.ahead = -2822 ∧ p.odu.high = 0 ∧ p.pfu.routeDistance = -3 ∧ p.odu.residue = 178 := by decide +kernel

theorem test_tickStartsTheRun :
    let p := after .tick (running .armed (placed .deadReckoned
      { Part.reset with odu := { Odu.reset with ahead := 250000, high := 250000 } }))
    p.rnc.runState = .measuring ∧ p.tru.nextSeq = 1 ∧ p.tru.window.length = 1 ∧ p.odu.nextTick = 500000 ∧
      p.rnc.parkDeadline = some 5000000#32 := by decide +kernel

theorem test_identifyAnswersTwentySevenBytes :
    (after .identify (ordered up [1, 7])).rlu.control.length = 2 ∧
    (lastReply (after .identify (ordered up [1, 7]))).map (fun x => x.2.length) = some 27 := by decide +kernel

theorem test_getOfTheDefaultSpacing :
    lastReply (after .get (ordered up [3, 1, 1, 0])) = some (.done, [1, 0, 0, 0, 0, 250]) := by decide +kernel

theorem test_recordSpacingOfTheManualsExample :
    let p := { up with odu := { Odu.reset with ahead := 750400, high := 750400, nextTick := 1000000 } }
    (after .setRecordSpacing (ordered p [2, 0, 1, 0, 0, 0, 3, 232])).odu.nextTick = 1000000 ∧
    (after .set (ordered p [2, 0, 1, 0, 0, 0, 3, 232])).oru.settings.recordSpacing = 1000 := by decide +kernel

theorem test_limitRowsRunPastTheEnd :
    lastReply (after .writeLimits (ordered up ([10, 0, 60, 6] ++ List.replicate 84 0))) = some (.badValue, [4]) := by
  decide +kernel

theorem test_gradesOfTheManualsExamples :
    LimitRow.grade ⟨⟨none, some 60, none⟩, Thresholds.absent, 0, 0⟩ 70 = 2 ∧
    LimitRow.grade ⟨⟨some 70, none, some 90⟩, Thresholds.absent, 0, 0⟩ 70 = 1 ∧
    LimitRow.grade ⟨Thresholds.absent, ⟨some 10, none, none⟩, 0, 0⟩ (-32767) = 1 ∧
    LimitRow.releaseLevel ⟨Thresholds.absent, ⟨some 10, none, none⟩, 4, 0⟩ .minus = 6 := by decide +kernel

theorem test_wrongLengthAndUnknownCode :
    lastReply (after .get (ordered up [3, 1, 1])) = some (.badLength, []) ∧
    lastReply (after .unknownOrder (ordered up [21, 1])) = some (.unknownOrder, []) := by decide +kernel

theorem test_setNoticeMaskAssertsTheAlert :
    (after .setNoticeMask (ordered up ([17, 0, 0, 0, 0, 1] ++ List.replicate 16 0))).alert = true := by decide +kernel

theorem test_arbiterSendsTheReadyNotice :
    ((after .arbiterStart { up with rlu := { up.rlu with credits := 1 } }).rlu.tx.map (fun t => t.bytes.take 3)) =
      some [4, 0, 13] := by decide +kernel

theorem test_restartPlacesItsNotice :
    (after .restart (ordered up [20, 5])).rlu.control = [.status 20 1#20 0 0] := by decide +kernel

theorem test_resetMeetsTheQueueBounds : Part.reset.QueuesBounded := by
  unfold Part.QueuesBounded Part.ReservationsMatch
  decide


/-! ## States that meet the hypotheses of the statements -/

/-- The reset part with RESET_N held low. -/
def heldLow : Part := { Part.reset with resetHeld := true }

/-- The reset part hunting on the head link with an idle run. -/
def hunting (n : Nat) : Part := { Part.reset with hlu := { Hlu.reset with idleRun := n } }

/-- A locked head link whose receiver stands somewhere. -/
def receiving (x : HeadRx) : Part := { locked with hlu := { locked.hlu with rx := x } }

theorem test_meets_EmptyQueueStep :
    ((⟨heldLow, []⟩ : State).pending = [] ∧ heldLow.resetHeld = true) ∧
    (Part.reset.resetHeld = false ∧ Part.reset.due = none) ∧
    ((hunting 32).resetHeld = false ∧ (hunting 32).due = some .headLinkLock) := by decide +kernel

theorem test_meets_HardResetState :
    (1000 ≤ 1000 ∧ 999 < 1000) ∧ heldLow.resetHeld = true ∧ Part.reset.resetHeld = false := by decide

theorem test_meets_HeldResetFreezes :
    heldLow.resetHeld = true ∧ Instr.tick ≠ .resetNRisingEdge ∧ (∀ x, Instr.tick ≠ .hardReset x) ∧
      (∀ e a b, Instr.tick ≠ .encoderStep e a b) := by
  refine ⟨rfl, by decide, ?_, ?_⟩ <;> intros <;> simp

theorem test_meets_HuntAndLock :
    ((hunting 31).resetHeld = false ∧ (hunting 31).hlu.locked = false ∧ (hunting 31).hlu.idleRun < 32) ∧
    ((hunting 32).resetHeld = false ∧ (hunting 32).hlu.locked = false ∧ 32 ≤ (hunting 32).hlu.idleRun) ∧
    ((after (.headLinkCharacter 0b1011110000#10) (hunting 32)).hlu.locked = true) ∧
    ((receiving .stray).hlu.locked = true ∧ (receiving .stray).hlu.rx = .stray ∧ lineCharOf 0b1001010101#10 = .idle) ∧
    ((receiving .outside).hlu.rx = .outside) := by decide +kernel

theorem test_meets_HeadLossOfSignal :
    (locked.resetHeld = false ∧ locked.hlu.locked = true) ∧
    (((headed 2 (fun r => { r with state := .qualified }) locked).hlu.heads[2]).state.proven = true) ∧
    ((hunting 32).resetHeld = false ∧ 32 ≤ (hunting 32).hlu.idleRun ∧
      (after .headLinkLossOfSignal (hunting 32)).counter .lockLosses = 1) ∧
    ((hunting 31).resetHeld = false ∧ (hunting 31).hlu.locked = false ∧ (hunting 31).hlu.idleRun < 32 ∧
      (after .headLinkLossOfSignal (hunting 31)).counter .lockLosses = 0) := by decide +kernel

/-- The header of `statusBytes`. -/
def statusHeader : Header := ⟨3, .status, 17, 0⟩

theorem test_meets_FramingErrors :
    ((receiving .outside).resetHeld = false ∧ (receiving .outside).hlu.locked = true ∧
      (receiving .outside).hlu.rx = .outside ∧ lineCharOf 0b1000001111#10 = .frameEnd ∧
      lineCharOf 0b0100000000#10 = .data 0) ∧
    ((receiving (.inFrame [] none)).hlu.rx = .inFrame [] none ∧ lineCharOf 0b1011110000#10 = .frameStart ∧
      lineCharOf 0b0000000000#10 = .violation) ∧
    ((statusBytes.take 7).length < statusHeader.impliedLength ∧ statusHeader.impliedLength ≤ statusBytes.length) ∧
    (min (Part.reset.hlu.linkErrors + 1) 15 < Part.reset.oru.settings.headErrorThreshold) ∧
    (Part.reset.oru.settings.headErrorThreshold ≤ min (2 + 1) 15) ∧
    (((headed 2 (fun r => { r with state := .suspect }) (receiving .outside)).hlu.heads[2]).state.proven = true ∧
      ∀ h : Head, ((receiving .outside).hlu.heads[h]).state.proven = false) := by decide +kernel

theorem test_meets_FramingErrors_header :
    ((receiving (.inFrame [0xB3, 0x20, 0x4C] none)).hlu.locked = true ∧ lineCharOf 0b0100111110#10 = .data 0x3E#8 ∧
      decodeHeader (headerWord [0xB3, 0x20, 0x4C, 0x3E]) = none) ∧
    (let p := after (.headLinkCharacter 0b0100111110#10) (receiving (.inFrame [0xB3, 0x20, 0x4C] none))
     p.hlu.rx = .passing ∧ p.hlu.linkErrors = 1 ∧ p.counter .uncorrectableHeaders = 1 ∧ p.counter .framingErrors = 0) := by
  decide +kernel

/-- A head record in a state with a score and a good run. -/
def record (x : HeadState) (score goodRun : Nat) : HeadRecord :=
  { HeadRecord.reset with state := x, score := score, goodRun := goodRun }

theorem test_meets_QualificationTable :
    ∀ r ∈ [record .absent 96 0, record .acquiring 246 1023, record .qualified 247 3, record .suspect 64 4,
      record .excluded 255 1022, record .excluded 255 1023], r.Legal := by
  unfold HeadRecord.Legal
  decide

theorem test_sequenceGaps :
    sequenceGap (some 250) 251 = 0 ∧ sequenceGap (some 250) 3 = 8 ∧ sequenceGap (some 7) 7 = 255 := by decide

/-- What shows a whole frame of a known head, in one decidable condition. -/
def wholeFrame (p : Part) (bytes : List Byte) (hd : Header) (corrected : Bool) : Bool :=
  !p.resetHeld && p.hlu.locked && p.hlu.rx == .outside && decodeHeader (headerWord bytes) == some (hd, corrected) &&
    bytes.length == hd.impliedLength && (chars bytes).all LineChar.inside && dataBytes (chars bytes) == bytes

theorem takes_of_wholeFrame {p : Part} {bytes : List Byte} {hd : Header} {c : Bool} (h : wholeFrame p bytes hd c = true) :
    p.TakesHeadFrame (framed bytes) bytes hd c := by
  simp only [wholeFrame, Bool.and_eq_true, Bool.not_eq_true', beq_iff_eq] at h
  obtain ⟨⟨⟨⟨⟨⟨h1, h2⟩, h3⟩, h4⟩, h5⟩, h6⟩, h7⟩ := h
  exact ⟨h1, h2, by simp [h3], ⟨chars bytes, rfl, h6, h7⟩, h4, h5⟩

/-- The locked part with head 3 set to one channel of one sample. -/
def shaped : Part := { locked with oru := { Oru.reset with settings := { Settings.default with
  shapes := Settings.default.shapes.set (2 : Fin 8) ⟨1, 1⟩ } } }

theorem test_meets_SampleFrameHeld :
    shaped.TakesValidFrame (framed sampleBytes) sampleBytes ⟨3, .sample, 200, 8⟩ false 2 :=
  ⟨takes_of_wholeFrame (by decide +kernel), by decide +kernel, by decide +kernel, fun _ => by decide +kernel⟩

theorem test_meets_SampleFrameHeld_mean :
    0 < 1 ∧ (payloadOf sampleBytes).length = 2 * (1 * 1) ∧ channelMean (payloadOf sampleBytes) 1 1 0 = 500 ∧
    1 < 2 ∧ ([0xFF, 0xFB, 0, 3, 0, 0, 0, 2] : List Byte).length = 2 * (2 * 2) ∧
      channelMean [0xFF, 0xFB, 0, 3, 0, 0, 0, 2] 2 2 0 = -2 ∧ channelMean [0xFF, 0xFB, 0, 3, 0, 0, 0, 2] 2 2 1 = 2 := by
  decide +kernel

theorem test_meets_StatusFrameTaken :
    locked.TakesValidFrame (framed statusBytes) statusBytes statusHeader false 2 :=
  ⟨takes_of_wholeFrame (by decide +kernel), by decide +kernel, by decide +kernel, fun h => by cases h⟩

/-- The locked part that mirrors head 3, with some copies in its mirror queue. -/
def mirroring (n : Nat) : Part :=
  { locked with
    rlu := { Rlu.reset with mirror := List.replicate n ⟨2, .status, statusBytes⟩ }
    oru := { Oru.reset with settings := { Settings.default with mirrors := Settings.default.mirrors.set (2 : Fin 8) true } } }

theorem test_meets_StatusFrameTaken_mirror :
    ((mirroring 8).TakesValidFrame (framed statusBytes) statusBytes statusHeader false 2 ∧
      (mirroring 8).oru.settings.mirrors[2] = true) ∧
    (after (.statusFrame (framed statusBytes)) (mirroring 7)).rlu.mirror.length = 8 ∧
    (after (.statusFrame (framed statusBytes)) (mirroring 7)).counter .mirrorDrops = 0 ∧
    (after (.statusFrame (framed statusBytes)) (mirroring 8)).counter .mirrorDrops = 1 := by
  refine ⟨⟨⟨takes_of_wholeFrame ?_, ?_, ?_, fun h => by cases h⟩, ?_⟩, ?_, ?_, ?_⟩ <;> decide +kernel

/-- The header of `markerBytes`. -/
def markerHeader : Header := ⟨2, .marker, 7, 0⟩

/-- The locked part with marker head 2, head 2 QUALIFIED, DEAD_RECKONED at one end of the window of its one route entry. -/
def markerPart (status : BitVec 8) (x : HeadState) (route : Int) : Part :=
  let p := headed 1 (fun r => { r with state := x, status := status }) locked
  { p with
    pfu := { p.pfu with
      position := .deadReckoned
      routeDistance := route
      routeList := [⟨100000, .marker 0x1A0301 0⟩] }
    oru := { p.oru with settings := { Settings.default with markerHead := 2 } } }

theorem marker_taken (status : BitVec 8) (x : HeadState) (route : Int) :
    (markerPart status x route).TakesValidFrame (framed markerBytes) markerBytes markerHeader false 1 :=
  ⟨takes_of_wholeFrame (by
      have h : wholeFrame locked markerBytes markerHeader false = true := by decide +kernel
      exact h), by decide +kernel, by decide +kernel, fun h => by cases h⟩

theorem test_meets_MarkerFrameUndelivered :
    (locked.TakesValidFrame (framed markerBytes) markerBytes markerHeader false 1 ∧
      (locked.oru.settings.markerHead != 2) = true) ∧
    ((markerPart 0 .acquiring 0).TakesValidFrame (framed markerBytes) markerBytes markerHeader false 1 ∧
      ((markerPart 0 .acquiring 0).goodRecord 1 7).state.proven = false) ∧
    ((markerPart 1 .qualified 0).TakesValidFrame (framed markerBytes) markerBytes markerHeader false 1 ∧
      ((markerPart 1 .qualified 0).goodRecord 1 7).status.getLsbD 0 = true) :=
  ⟨⟨⟨takes_of_wholeFrame (by decide +kernel), by decide +kernel, by decide +kernel, fun h => by cases h⟩, by decide +kernel⟩,
    ⟨marker_taken _ _ _, by decide +kernel⟩, ⟨marker_taken _ _ _, by decide +kernel⟩⟩

/-- The conditions under which the first route entry matches, at a route distance. -/
def matchesAt (route : Int) : Bool :=
  let p := markerPart 0 .qualified route
  let r := p.goodRecord 1 7
  p.oru.settings.markerHead == 2 && r.state.proven && !r.status.getLsbD 0 && p.pfu.position != .unset &&
    p.pfu.routeList == [⟨100000, .marker 0x1A0301 0⟩] &&
    (BitVec.ofNat 32 (natOfBytes (payloadOf markerBytes)) ^^^ 0x1A0301#32) &&& ~~~0#32 == 0#32 &&
    decide (100000 - (p.oru.settings.matchWindow : Int) ≤ p.pfu.routeDistance) &&
    decide (p.pfu.routeDistance ≤ 100000 + (p.oru.settings.matchWindow : Int))

theorem test_meets_MarkerFrameFixes :
    (markerPart 0 .qualified 70000).TakesValidFrame (framed markerBytes) markerBytes markerHeader false 1 ∧
      matchesAt 70000 = true ∧ matchesAt 130000 = true ∧ matchesAt 69999 = false :=
  ⟨marker_taken _ _ _, by decide +kernel, by decide +kernel, by decide +kernel⟩

/-- The marker part in a position state, at route distance 100000, with a route list. -/
def routed (x : PositionState) (l : List RouteEntry) : Part :=
  { markerPart 0 .qualified 100000 with pfu := { Pfu.reset with position := x, routeDistance := 100000, routeList := l } }

theorem routed_taken (x : PositionState) (l : List RouteEntry) :
    (routed x l).TakesValidFrame (framed markerBytes) markerBytes markerHeader false 1 :=
  ⟨takes_of_wholeFrame (by
      have h : wholeFrame locked markerBytes markerHeader false = true := by decide +kernel
      exact h), by decide +kernel, by decide +kernel, fun h => by cases h⟩

/-- A route entry with the code of `markerBytes` at a distance, and one with another code. -/
def wanted (d : Int) : RouteEntry := ⟨d, .marker 0x1A0301 0⟩
def other (d : Int) : RouteEntry := ⟨d, .marker 0x1A0302 0⟩

theorem test_meets_MarkerFrameFixes_list :
    (BitVec.ofNat 32 (natOfBytes (payloadOf markerBytes)) ^^^ 0x1A0302#32) &&& ~~~0#32 ≠ 0#32 ∧
    (routed .lost [other 100000, other 100001, ⟨100002, .kpost 1⟩, wanted 220000]).pfu.routeList =
      [other 100000, other 100001, ⟨100002, .kpost 1⟩] ++ wanted 220000 :: [] ∧
    [other 100000, other 100001, ⟨100002, .kpost 1⟩].countP RouteEntry.isMarker = 2 ∧
    (after (.markerFrame (framed markerBytes)) (routed .unset [wanted 100000])).counter .unsetMarkers = 1 ∧
    (after (.markerFrame (framed markerBytes))
      (routed .deadReckoned [other 100000, other 100001, wanted 100002])).counter .unknownMarkers = 1 ∧
    (let p := after (.markerFrame (framed markerBytes))
      (routed .lost [other 100000, other 100001, ⟨100002, .kpost 1⟩, wanted 220000])
     p.pfu.routeDistance = 220000 ∧ p.pfu.position = .fixed ∧ p.counter .missedMarkers = 2 ∧ p.counter .fixes = 1 ∧
       p.pfu.routeList = [] ∧ p.pfu.lastPost = some ⟨100002, 1⟩ ∧ p.pfu.pendingCorrection = some 120000) := by
  decide +kernel

theorem test_markersMissedByAnAdvance :
    let p := (routed .fixed [other 69998, ⟨69999, .kpost 3⟩, other 70000, wanted 200000]).routeAdvanced false
    p.pfu.routeList = [other 70000, wanted 200000] ∧ p.pfu.position = .uncertain ∧ p.pfu.missCount = 1 ∧
      p.pfu.lastPost = some ⟨69999, 3⟩ ∧ p.counter .missedMarkers = 1 ∧ p.flagSet .markerMissed = true ∧
      p.flagSet .positionLost = false := by decide +kernel

/-- The header of `replyBytes`. -/
def replyHeader : Header := ⟨4, .reply, 9, 2⟩

/-- The locked part with a relay outstanding for a head and tag, and its reservation. -/
def relaying (h : Head) (tag : BitVec 8) (deadline : Option Time) : Part :=
  { locked with
    hlu := { locked.hlu with relay := some ⟨h, tag, deadline, 20⟩ }
    rlu := { Rlu.reset with reservations := 1 }
    oru := { Oru.reset with headReservation := some ⟨19, 5⟩ } }

theorem test_meets_ReplyFrameMatched :
    ((relaying 3 0x2A none).TakesValidFrame (framed replyBytes) replyBytes replyHeader false 3 ∧
      (payloadOf replyBytes).getD 0 0#8 = 0x2A#8) ∧
    ((relaying 3 0x2B none).TakesValidFrame (framed replyBytes) replyBytes replyHeader false 3 ∧
      (relaying 2 0x2A none).TakesValidFrame (framed replyBytes) replyBytes replyHeader false 3) ∧
    (locked.TakesValidFrame (framed replyBytes) replyBytes replyHeader false 3 ∧ locked.hlu.relay = none) := by
  refine ⟨⟨⟨takes_of_wholeFrame ?_, ?_, ?_, ?_⟩, ?_⟩, ⟨⟨takes_of_wholeFrame ?_, ?_, ?_, ?_⟩, ⟨takes_of_wholeFrame ?_, ?_, ?_, ?_⟩⟩,
    ⟨takes_of_wholeFrame ?_, ?_, ?_, ?_⟩, rfl⟩ <;> decide +kernel

/-- `statusBytes` with a wrong payload CRC. -/
def badBytes : List Byte := statusBytes.take 6 ++ [0, 0]

theorem test_meets_DiscardedFrames :
    (locked.TakesHeadFrame (framed foreignBytes) foreignBytes ⟨9, .status, 1, 0⟩ false ∧
      Header.head? ⟨9, .status, 1, 0⟩ = none) ∧
    (locked.TakesHeadFrame (framed badBytes) badBytes statusHeader false ∧ statusHeader.head? = some 2 ∧
      payloadCrcOk badBytes = false) ∧
    (locked.TakesHeadFrame (framed sampleBytes) sampleBytes ⟨3, .sample, 200, 8⟩ false ∧
      payloadCrcOk sampleBytes = true ∧ locked.oru.settings.shapes[(2 : Head)] ≠ ⟨1, 1⟩) := by
  refine ⟨⟨takes_of_wholeFrame ?_, ?_⟩, ⟨takes_of_wholeFrame ?_, ?_, ?_⟩, ⟨takes_of_wholeFrame ?_, ?_, ?_⟩⟩ <;> decide +kernel

theorem test_meets_DiscardedFrames_header :
    (locked.hlu.rx = .outside ∧ 4 ≤ ([0xB3, 0x20, 0x4C, 0x3E, 0, 0] : List Byte).length ∧
      decodeHeader (headerWord [0xB3, 0x20, 0x4C, 0x3E, 0, 0]) = none ∧
      dataBytes (chars [0xB3, 0x20, 0x4C, 0x3E, 0, 0]) = [0xB3, 0x20, 0x4C, 0x3E, 0, 0]) ∧
    (let p := after (.sampleFrame (framed [0xB3, 0x20, 0x4C, 0x3E, 0, 0])) locked
     p.hlu.rx = .passing ∧ p.hlu.linkErrors = 1 ∧ p.counter .uncorrectableHeaders = 1) := by decide +kernel

theorem test_meets_DiscardedFrames_exclusion :
    (((headed 2 (fun r => { r with score := 247 }) locked).hlu.heads[2]).bad false).state = .excluded ∧
    (after (.statusFrame (framed badBytes)) (headed 2 (fun r => { r with score := 247 }) locked)).counter (.exclusions 2) = 1 ∧
    (after (.statusFrame (framed badBytes)) locked).counter (.exclusions 2) = 0 := by decide +kernel

theorem test_meets_HeadDeadlines :
    let p := headed 0 (fun r => { r with state := .qualified, watchdog := some 0 }) locked
    (p.resetHeld = false ∧ (p.hlu.heads[0]).watchdog = some 0#32 ∧ (p.time - 0).toNat < 2 ^ 31 ∧ p.rnc.runState ≠ .parked) ∧
    (locked.hlu.heads[0]).watchdog = none ∧ (2 ^ 31 ≤ (p.time - 1).toNat) ∧
    (({ Shu.reset with freshness := Shu.reset.freshness.set 0 (some 0) } : Shu).freshness[0] = some 0#32) ∧
    Shu.reset.freshness[0] = none := by decide +kernel

/-- A relay frame on the reverse line, for the slot or for none. -/
def onLine (forSlot : Bool) (p : Part) : Part :=
  { p with hlu := { p.hlu with relayLine := [⟨[4, 0, 1, 9, 0, 0], 8, forSlot⟩] } }

theorem test_meets_RelayDeadline :
    ((onLine true (relaying 3 0 none)).resetHeld = false ∧ (onLine true (relaying 3 0 none)).hlu.relay = some ⟨3, 0, none, 20⟩ ∧
      (onLine true (relaying 3 0 none)).hlu.relayLine.map RelayFrame.forSlot = [true]) ∧
    ((onLine false locked).hlu.relayLine.map RelayFrame.forSlot = [false] ∧ locked.hlu.relayLine = []) ∧
    ((relaying 3 0 (some 0)).hlu.relay = some ⟨3, 0, some 0, 20⟩ ∧ ((relaying 3 0 (some 0)).time - 0).toNat < 2 ^ 31 ∧
      (relaying 3 0 (some 0)).oru.headReservation = some ⟨19, 5⟩) ∧
    (2 ^ 31 ≤ ((relaying 3 0 (some 1)).time - 1).toNat) := by decide +kernel

theorem test_meets_EncoderSteps :
    let p := placed .fixed Part.reset
    (p.resetHeld = false ∧ p.odu.reversalDue = false ∧ p.odu.high < p.odu.nextTick ∧
      (p.odu.channel (otherEncoder p.odu.active)).window < p.oru.settings.recordSpacing * 2000) ∧
    (p.odu.active = .e1 ∧ p.pfu.position ≠ .unset ∧ Part.reset.pfu.position = .unset ∧
      [(false, false, true, false)].contains (p.odu.e1.phaseA, p.odu.e1.phaseB, true, false) = true) ∧
    (-2147483648000 ≤ p.pfu.routeDistance * 1000 + p.odu.residue - 2822 ∧
      2147483647999 < (2147483647 : Int) * 1000 + p.odu.residue + 2822) := by decide +kernel

/-- The shaped part with head 3 proven and a fresh held frame of one mean. -/
def fresh : Part :=
  let p := headed 2 (fun r => { r with state := .suspect, held := some ⟨0, [500]⟩ }) shaped
  { p with shu := { p.shu with freshness := p.shu.freshness.set (2 : Fin 8) (some 1) } }

theorem test_meets_SourcesOfACapture :
    (fresh.sourceUsable ⟨2, 0, 4096, 0⟩ = true ∧ (fresh.hlu.heads[(2 : Head)]).held = some ⟨0, [500]⟩) ∧
    (fresh.sourceUsable ⟨1, 0, 4096, 0⟩ = false ∧ fresh.sourceUsable ⟨2, 1, 4096, 0⟩ = false) := by decide +kernel

/-- Two times of two channels, the means toward zero; and a capture above and below the minimum speed, whose standby comes from a SUSPECT head. -/
theorem test_meets_SourcesOfACapture_entry :
    ((List.range 2).map (channelMean [0, 1, 255, 255, 0, 4, 255, 254] 2 2) = [2, -1] ∧
      ([0, 1, 255, 255, 0, 4, 255, 254] : List Byte).length = 2 * (2 * 2)) ∧
    (let p : Part := { fresh with shu := { fresh.shu with
        map := fresh.shu.map.set (3 : Fin 7) (some ⟨⟨1, 0, 4096, 0⟩, some ⟨2, 0, 8192, 7⟩⟩) } }
      let e := p.entryOf ⟨0, some 50, false, false⟩
      let f := p.entryOf ⟨0, some 49, false, false⟩
      e.channels[3] = some ⟨1007, .standby⟩ ∧ e.flags.standbyUsed = true ∧ e.flags.suspectSource = true ∧
        e.flags.belowMinSpeed = false ∧
      f.channels[3] = none ∧ f.flags.standbyUsed = false ∧ f.flags.suspectSource = false ∧
        f.flags.belowMinSpeed = true) := by decide +kernel

/-- The reset part with H at a distance. -/
def travelled (high : Int) (p : Part) : Part := { p with odu := { p.odu with ahead := high, high := high } }

theorem test_meets_TickTaken :
    ((travelled 249999 Part.reset).odu.high < (travelled 249999 Part.reset).odu.nextTick) ∧
    (∀ x ∈ [RunState.halted, .armed, .measuring, .parked],
      (running x (travelled 250000 Part.reset)).resetHeld = false ∧
      (running x (travelled 250000 Part.reset)).odu.nextTick ≤ (running x (travelled 250000 Part.reset)).odu.high ∧
      (running x (travelled 250000 Part.reset)).odu.e1.faulted = false ∧
      (running x (travelled 250000 Part.reset)).odu.lastSpeed = none ∧
      (running x (travelled 250000 Part.reset)).odu.high < satU64 (250000 + 250 * 1000)) := by decide +kernel

/-- The reset part in MEASURING with H at its boundary and a faulted active channel, the other ahead by a window. -/
def switching (window : Int) : Part :=
  let p := running .measuring (travelled 250000 Part.reset)
  { p with odu := { p.odu with
    e1 := { Channel.reset with faulted := true }
    e2 := { Channel.reset with window := window, stepped := true } } }

theorem test_meets_TickTaken_general :
    (switching 250000).resetHeld = false ∧ (switching 250000).odu.nextTick ≤ (switching 250000).odu.high ∧
    250 ≤ (switching 250000).oru.settings.recordSpacing ∧
    ((switching 250000).odu.ahead ≤ (switching 250000).odu.high ∧ 0 ≤ (switching 250000).odu.high ∧
      (switching 250000).odu.high ≤ 9223372036854775807) ∧
    (after .tick (switching 250000)).odu.active = .e2 ∧
    (after .tick (switching 249999)).tru.nextSeq = 1 ∧ (after .tick (switching 250000)).tru.nextSeq = 2 := by
  decide +kernel

/-- The reset part at a route distance with one post passed and one section ahead. -/
def labelled (route : Int) (dir : Direction) (start finish : Int) : Part :=
  { Part.reset with
    odu := { Odu.reset with direction := dir }
    pfu := { Pfu.reset with position := .fixed, routeDistance := route, lastPost := some ⟨0, 7⟩ }
    lmu := { Lmu.reset with sections := [⟨start, finish, 3, 0, none, 9⟩] } }

theorem test_meets_TickTaken_label :
    (labelled 65535999 .up 0 0).label = some ⟨7, 65535999⟩ ∧ (labelled 65536000 .up 0 0).label = none ∧
    (labelled (-1) .up 0 0).label = none ∧
    ((labelled 10 .up 10 20).currentSection.isSome = true ∧ (labelled 20 .up 10 20).currentSection = none) ∧
    ((labelled 20 .down 20 10).currentSection.isSome = true ∧ (labelled 10 .down 20 10).currentSection = none) := by
  decide +kernel

/-- The reset part, whose active channel is faulted or not, with the other channel's window at a distance. -/
def watched (faulted : Bool) (window : Int) : Part :=
  { Part.reset with odu := { Odu.reset with
    e1 := { Channel.reset with faulted := faulted }
    e2 := { Channel.reset with window := window, stepped := true } } }

theorem test_meets_WatchPointTaken :
    ((watched false 499999).resetHeld = false ∧ (watched false 499999).odu.e2.window < 250 * 2000) ∧
    ((250 : Int) * 2000 ≤ (watched false 500000).odu.e2.window ∧
      (watched false 500000).odu.high < (watched false 500000).odu.nextTick) ∧
    (let p : Part := { watched true 500000 with odu := { (watched true 500000).odu with ahead := -400000 } }
     max p.odu.high (sat64 (p.odu.ahead + (p.odu.e2.window - p.odu.e1.window))) < p.odu.nextTick) := by decide +kernel

theorem test_meets_WatchPointTaken_general :
    let p := running .measuring (watched true 500000)
    p.resetHeld = false ∧ (250 : Int) * 2000 ≤ p.odu.e2.window ∧ p.odu.high < p.odu.nextTick ∧
    250 ≤ p.oru.settings.recordSpacing ∧
    (p.odu.ahead ≤ p.odu.high ∧ 0 ≤ p.odu.high ∧ p.odu.high ≤ 9223372036854775807) ∧
    (after .watchPoint p).tru.nextSeq = 2 := by decide +kernel

theorem test_meets_ReversalTaken :
    Part.reset.odu.reversalDue = false ∧
    (∀ x ∈ [RunState.halted, .armed, .measuring, .parked],
      (running x { Part.reset with odu := { Odu.reset with reversalDue := true } }).resetHeld = false ∧
      (running x { Part.reset with odu := { Odu.reset with reversalDue := true } }).odu.reversalDue = true) := by
  decide +kernel

theorem test_meets_TimersAndDistancesExpire :
    (2 ^ 31 ≤ ((0 : Time) - 0x80000000#32).toNat ∧ ((0 : Time) - 0x80000001#32).toNat < 2 ^ 31 ∧
      ([0x80000000#32] : List Time).getLast? = some 0x80000000#32) ∧
    (let p : Part := { Part.reset with pfu := { Pfu.reset with position := .fixed, sinceFix := some 3000000001 } }
     p.pfu.position = .fixed ∧ p.oru.settings.fixValidity * 1000000 < 3000000001 ∧
        3000000000 ≤ p.oru.settings.fixValidity * 1000000) ∧
    (let p := running .measuring { Part.reset with rnc := { Rnc.reset with parkDeadline := some 0 } }
     p.resetHeld = false ∧ p.rnc.runState = .measuring ∧ p.rnc.parkDeadline = some 0#32 ∧ (p.time - 0).toNat < 2 ^ 31 ∧
       Part.reset.rnc.runState ≠ .measuring ∧ 2 ^ 31 ≤ (p.time - 1).toNat) := by decide +kernel

/-- An exceedance of one record. -/
def exceedance (clearCount sinceEnd : Nat) : Exceedance :=
  { serial := 1, param := 2, polarity := .plus, startSeq := 5, startRoute := 0, startClass := 0, startLabel := none
    endSeq := 5, endRoute := 0
    peak := { value := 70, seq := 5, route := 0, label := none, position := .fixed, cls := 0 }
    grade := 1, merges := 0, clearCount := clearCount, sinceEnd := sinceEnd, correction := 0
    flags := ⟨false, false, false, false, false, false, false, false, false, false⟩ }

/-- The reset part with slot 0 holding something. -/
def slotted (x : SlotHold) : Part :=
  { Part.reset with ext := { Ext.reset with slots := Ext.reset.slots.set (0 : Fin 24) ⟨x, false⟩ } }

theorem test_meets_SlotClosesAndFinalises :
    ((slotted (.active .closing (exceedance 2 2))).ext.slots[0]).hold = .active .closing (exceedance 2 2) ∧
    (2 + 1 < Settings.default.closeLength ∧ Settings.default.closeLength ≤ 3 + 1 ∧ 7 + 1 ≤ Settings.default.mergeGap ∧
      Settings.default.mergeGap < 8 + 1) ∧
    ((slotted (.active .held (exceedance 4 8))).ext.slots[0]).hold = .active .held (exceedance 4 8) ∧
    ((slotted .free).ext.slots[0]).hold = .free ∧
    (after (.mergeGapExceeded 0) (slotted (.active .held (exceedance 4 8)))).rlu.xr.length = 1 ∧
    ((slotted .free).rnc.runState ≠ .parked ∧ (running .parked (slotted .free)).rnc.runState = .parked) ∧
    (after (.mergeGapExceeded 0) (running .parked (slotted (.active .held (exceedance 4 8))))).rlu.xr.length = 0 := by
  decide +kernel

/-- A trace entry at a sequence whose seven channels are present with one value, with parameters suppressed. -/
def entry (n : Nat) (v : Int) (suppressed : BitVec 8) : TraceEntry :=
  { seq := BitVec.ofNat 32 n, time := 0, route := 0, label := none, speed := none, position := .fixed
    correction := none, sectionLabel := none, cls := 0, cant := 0, suppressed := suppressed
    channels := Vector.replicate 7 (some ⟨v, .primary⟩), flags := ⟨false, false, false, false, false, false⟩ }

/-- Both polarities' thresholds at 40, 60 and 90, the hysteresis 10, the minimum length 2. -/
def limitRow : LimitRow := ⟨⟨some 40, some 60, some 90⟩, ⟨some 40, some 60, some 90⟩, 10, 2⟩

/-- A part whose trace window holds some entries, with one limit row for all classes. -/
def traced (l : List TraceEntry) (p : Part) : Part :=
  { p with tru := { p.tru with window := l }, lmu := { p.lmu with limits := Vector.replicate 64 limitRow } }

theorem test_meets_ParametersDerived :
    let st := Part.reset.oru.settings
    let i := 1000
    let p := traced [entry (i - st.chordLevel / 2) 7 0, entry (i - st.twistShort) 20 0, entry i 90 3,
      entry (i + st.chordLevel / 2) 8 0] Part.reset
    (((entry i 90 3).suppressed.getLsbD 1 = true ∧ (entry i 90 3).suppressed.getLsbD 2 = false) ∧
      (p.tru.entryAt (BitVec.ofNat 32 i)).map (fun e => e.channels[6]) = some (some ⟨90, .primary⟩) ∧
      (p.tru.entryAt (BitVec.ofNat 32 i - BitVec.ofNat 32 st.twistLong)) = none) ∧
    ((p.emitted (entry i 90 3)).values[0] = .absent .suppressed ∧
      (p.emitted (entry i 90 0)).values[0] = .present (st.gaugeBase + 180 - st.nominalGauge)
        (limitRow.grade (st.gaugeBase + 180 - st.nominalGauge)) ∧
      (p.emitted (entry i 90 0)).values[1] = .present 90 3 ∧
      (p.emitted (entry i 90 0)).values[2] = .present 70 2 ∧
      (p.emitted (entry i 90 0)).values[4] = .present 83 2 ∧
      (p.emitted (entry (i + 1) 90 0)).values[4] = .absent .incompleteChord) := by
  decide +kernel

theorem test_meets_ParametersDerived_absent :
    let st := Part.reset.oru.settings
    let i := 1000
    let gap : TraceEntry → TraceEntry := fun e => { e with channels := e.channels.set (6 : Fin 7) none }
    let p := traced [gap (entry (i - st.twistShort) 20 0), entry i 90 0] Part.reset
    (p.tru.entryAt (BitVec.ofNat 32 i - BitVec.ofNat 32 st.twistLong) = none ∧
      (p.emitted (entry i 90 0)).values[3] = .absent .incompleteChord) ∧
    ((p.tru.entryAt (BitVec.ofNat 32 i - BitVec.ofNat 32 st.twistShort)).map (fun e => e.channels[6]) = some none ∧
      (p.emitted (entry i 90 0)).values[2] = .absent .noInput) ∧
    ((traced [gap (entry i 90 0)] Part.reset).emitted (entry i 90 0)).values[1] = .absent .noInput := by
  decide +kernel

/-- An emit entry's record in which every parameter has one present value. -/
def emittedAt (v : Int) : Emitted :=
  { seq := 9, route := 0, label := none, position := .fixed, cls := 0, sectionLabel := none
    values := Vector.replicate 8 (.present v (limitRow.grade v)), sourceSwitch := false, suspectSource := false }

/-- The slotted part with the thresholds of `limitRow`. -/
def slottedLimits (x : SlotHold) : Part := traced [] (slotted x)

theorem test_meets_PairTakesRecord :
    (∀ ph ∈ [SlotPhase.opened, .closing, .held],
      ((slottedLimits (.active ph (exceedance 2 2))).ext.slots[0]).hold = .active ph (exceedance 2 2) ∧
        (exceedance 2 2).param = pairParam 4 ∧ (exceedance 2 2).polarity = pairPolarity 4 ∧
        (slottedLimits (.active ph (exceedance 2 2))).ext.owed = [] ∧
        (slottedLimits (.active ph (exceedance 2 2))).rlu.control.length + up.rlu.reservations < 16) ∧
    ((slottedLimits .free).limitRow 0 (pairParam 4)).releaseLevel (pairPolarity 4) = 30 ∧
    ((∀ v ∈ [(29 : Int), 30, 89, 90], (emittedAt v).values[pairParam 4] = .present v (limitRow.grade v)) ∧
      limitRow.grade 29 = 0 ∧ limitRow.grade 30 = 0 ∧ limitRow.grade 89 = 2 ∧ limitRow.grade 90 = 3) ∧
    (2 + 1 < up.oru.settings.closeLength ∧ up.oru.settings.closeLength ≤ 3 + 1 ∧
      3 + 1 ≤ up.oru.settings.mergeGap) ∧
    (((slottedLimits .free).ext.slots[0]) = ⟨.free, false⟩ ∧
      ∀ k : Pair, ((slottedLimits .free).ext.latches[k]).isSet = false) := by
  decide +kernel

theorem test_meets_OneSlotOfThePair : (slottedLimits (.active .opened (exceedance 2 2))).OneSlotPerPair := by
  unfold Part.OneSlotPerPair
  decide +kernel

/-- The slotted part with every slot in one state. -/
def allSlots (x : SlotHold) : Part :=
  traced [] { Part.reset with ext := { Ext.reset with slots := Vector.replicate 24 ⟨x, false⟩ } }

theorem test_meets_PairTakesRecord_noSlot :
    let p := allSlots (.pending (exceedance 4 9) ((exceedance 4 9).report 1))
    (∀ n : SlotNo, p.ext.slots[n] ≠ ⟨.free, false⟩ ∧ (p.ext.slots[n]).hold.activeFor 4 = false) ∧
      (p.judgePair 4 (emittedAt 90)).2 = true := by decide +kernel

/-- A record in which every parameter is absent for a cause. -/
def absentFor (cause : AbsenceCause) : Emitted := { emittedAt 0 with values := Vector.replicate 8 (.absent cause) }

/-- A part with the latch of pair 4 set. -/
def withLatch (raised : Bool) : Part :=
  let p := slottedLimits .free
  { p with ext := { p.ext with latches := p.ext.latches.set (4 : Fin 16) ⟨true, raised, false⟩ } }

theorem test_meets_PairTakesRecord_absent :
    ((absentFor .suppressed).values[pairParam 4] = .absent .suppressed ∧
      (((slottedLimits (.active .opened (exceedance 0 0))).judgePair 4 (absentFor .suppressed)).1).counter .shortDiscards = 1) ∧
    ((∀ n : SlotNo, ((withLatch false).ext.slots[n]).hold.activeFor 4 = false) ∧
      ((withLatch false).ext.latches[4]).isSet = true ∧
      ((((withLatch false).judgePair 4 (absentFor .noInput)).1).ext.latches[4]).isSet = false) ∧
    ((slottedLimits .free).ext.latches[4]).isSet = false := by decide +kernel

theorem test_meets_PairTakesRecord_latch :
    (((withLatch false).judgePair 4 (emittedAt 90)).2 = true ∧
      (((withLatch false).judgePair 4 (emittedAt 90)).1).counter .urgentSent = 1 ∧
      (((withLatch true).judgePair 4 (emittedAt 90)).1).counter .urgentSent = 0) ∧
    (((withLatch false).judgePair 4 (emittedAt 30)) = (withLatch false, false) ∧
      ((((withLatch false).judgePair 4 (emittedAt 29)).1).ext.latches[4]).isSet = false) := by decide +kernel

theorem test_meets_PairTakesRecord_edges :
    (Settings.default.mergeGap < 8 + 1 ∧ ¬ Settings.default.mergeGap < 7 + 1) ∧
    (((slottedLimits (.active .held (exceedance 4 8))).judgePair 4 (emittedAt 30)).1).counter .shortDiscards = 1 ∧
    ((((slottedLimits .free).judgePair 4 (emittedAt 90)).1).counter .urgentSent = 1 ∧
      (((slottedLimits .free).judgePair 4 (emittedAt 89)).1).counter .urgentSent = 0) := by decide +kernel

/-- The reset part in HUNT with an idle run. -/
def seeking (n : Nat) : Part := { Part.reset with rlu := { Rlu.reset with link := .hunt, idleRun := n } }

theorem test_meets_RecorderLinkStates :
    (Part.reset.rlu.link = .down ∧ (seeking 63).rlu.link = .hunt ∧ (seeking 63).rlu.idleRun < 64 ∧
      64 ≤ (seeking 64).rlu.idleRun ∧ (seeking 64).resetHeld = false) ∧
    ((after (.recorderLinkCharacter 0b1011110000#10) (seeking 64)).rlu.link = .up ∧
      (after .recorderLossOfSignal (seeking 64)).counter .linkDowns = 1) ∧
    (up.resetHeld = false ∧ up.rlu.link = .up ∧ up.rlu.rx = none ∧ lineCharOf 0b1001010101#10 = .idle ∧
      lineCharOf 0#10 = .violation ∧ min (6 + 1) 63 < up.oru.settings.recorderErrorThreshold) := by decide +kernel

/-- The recorder link UP with a link error count and a receiver. -/
def inbound (errors : Nat) (rx : Option (List Byte)) : Part :=
  { up with rlu := { up.rlu with linkErrors := errors, rx := rx } }

theorem test_meets_RecorderLinkStates_threshold :
    (up.oru.settings.recorderErrorThreshold ≤ min ((inbound 7 none).rlu.linkErrors + 1) 63 ∧
      (after (.recorderLinkCharacter 0#10) (inbound 6 none)).rlu.link = .up ∧
      (after (.recorderLinkCharacter 0#10) (inbound 7 none)).rlu.link = .down ∧
      (after (.recorderLinkCharacter 0#10) (inbound 7 none)).counter .linkDowns = 1) ∧
    (lineCharOf 0b1011110000#10 = .frameStart ∧ lineCharOf 0b1000001111#10 = .frameEnd) ∧
    (after (.recorderLinkCharacter 0b1011110000#10) (inbound 0 none)).rlu.rx = some [] := by decide +kernel

theorem carries_framed (bytes : List Byte) (h : dataBytes (chars bytes) = bytes) : Carries (framed bytes) bytes :=
  ⟨chars bytes, rfl, by simp [chars, LineChar.inside], h⟩

theorem test_meets_InboundFrames :
    (up.resetHeld = false ∧ up.rlu.link = .up ∧ up.rlu.rx = none ∧ ([1] : List Byte).length ≤ 1024) ∧
    Carries (framed (outboundBytes 16 [1])) (outboundBytes 16 [1]) ∧
    Carries (framed (outboundBytes 16 [1, 7])) (outboundBytes 16 [1, 7]) ∧
    Carries (framed (outboundBytes 18 [1])) (outboundBytes 18 [1]) ∧
    Carries (framed ([16, 0, 1, 5] ++ [0, 0])) (16#8 :: bytesOfNat 2 ([5#8] : List Byte).length ++ [5] ++ [0, 0]) ∧
    ([0, 0] : List Byte) ≠ crcBytes (16#8 :: bytesOfNat 2 ([5#8] : List Byte).length ++ [5]) :=
  ⟨by decide, carries_framed _ (by decide +kernel), carries_framed _ (by decide +kernel),
    carries_framed _ (by decide +kernel), carries_framed _ (by decide +kernel), by decide +kernel⟩

/-- Whether one character, with a link error count and the bytes so far, leaves this receiver, this link state and this many check failures. -/
def receives (errors : Nat) (bytes : List Byte) (line : BitVec 10) (rx : Option (List Byte)) (link : LinkState)
    (failures : Nat) : Bool :=
  let p := after (.recorderLinkCharacter line) (inbound errors (some bytes))
  p.rlu.rx == rx && p.rlu.link == link && p.counter .checkFailures == failures

theorem test_meets_InboundFrames_faults :
    (receives 0 [16] 0b1011110000#10 (some []) .up 1 = true ∧ receives 7 [16] 0b1011110000#10 none .down 1 = true ∧
      receives 0 [16] 0#10 none .up 1 = true ∧ receives 7 [16] 0#10 none .down 1 = true) ∧
    (receives 0 [16, 0] 0b1000001111#10 none .up 1 = true ∧ receives 0 [16, 0, 1, 5, 0] 0b1000001111#10 none .up 1 = true ∧
      receives 7 [16, 0, 1, 5, 0, 0] 0b1000001111#10 none .down 1 = true) ∧
    (receives 0 [16, 4] 0b0100000000#10 (some [16, 4, 0]) .up 0 = true ∧
      receives 0 [16, 4] 0b0100000001#10 none .up 1 = true ∧
      receives 0 [16, 0, 0, 0] 0b0100000000#10 (some [16, 0, 0, 0, 0]) .up 0 = true ∧
      receives 0 [16, 0, 0, 0, 0] 0b0100000000#10 none .up 1 = true) := by decide +kernel

theorem test_meets_CreditFrames :
    up.resetHeld = false ∧ up.rlu.link = .up ∧ up.rlu.rx = none ∧
    Carries (framed (outboundBytes 17 [255])) (outboundBytes 17 [255]) ∧
    Carries (framed (outboundBytes 17 [])) (outboundBytes 17 []) :=
  ⟨rfl, rfl, rfl, carries_framed _ (by decide +kernel), carries_framed _ (by decide +kernel)⟩

/-- A geometry record with nothing in it. -/
def emptyRecord : GeometryRecord :=
  { run := 1, runNumber := 1, seq := 0, droppedBefore := 0, time := 0, route := 0, label := none, speed := none
    position := .fixed, correction := none, sectionLabel := none, cls := 0, values := Vector.replicate 8 none
    grades := Vector.replicate 8 0, flags := ⟨false, false, false, false, false, false⟩, incompleteChord := false
    suppressed := false, sourceSwitch := false, untracked := false }

/-- The recorder link UP with some records in the GR queue, the first of them in transmission where asked. -/
def withRecords (n : Nat) (sending : Bool) : Part :=
  { up with rlu := { up.rlu with
    gr := List.replicate n emptyRecord
    tx := if sending then some ⟨.gr, [], 0, false⟩ else none } }

theorem test_meets_GeometryRecordOffered :
    ((withRecords 63 false).rlu.gr.length < 64 ∧
      (withRecords 64 false).rlu.gr = emptyRecord :: emptyRecord :: List.replicate 62 emptyRecord ∧
      (withRecords 64 false).rlu.sendingGr = false) ∧
    ((withRecords 64 true).rlu.gr = emptyRecord :: emptyRecord :: emptyRecord :: List.replicate 61 emptyRecord ∧
      (withRecords 64 true).rlu.sendingGr = true) ∧
    (((withRecords 64 true).offerGr emptyRecord).rlu.gr[1]?.map GeometryRecord.droppedBefore = some 1 ∧
      ((withRecords 64 true).offerGr emptyRecord).counter .grDrops = 1) := by decide +kernel

/-- The recorder link UP with one credit and one entry in every queue after the first `k`. -/
def queued (k : Nat) : Part :=
  { up with rlu := { up.rlu with
    credits := 1
    control := if k = 0 then [readyNotice] else []
    xr := if k ≤ 1 then [(exceedance 4 8).report 1] else []
    gr := if k ≤ 2 then [emptyRecord] else []
    mirror := if k ≤ 3 then [⟨2, .status, statusBytes⟩] else [] } }

theorem test_meets_ArbiterStarts :
    ((queued 0).resetHeld = false ∧ (queued 0).rlu.link = .up ∧ (queued 0).rlu.tx = none ∧ 1 ≤ (queued 0).rlu.credits ∧
      (queued 0).rlu.control = [readyNotice]) ∧
    ((queued 1).rlu.control = [] ∧ (queued 1).rlu.xr.length = 1) ∧ ((queued 2).rlu.xr = [] ∧ (queued 2).rlu.gr.length = 1) ∧
    ((queued 3).rlu.gr = [] ∧ (queued 3).rlu.mirror.length = 1) ∧ ((queued 4).rlu.mirror = [] ∧ up.rlu.credits = 0) := by
  decide +kernel

/-- An urgent notice owed by a latch. -/
def owedNotice : Owed := ⟨.latch 0, ⟨0, .plus, 1, 3, 0, 0, none, none, .fixed⟩⟩

/-- A part with a frame of a queue in transmission, with owed notices and a pending slot where asked. -/
def leaving (q : QueueId) (forgotten : Bool) (owed : List Owed) (pending : List SlotNo) : Part :=
  { queued 0 with
    rlu := { (queued 0).rlu with tx := some ⟨q, [], 0, forgotten⟩ }
    ext := { Ext.reset with
      owed := owed
      pendingList := pending
      slots := Ext.reset.slots.set (0 : Fin 24) ⟨.pending (exceedance 4 9) ((exceedance 4 9).report 1), false⟩ } }

theorem test_meets_FrameLeaves :
    (∀ q ∈ [QueueId.control, .xr, .gr, .mirror],
      (leaving q false [] []).resetHeld = false ∧ (leaving q false [] []).rlu.tx = some ⟨q, [], 0, false⟩) ∧
    ((leaving .xr true [] []).rlu.tx.map Transmission.forgotten = some true ∧ up.rlu.tx = none) ∧
    ((leaving .xr false [] [0]).ext.pendingList = [0] ∧
      ((leaving .xr false [] [0]).ext.slots[0]).hold = .pending (exceedance 4 9) ((exceedance 4 9).report 1)) ∧
    ((leaving .control false [owedNotice] []).ext.owed = [owedNotice] ∧
      (after (.frameLeaving true) (leaving .control false [owedNotice] [])).rlu.control = [.urgent owedNotice.notice]) := by
  decide +kernel

theorem test_meets_EmptyQueueStep_owed :
    let p : Part := { Part.reset with ext := { Ext.reset with owed := [owedNotice] } }
    p.resetHeld = false ∧ p.ext.owed ≠ [] ∧ p.rlu.control.length + p.rlu.reservations < 16 ∧
    p.owedWaits = true ∧ p.moveOwed.ext.owed = [] ∧ p.moveOwed.rlu.control.getLast? = some (.urgent owedNotice.notice) := by
  decide +kernel

/-- A control frame leaving a queue of some status notices, with an urgent notice owed. -/
def crowded (n : Nat) : Part :=
  let p := leaving .control false [owedNotice] []
  { p with rlu := { p.rlu with control := List.replicate n readyNotice } }

theorem test_meets_FrameLeaves_room :
    ((List.replicate 12 readyNotice).drop 1).length ≤ 11 ∧
    (after (.frameLeaving false) (crowded 12)).ext.owed = [owedNotice] ∧
    (after (.frameLeaving false) (crowded 13)).ext.owed = [] ∧ (after (.frameLeaving true) (crowded 12)).ext.owed = [] := by
  decide +kernel

theorem test_meets_FrameLeaves_moved_next :
    (after (.frameLeaving false) (crowded 12)).ext.owed = [owedNotice] ∧
    (after .arbiterStart (after (.frameLeaving false) (crowded 12))).ext.owed = [] ∧
    (after .tick (after (.frameLeaving false) (crowded 12))).rlu.control.getLast? = some (.urgent owedNotice.notice) := by
  decide +kernel

/-! Orders: the bodies that the statements about them are met by, each at the head of the buffer of the reset part. -/

/-- What readies an order, in one decidable condition. -/
def readyFor (code : Nat) (p : Part) (body : List Byte) : Bool :=
  !p.resetHeld && p.oru.buffer.head? == some body && (orderCode body).toNat == code && lengthOk body &&
    decide (p.rlu.nonUrgent + p.rlu.reservations ≤ 11) && decide (p.rlu.control.length + p.rlu.reservations < 16)

theorem ready_of {code : Nat} {p : Part} {body : List Byte} (h : readyFor code p body = true) : p.Ready code body := by
  simp only [readyFor, Bool.and_eq_true, Bool.not_eq_true', beq_iff_eq, decide_eq_true_eq] at h
  obtain ⟨⟨⟨⟨⟨h1, h2⟩, h3⟩, h4⟩, h5⟩, h6⟩ := h
  exact ⟨h1, h2, h3, h4, h5, h6⟩

/-- Zero bytes. -/
def zeros (n : Nat) : List Byte := List.replicate n 0

theorem test_meets_OrdersRefusedBeforeTheirOwner :
    ((ordered up [21, 0]).resetHeld = false ∧ (ordered up [21, 0]).oru.buffer.head? = some [21, 0] ∧
      (orderCode [21, 0]).toNat = 21 ∧ (orderCode [0, 0]).toNat = 0) ∧
    ((orderCode [20, 0, 1]).toNat = 20 ∧ lengthOk [20, 0, 1] = false ∧ lengthOk [1, 0, 1] = false) ∧
    (up.rlu.nonUrgent + up.rlu.reservations ≤ 11 ∧ up.rlu.control.length + up.rlu.reservations < 16) ∧
    (¬ (12 + up.rlu.reservations ≤ 11)) := by decide +kernel

/-- A body of each kind of length: right with a count that its owner refuses, too short, and ended before a count or a mark. -/
theorem test_meets_OrdersRefusedBeforeTheirOwner_lengths :
    (lengthOk ([16, 0] ++ zeros 20) = true ∧ lengthOk ([16, 0] ++ zeros 19) = false) ∧
    (lengthOk ([7, 0, 9] ++ zeros (9 * 13)) = true ∧ lengthOk ([7, 0, 9] ++ zeros (9 * 13 - 1)) = false ∧
      lengthOk [7, 0] = false ∧ lengthOk [10, 0, 5] = false) ∧
    (lengthOk [12, 0, 0, 1, 0, 0] = true ∧ lengthOk [12, 0, 0, 1, 1, 3, 0, 16, 0, 0, 0, 0] = true ∧
      lengthOk [12, 0, 0, 1, 1, 3, 0, 16, 0, 0, 0] = false ∧ lengthOk [12, 0, 0] = false) := by decide +kernel

theorem test_meets_GetAnswers :
    ∀ body ∈ [[(3 : Byte), 0, 1, 0], [3, 0, 31, 0], [3, 0, 12, 8], [3, 0, 0, 0], [3, 0, 32, 0], [3, 0, 1, 1], [3, 0, 13, 0]],
      (ordered up body).Ready 3 body := by
  intro body h
  refine ready_of ?_
  revert body
  decide +kernel

theorem test_meets_ReadLimitsAnswers :
    ∀ body ∈ [[(11 : Byte), 0, 63, 1], [11, 0, 63, 16], [11, 0, 48, 16], [11, 0, 64, 1], [11, 0, 0, 0], [11, 0, 0, 17]],
      (ordered up body).Ready 11 body := by
  intro body h
  refine ready_of ?_
  revert body
  decide +kernel

theorem test_meets_IdentifyAndReadingOrdersAnswer :
    (ordered up [1, 0]).Ready 1 [1, 0] ∧
    (∀ body ∈ [[(13 : Byte), 0, 6, 1], [13, 0, 6, 7], [13, 0, 7, 1], [13, 0, 0, 0]],
      (ordered up body).Ready 13 body) ∧
    (∀ a ∈ [(0 : Byte), 1, 9, 10], (ordered up [14, 0, a]).Ready 14 [14, 0, a]) := by
  refine ⟨ready_of (by decide +kernel), ?_, ?_⟩ <;> intro a h <;> refine ready_of ?_ <;> revert a <;> decide +kernel

/-- The body of a SET. -/
def setBody (n a : Byte) (v : Nat) : List Byte := [2, 0, n, a] ++ bytesOfNat 4 v

theorem test_meets_SetChecksAndWrites :
    (∀ nav ∈ [((0 : Byte), (0 : Byte), 1), (5, 0, 101), (5, 0, 100), (2, 0, 10), (31, 0, 1), (13, 8, 1)],
      (ordered up (setBody nav.1 nav.2.1 nav.2.2)).Ready 2 (setBody nav.1 nav.2.1 nav.2.2)) ∧
    (settingNamed 0 0 = false ∧ settingNamed 5 0 = true ∧ settingInRange 5 101 = false ∧ settingInRange 5 100 = true ∧
      haltedOnlySetting 2 = true ∧ haltedOnlySetting 5 = false ∧ settingNamed 13 8 = true ∧ settingInRange 13 1 = true) := by
  refine ⟨?_, by decide +kernel⟩
  intro a h
  refine ready_of ?_
  revert a
  decide +kernel

theorem test_meets_RecordSpacingSet :
    ∀ v ∈ [250, 500, 1000], ∀ x ∈ [RunState.halted, .armed],
      (ordered (running x up) (setBody 1 0 v)).Ready 2 (setBody 1 0 v) ∧
        fieldNat (orderParams (setBody 1 0 v)) 0 1 = 1 ∧ fieldNat (orderParams (setBody 1 0 v)) 2 4 = v := by
  intro v hv x hx
  refine ⟨ready_of ?_, ?_⟩ <;> revert v <;> revert x <;> decide +kernel

theorem test_meets_SettingsWithEffectSet :
    ∀ nav ∈ [((4 : Byte), (0 : Byte), 2), (12, 8, 16 * 256 + 8), (17, 0, 100), (17, 0, 20000), (28, 0, 127), (29, 0, 63)],
      (ordered up (setBody nav.1 nav.2.1 nav.2.2)).Ready 2 (setBody nav.1 nav.2.1 nav.2.2) ∧
        fieldNat (orderParams (setBody nav.1 nav.2.1 nav.2.2)) 2 4 = nav.2.2 := by
  intro a h
  refine ⟨ready_of ?_, ?_⟩ <;> revert a <;> decide +kernel

theorem test_meets_StartRunTaken :
    (∀ x ∈ [RunState.halted, .armed], ∀ y ∈ [PositionState.unset, .deadReckoned],
      (ordered (running x (placed y up)) [4, 0, 1, 2]).Ready 4 [4, 0, 1, 2]) ∧
    (leaving .xr false [] [0]).ext.pendingList ≠ [] ∧ up.ext.pendingList = [] := by
  refine ⟨?_, by decide +kernel, rfl⟩
  intro x hx y hy
  refine ready_of ?_
  revert x y
  decide +kernel

theorem test_meets_StopRunTaken :
    ∀ x ∈ [RunState.halted, .armed, .measuring, .parked], (ordered (running x up) [5, 0]).Ready 5 [5, 0] := by
  intro x h
  refine ready_of ?_
  revert x
  decide +kernel

theorem test_meets_SetPositionTaken :
    (∀ d ∈ [(0 : Byte), 1, 2], ∀ x ∈ [RunState.halted, .measuring],
      (ordered (running x up) [6, 0, 0, 0, 0, 9, d]).Ready 6 [6, 0, 0, 0, 0, 9, d]) ∧
    up.odu.direction = .up := by
  refine ⟨?_, rfl⟩
  intro d hd x hx
  refine ready_of ?_
  revert d x
  decide +kernel

theorem test_meets_ListsAppended :
    (∀ n ∈ [0, 1, 8, 9],
      (ordered up ([7, 0, BitVec.ofNat 8 n] ++ zeros (13 * n))).Ready 7 ([7, 0, BitVec.ofNat 8 n] ++ zeros (13 * n)) ∧
      (ordered up ([8, 0, BitVec.ofNat 8 n] ++ zeros (15 * n))).Ready 8 ([8, 0, BitVec.ofNat 8 n] ++ zeros (15 * n))) := by
  intro n h
  refine ⟨ready_of ?_, ready_of ?_⟩ <;> revert n <;> decide +kernel

theorem test_settingRanges :
    (settingInRange 12 (16 * 256 + 8) = true ∧ settingInRange 12 (17 * 256 + 8) = false ∧ settingInRange 12 0x10001 = false) ∧
    (settingInRange 19 41 = false ∧ settingInRange 20 200 = true ∧ settingInRange 1 251 = false ∧
      settingInRange 32 0 = false) := by decide +kernel

/-- The bytes of one route entry. -/
def routeBytes (kind : Byte) (distance value : Nat) : List Byte :=
  [kind] ++ bytesOfNat 4 distance ++ bytesOfNat 4 value ++ [0, 0, 0, 0]

/-- The reply to an APPEND ROUTE of one entry, and to an APPEND SECTIONS of one section from 0 to 1 of a class. -/
def appended (p : Part) (e : List Byte) : Option (Result × List Byte) := lastReply (after .appendRoute (ordered p ([7, 0, 1] ++ e)))
def sectioned (p : Part) (cls : Byte) (finish : Nat) : Option (Result × List Byte) :=
  lastReply (after .appendSections (ordered p ([8, 0, 1] ++ zeros 4 ++ bytesOfNat 4 finish ++ [cls] ++ zeros 6)))

/-- A part with some posts in its route list, or some sections in its section list, all before distance 0. -/
def posted (n : Nat) : Part := { up with pfu := { up.pfu with routeList := List.replicate n ⟨-1, .kpost 0⟩ } }
def stretched (n : Nat) : Part := { up with lmu := { up.lmu with sections := List.replicate n ⟨-2, -1, 0, 0, none, 0⟩ } }

theorem test_meets_ListsAppended_bounds :
    (appended up (routeBytes 1 5 9999) = some (.done, [1]) ∧ appended up (routeBytes 1 5 10000) = some (.badValue, [0]) ∧
      appended up (routeBytes 2 5 0) = some (.badValue, [0])) ∧
    (appended (posted 127) (routeBytes 0 0 0) = some (.done, [1]) ∧
      appended (posted 128) (routeBytes 0 0 0) = some (.listFull, [0]) ∧
      appended (posted 128) (routeBytes 2 0 0) = some (.badValue, [0])) ∧
    (appended up (routeBytes 0 0 0) = some (.done, [1]) ∧
      appended (placed .fixed up) (routeBytes 0 0 0) = some (.outOfSequence, [0]) ∧
      appended (placed .fixed up) (routeBytes 0 1 0) = some (.done, [1])) := by decide +kernel

/-- A kilometre post at -2 and a section from 256 to -1 with a cant of -1, as the bytes of their orders carry them. -/
theorem test_meets_ListsAppended_bytes :
    rawRoute [1, 255, 255, 255, 254, 0, 0, 39, 15, 0, 0, 0, 0] = ⟨1, -2, 9999, 0⟩ ∧
    rawSection [0, 0, 1, 0, 255, 255, 255, 255, 7, 128, 1, 255, 255, 1, 2] = ⟨256, -1, 7, 128, some (-1), 258⟩ := by
  decide +kernel

theorem test_meets_ListsAppended_sections :
    (sectioned up 7 1 = some (.done, [1]) ∧ sectioned up 8 1 = some (.badValue, [0]) ∧
      sectioned up 7 0 = some (.badValue, [0])) ∧
    (sectioned (stretched 63) 0 1 = some (.done, [1]) ∧ sectioned (stretched 64) 0 1 = some (.listFull, [0])) := by
  decide +kernel

theorem test_meets_ListsCleared :
    ∀ sel ∈ [(0 : Byte), 1, 2, 3, 4], (ordered up [9, 0, sel]).Ready 9 [9, 0, sel] := by
  intro sel h
  refine ready_of ?_
  revert sel
  decide +kernel

theorem test_meets_TablesWritten :
    (∀ n ∈ [0, 1, 16, 17],
      (ordered up ([10, 0, 63, BitVec.ofNat 8 n] ++ zeros (14 * n))).Ready 10 ([10, 0, 63, BitVec.ofNat 8 n] ++ zeros (14 * n))) ∧
    (∀ an ∈ [(0, 0), (7, 1), (6, 1), (6, 7)], ∀ x ∈ [RunState.halted, .armed],
      (ordered (running x up) ([12, 0, BitVec.ofNat 8 an.1, BitVec.ofNat 8 an.2] ++ zeros (2 * an.2))).Ready 12
        ([12, 0, BitVec.ofNat 8 an.1, BitVec.ofNat 8 an.2] ++ zeros (2 * an.2))) := by
  refine ⟨?_, ?_⟩
  · intro n h
    refine ready_of ?_
    revert n
    decide +kernel
  · intro an ha x hx
    refine ready_of ?_
    revert an x
    decide +kernel

theorem test_meets_TablesWritten_rows :
    (LimitRow.valid ⟨⟨some 1, none, some 32767⟩, Thresholds.absent, 0, 0⟩ = true ∧
      LimitRow.valid ⟨⟨none, none, some 32768⟩, Thresholds.absent, 0, 0⟩ = false ∧
      LimitRow.valid ⟨Thresholds.absent, ⟨some 9, none, some 9⟩, 0, 0⟩ = false) ∧
    (RawEntry.checked ⟨none, none⟩ = some none ∧ RawEntry.checked ⟨none, some ⟨1, 0, 0, 0⟩⟩ = none ∧
      RawEntry.checked ⟨some ⟨8, 15, -1, 7⟩, none⟩ = some (some ⟨⟨7, 15, -1, 7⟩, none⟩) ∧
      RawEntry.checked ⟨some ⟨9, 0, 0, 0⟩, none⟩ = none ∧ RawEntry.checked ⟨some ⟨1, 16, 0, 0⟩, none⟩ = none) ∧
    lastReply (after .writeInputMap (ordered up ([12, 0, 0, 8] ++ zeros 16))) = some (.badValue, [7]) := by decide +kernel

/-- Two entries of a map order, the first with a primary alone. -/
theorem test_meets_TablesWritten_bytes :
    (MarkedSource [2, 3, 0, 16, 0, 255, 255] ∧ MarkedSource [0]) ∧
    rawEntries 2 [2, 3, 0, 16, 0, 255, 255, 0, 0, 0] = [⟨some ⟨3, 0, 4096, -1⟩, none⟩, ⟨none, none⟩] :=
  ⟨⟨⟨2, [3, 0, 16, 0, 255, 255], rfl, rfl⟩, ⟨0, [], rfl, rfl⟩⟩, by decide +kernel⟩

theorem test_meets_CountersEventsAndMasks :
    (∀ body ∈ [[(15 : Byte), 0, 0, 0, 0], [15, 0, 1, 0, 0], [15, 0, 2, 1, 1], [15, 0, 2, 8, 0], [15, 0, 2, 9, 1],
      [15, 0, 6, 0, 1], [15, 0, 7, 0, 0], [15, 0, 1, 1, 0]], (ordered up body).Ready 15 body) ∧
    (ordered up ([16, 0] ++ zeros 20)).Ready 16 ([16, 0] ++ zeros 20) ∧
    (ordered up ([17, 0] ++ zeros 20)).Ready 17 ([17, 0] ++ zeros 20) := by
  refine ⟨?_, ready_of (by decide +kernel), ready_of (by decide +kernel)⟩
  intro body h
  refine ready_of ?_
  revert body
  decide +kernel

theorem test_meets_RestoreHeadTaken :
    (∀ a ∈ [(0 : Byte), 1, 8, 9], (ordered up [18, 0, a]).Ready 18 [18, 0, a]) ∧
    (ordered (headed 7 (fun _ => record .excluded 255 0) up) [18, 0, 8]).Ready 18 [18, 0, 8] := by
  refine ⟨?_, ready_of (by decide +kernel)⟩
  intro a h
  refine ready_of ?_
  revert a
  decide +kernel

theorem test_meets_HeadOrderTaken :
    (∀ an ∈ [(0, 1), (9, 1), (1, 0), (1, 33), (8, 32)],
      (ordered locked ([19, 0, BitVec.ofNat 8 an.1, BitVec.ofNat 8 an.2] ++ zeros an.2)).Ready 19
        ([19, 0, BitVec.ofNat 8 an.1, BitVec.ofNat 8 an.2] ++ zeros an.2)) ∧
    (ordered (relaying 0 0 none) [19, 0, 1, 1, 5]).Ready 19 [19, 0, 1, 1, 5] ∧
    (ordered up [19, 0, 1, 1, 5]).Ready 19 [19, 0, 1, 1, 5] ∧
    (ordered (headed 0 (fun _ => record .acquiring 0 1) locked) [19, 0, 1, 1, 5]).Ready 19 [19, 0, 1, 1, 5] := by
  refine ⟨?_, ready_of (by decide +kernel), ready_of (by decide +kernel), ready_of (by decide +kernel)⟩
  intro an h
  refine ready_of ?_
  revert an
  decide +kernel

theorem test_meets_RestartTaken : (ordered up [20, 0]).Ready 20 [20, 0] := ready_of (by decide +kernel)

theorem test_meets_EventsRaised :
    (Part.reset.evu.flags.getLsbD Event.ready.number = true) ∧
    (Part.reset.evu.flags.getLsbD Event.slip.number = false ∧ Part.reset.evu.mask.getLsbD Event.slip.number = false) ∧
    ((1#20 <<< Event.slip.number).getLsbD Event.slip.number = true ∧ Part.reset.oru.settings.noticesEnabled = true) ∧
    (Part.reset.rlu.nonUrgent + Part.reset.rlu.reservations ≤ 11 ∧ ¬ (12 + Part.reset.rlu.reservations ≤ 11)) := by
  decide +kernel

theorem test_meets_CodesDecode :
    ((⟨3, .sample, 0, 0b10000111⟩ : Header).channels ≤ 16) ∧ ((⟨2, .marker, 0, 0⟩ : Header).shape = 0) ∧
    ((⟨4, .reply, 0, 32⟩ : Header).replyCount ≤ 32) := by decide

theorem test_meets_GradesAndReleaseLevels :
    let t : Thresholds := ⟨some 40, some 60, some 90⟩
    (∃ n, t.t3 = some n ∧ n ≤ (90 : Int).natAbs) ∧ (¬ ∃ n, t.t3 = some n ∧ n ≤ (-89 : Int).natAbs) ∧
    (∃ n, t.t1 = some n ∧ n ≤ (40 : Int).natAbs) ∧ (¬ ∃ n, t.t1 = some n ∧ n ≤ (39 : Int).natAbs) := by
  simp

/-- A row whose largest threshold is 32767 and whose hysteresis equals the first one on the minus side; a hold of the minimum length and one below it. -/
theorem test_meets_GradesAndReleaseLevels_edges :
    let r : LimitRow := ⟨⟨none, some 60, some 32767⟩, ⟨some 10, none, none⟩, 10, 8⟩
    (r.grade 32767 = 3 ∧ r.grade (-32767) = 1 ∧ r.grade 59 = 0) ∧
    (r.releaseLevel .plus = 50 ∧ r.releaseLevel .minus = 0 ∧ LimitRow.reset.releaseLevel .plus = 32768) ∧
    ((slottedLimits .free).isInside 0 4 29 = true ∧ (slottedLimits .free).isInside 0 4 30 = false ∧
      (slottedLimits .free).isInside 0 4 (-90) = true) ∧
    (let long : Exceedance := { exceedance 2 2 with startSeq := 7, endSeq := 8 };
      (slottedLimits .free).isShort long = false ∧ (slottedLimits .free).isShort { long with endSeq := 7 } = true ∧
        (slottedLimits .free).isShort { long with endSeq := 7, grade := 3 } = false) := by decide +kernel

/-- The invariants' hypotheses are met together by the reset state, from which the next step goes on. -/
theorem test_meets_Invariants :
    step State.reset = .next ⟨Part.reset.elapse, []⟩ ∧ Part.reset.LinkDownIdle ∧ Part.reset.FixValid ∧
    Part.reset.MarksArmed ∧ Part.reset.OdometerPlaced ∧ (Part.reset.tru.window = [] ∧ Part.reset.ext.owed = []) := by
  refine ⟨by rfl, ?_, ?_, ?_, ?_, by decide⟩
  · intro _; decide
  · intro h; cases h
  · exact ⟨by decide, by decide⟩
  · exact ⟨by decide, by decide, by decide⟩

end Sys2Proof.Tests
end

/-! SUPPORT. The answers of the orders that read and write tables, and the sources of a capture: the order rules of R179 to R181 for an owner's answer, the verdicts of R39, and the statements on WRITE LIMITS and WRITE INPUT MAP, on IDENTIFY, READ INPUT MAP and READ STATE, and on the values of a capture. -/

namespace Sys2Proof.Machine

/-! ## An order answered within its taking -/

/-- A ready order answers with the part and the reply that its owner gives after the taking (R179 to R181). -/
theorem answeredRow_of_answer {s : State} {code : Nat} {owner : Part → List Byte → Answer} {body : List Byte} {q : Part}
    {r : Result} {data : List Byte} (h : s.part.Ready code body)
    (ho : owner s.part.taken (orderParams body) = ⟨q, r, data⟩) :
    live s (Part.answeredRow code owner) = nextWith s (q.fillReservation (replyTo body r data)) := by
  rw [answeredRow_of_ready s code owner body h, answered, ho]

/-- A ready order whose owner changes nothing of the part leaves its reply alone. -/
theorem answeredRow_of_unchanged {s : State} {code : Nat} {owner : Part → List Byte → Answer} {body : List Byte}
    {r : Result} {data : List Byte} (h : s.part.Ready code body)
    (ho : owner s.part.taken (orderParams body) = ⟨s.part.taken, r, data⟩) :
    live s (Part.answeredRow code owner) = nextWith s (s.part.afterOrder body r data) :=
  answeredRow_of_answer h ho

/-! ## Rows (R115, R116) -/

/-- The row that 14 bytes carry: six thresholds, the hysteresis and the minimum length. -/
theorem rawRow_row (bs : List Byte) : (rawRow bs).row =
    ⟨⟨thresholdOf (fieldNat bs 0 2), thresholdOf (fieldNat bs 2 2), thresholdOf (fieldNat bs 4 2)⟩,
      ⟨thresholdOf (fieldNat bs 6 2), thresholdOf (fieldNat bs 8 2), thresholdOf (fieldNat bs 10 2)⟩,
      fieldNat bs 12 1, fieldNat bs 13 1⟩ := rfl

/-- The model's test of a rising list. -/
theorem risesStrictly_iff (l : List Nat) : risesStrictly l = true ↔ l.Pairwise (· < ·) := by
  rw [← List.isChain_iff_pairwise]
  induction l with
  | nil => simp [risesStrictly]
  | cons x l ih =>
    cases l with
    | nil => simp [risesStrictly]
    | cons y l => rw [risesStrictly, Bool.and_eq_true, ih, decide_eq_true_iff, List.isChain_cons_cons]

/-- The thresholds of one polarity are valid where each that is present is at most 32767 and lies below those of higher grade (R116). -/
theorem Thresholds.valid_iff (t : Thresholds) : t.valid = true ↔
    (∀ x, t.t1 = some x ∨ t.t2 = some x ∨ t.t3 = some x → x ≤ 32767) ∧
    (∀ x y, (t.t1 = some x ∧ t.t2 = some y) ∨ (t.t1 = some x ∧ t.t3 = some y) ∨ (t.t2 = some x ∧ t.t3 = some y) →
      x < y) := by
  have hmem : ∀ x, x ∈ t.present ↔ t.t1 = some x ∨ t.t2 = some x ∨ t.t3 = some x := by
    intro x
    simp [Thresholds.present, eq_comm]
  have hrise : t.present.Pairwise (· < ·) ↔ ∀ x y,
      (t.t1 = some x ∧ t.t2 = some y) ∨ (t.t1 = some x ∧ t.t3 = some y) ∨ (t.t2 = some x ∧ t.t3 = some y) → x < y := by
    rw [Thresholds.present, List.pairwise_filterMap]
    grind [List.pairwise_cons]
  rw [Thresholds.valid, Bool.and_eq_true, risesStrictly_iff, hrise, and_comm]
  simp [hmem]

/-- A row is valid where both its polarities are. -/
theorem LimitRow.valid_iff (r : LimitRow) : r.valid = true ↔ ∀ t ∈ [r.plus, r.minus], t.valid = true := by
  simp [LimitRow.valid]

/-! ## Sources and entries of the input map (R27, R36, R37) -/

/-- A source whose present mark is 0 is none. -/
theorem rawSource_absent (rest : List Byte) : rawSource (0 :: rest) = none := rfl

/-- The four fields behind a present mark. -/
theorem rawSource_present (mark head position g1 g0 o1 o0 : Byte) (rest : List Byte) (hm : mark ≠ 0) :
    rawSource (mark :: head :: position :: g1 :: g0 :: o1 :: o0 :: rest) = some {
      head := head.toNat, position := position.toNat, gain := (g1 ++ g0).toInt, offset := (o1 ++ o0).toInt } := by
  rw [← intOfBytes_two, ← intOfBytes_two]
  refine (if_neg hm).trans ?_
  simp [fieldNat, fieldInt, natOfBytes]

/-- An address names a head exactly from 1 to 8. -/
theorem headOfAddress_eq_none_iff (a : Nat) : headOfAddress a = none ↔ ¬ (1 ≤ a ∧ a ≤ 8) := by
  unfold headOfAddress
  split <;> simp_all

/-- The head that an address names has that address. -/
theorem address_of_headOfAddress {a : Nat} {h : Head} (e : headOfAddress a = some h) : h.val + 1 = a := by
  unfold headOfAddress at e
  split at e
  · cases e
    dsimp only
    omega
  · cases e

/-- A source is refused where its head address or its position is out of range. -/
theorem RawSource.checked_eq_none_iff (r : RawSource) :
    r.checked = none ↔ ¬ (1 ≤ r.head ∧ r.head ≤ 8 ∧ r.position ≤ 15) := by
  unfold RawSource.checked
  cases hh : headOfAddress r.head with
  | none =>
    have hout := (headOfAddress_eq_none_iff r.head).1 hh
    simp only [true_iff]
    omega
  | some h =>
    have haddress := address_of_headOfAddress hh
    have hlt := h.isLt
    by_cases hp : r.position < 16
    · simp only [dif_pos hp, reduceCtorEq, false_iff]
      omega
    · simp only [dif_neg hp, true_iff]
      omega

/-- A source that is accepted keeps its four fields. -/
theorem RawSource.fields_of_checked {r : RawSource} {y : Source} (h : r.checked = some y) :
    y.head.val + 1 = r.head ∧ y.position.val = r.position ∧ y.gain = r.gain ∧ y.offset = r.offset := by
  unfold RawSource.checked at h
  split at h
  · cases h
  · rename_i hd hh
    split at h
    · cases h
      exact ⟨address_of_headOfAddress hh, rfl, rfl, rfl⟩
    · cases h

/-- An entry with a primary and a standby is accepted where both are. -/
theorem RawEntry.checked_both (x z : RawSource) : RawEntry.checked ⟨some x, some z⟩ =
    x.checked.bind (fun y => z.checked.map (fun w => some ⟨y, some w⟩)) := by
  unfold RawEntry.checked
  dsimp only
  cases x.checked <;> cases z.checked <;> rfl

/-- An entry with a primary alone is accepted where that is. -/
theorem RawEntry.checked_primary (x : RawSource) : RawEntry.checked ⟨some x, none⟩ =
    x.checked.map (fun y => some ⟨y, none⟩) := rfl

/-- An entry is refused where a source of it is, or where a standby has no primary (R37). -/
theorem RawEntry.checked_eq_none_iff (e : RawEntry) : e.checked = none ↔
    (∃ x, (e.primary = some x ∨ e.standby = some x) ∧ x.checked = none) ∨ (e.primary = none ∧ e.standby ≠ none) := by
  obtain ⟨primary, standby⟩ := e
  cases primary with
  | none => cases standby <;> simp [RawEntry.checked]
  | some x =>
    cases standby with
    | none => simp [RawEntry.checked_primary]
    | some z =>
      rw [RawEntry.checked_both]
      cases hx : x.checked <;> cases hz : z.checked <;> simp [hx, hz]

/-- An accepted entry without a primary unmaps its channel. -/
theorem RawEntry.unmapped_of_checked {e : RawEntry} {m : Option MapEntry} (h : e.checked = some m)
    (hp : e.primary = none) : m = none := by
  obtain ⟨primary, standby⟩ := e
  cases hp
  cases standby <;> simp_all [RawEntry.checked]

/-- An accepted entry carries its checked sources, in their places. -/
theorem RawEntry.sources_of_checked {e : RawEntry} {m : Option MapEntry} {x : RawSource} (h : e.checked = some m)
    (hx : e.primary = some x) : ∃ y, m = some y ∧ x.checked = some y.primary ∧ (e.standby = none → y.standby = none) ∧
      ∀ z, e.standby = some z → ∃ w, y.standby = some w ∧ z.checked = some w := by
  obtain ⟨primary, standby⟩ := e
  cases hx
  cases standby with
  | none =>
    rw [RawEntry.checked_primary, Option.map_eq_some_iff] at h
    obtain ⟨y, hy, rfl⟩ := h
    exact ⟨⟨y, none⟩, rfl, hy, fun _ => rfl, nofun⟩
  | some z =>
    rw [RawEntry.checked_both, Option.bind_eq_some_iff] at h
    obtain ⟨y, hy, h⟩ := h
    obtain ⟨w, hw, rfl⟩ := Option.map_eq_some_iff.1 h
    refine ⟨⟨y, some w⟩, rfl, hy, nofun, fun z' hz => ?_⟩
    cases hz
    exact ⟨w, rfl, hw⟩

/-! ## What WRITE LIMITS and WRITE INPUT MAP leave (R37, R119) -/

/-- A bad count writes no row. -/
theorem Part.writeLimitsOrder_refused (p : Part) {ps : List Byte} (h : fieldNat ps 1 1 = 0 ∨ 16 < fieldNat ps 1 1) :
    p.writeLimitsOrder ps = ⟨p, .badValue, [0]⟩ := if_pos h

/-- A good count writes rows from the start address on. -/
theorem Part.writeLimitsOrder_written (p : Part) {ps : List Byte} (h1 : 1 ≤ fieldNat ps 1 1) (h16 : fieldNat ps 1 1 ≤ 16) :
    p.writeLimitsOrder ps =
      let x := writeRows (fieldNat ps 0 1) ((pieces 14 (fieldNat ps 1 1) (ps.drop 2)).map rawRow) p.lmu.limits
      ⟨p.withLmu { p.lmu with limits := x.1 }, x.2.2, byteOf x.2.1⟩ := if_neg (by omega)

/-- In a run WRITE INPUT MAP is answered BAD_STATE. -/
theorem Part.writeMapOrder_running (p : Part) (ps : List Byte) (h : p.rnc.runState ≠ .halted) :
    p.writeMapOrder ps = ⟨p, .badState, [0]⟩ := if_pos h

/-- A bad start or count writes no entry. -/
theorem Part.writeMapOrder_refused (p : Part) {ps : List Byte} (hr : p.rnc.runState = .halted)
    (h : 6 < fieldNat ps 0 1 ∨ fieldNat ps 1 1 = 0) : p.writeMapOrder ps = ⟨p, .badValue, [0]⟩ :=
  (if_neg (not_not_intro hr)).trans (if_pos h)

/-- A good start and count write entries from the start index on. -/
theorem Part.writeMapOrder_written (p : Part) {ps : List Byte} (hr : p.rnc.runState = .halted)
    (ha : fieldNat ps 0 1 ≤ 6) (hn : 1 ≤ fieldNat ps 1 1) :
    p.writeMapOrder ps =
      let x := writeEntries (fieldNat ps 0 1) (rawEntries (fieldNat ps 1 1) (ps.drop 2)) p.shu.map
      ⟨p.withShu { p.shu with map := x.1 }, x.2.2, byteOf x.2.1⟩ :=
  (if_neg (not_not_intro hr)).trans (if_neg (by omega))

theorem pieces_length (k n : Nat) (bs : List Byte) : (pieces k n bs).length = n := by simp [pieces_eq]

theorem rawEntries_length (n : Nat) (bs : List Byte) : (rawEntries n bs).length = n := by
  induction n generalizing bs with
  | zero => rfl
  | succ n ih => simp [rawEntries, ih]

/-- What a ready WRITE LIMITS with a good count leaves: the rows in front of the first that is invalid or past address 63 (R119). -/
theorem writeLimits_written {s : State} {body : List Byte} (h : s.part.Ready 10 body)
    (h1 : 1 ≤ fieldNat (orderParams body) 1 1) (h16 : fieldNat (orderParams body) 1 1 ≤ 16) :
    let a := fieldNat (orderParams body) 0 1
    let n := fieldNat (orderParams body) 1 1
    let rows := (pieces 14 n ((orderParams body).drop 2)).map (fun bs => (rawRow bs).row)
    let k := leading LimitRow.valid 63 a rows
    ∃ limits : Vector LimitRow 64,
      exec .writeLimits s = nextWith s (Part.afterOrder { s.part with lmu := { s.part.lmu with limits := limits } } body
        (if k = n then .done else .badValue) [BitVec.ofNat 8 k]) ∧
      ∀ i : Fin 64, some limits[i] =
        if a ≤ i.val ∧ i.val < a + k then rows[i.val - a]? else some s.part.lmu.limits[i] := by
  intro a n rows k
  have hraw : ((pieces 14 n ((orderParams body).drop 2)).map rawRow).map RawRow.row = rows := List.map_map
  have hlen : ((pieces 14 n ((orderParams body).drop 2)).map rawRow).length = n := by
    rw [List.length_map, pieces_length]
  obtain ⟨hk, hr, ht⟩ := writeRows_spec a ((pieces 14 n ((orderParams body).drop 2)).map rawRow) s.part.lmu.limits
  rw [hraw] at hk ht
  rw [hlen, hk] at hr
  rw [hk] at ht
  refine ⟨(writeRows a ((pieces 14 n ((orderParams body).drop 2)).map rawRow) s.part.lmu.limits).1, ?_, fun i => ?_⟩
  · refine (answeredRow_of_answer h (s.part.taken.writeLimitsOrder_written h1 h16)).trans ?_
    dsimp only [k]
    rw [← hr, ← hk]
    rfl
  · have hjoin : ((rows.map some)[i.val - a]?).join = rows[i.val - a]? := by
      rw [List.getElem?_map]
      cases rows[i.val - a]? <;> rfl
    rw [ht i, hjoin]

/-- What a ready WRITE INPUT MAP in HALTED with a good start and count leaves: the entries in front of the first that is refused or past index 6 (R37). -/
theorem writeInputMap_written {s : State} {body : List Byte} (h : s.part.Ready 12 body) (hs : s.part.rnc.runState = .halted)
    (ha : fieldNat (orderParams body) 0 1 ≤ 6) (h1 : 1 ≤ fieldNat (orderParams body) 1 1) :
    let a := fieldNat (orderParams body) 0 1
    let n := fieldNat (orderParams body) 1 1
    let entries := (rawEntries n ((orderParams body).drop 2)).map RawEntry.checked
    let k := leading Option.isSome 6 a entries
    ∃ map : Vector (Option MapEntry) 7,
      exec .writeInputMap s = nextWith s (Part.afterOrder { s.part with shu := { s.part.shu with map := map } } body
        (if k = n then .done else .badValue) [BitVec.ofNat 8 k]) ∧
      ∀ i : Fin 7, some map[i] =
        if a ≤ i.val ∧ i.val < a + k then (entries[i.val - a]?).join else some s.part.shu.map[i] := by
  intro a n entries k
  obtain ⟨hk, hr, ht⟩ := writeEntries_spec a (rawEntries n ((orderParams body).drop 2)) s.part.shu.map
  rw [rawEntries_length, hk] at hr
  rw [hk] at ht
  refine ⟨(writeEntries a (rawEntries n ((orderParams body).drop 2)) s.part.shu.map).1, ?_, ht⟩
  refine (answeredRow_of_answer h (s.part.taken.writeMapOrder_written hs ha h1)).trans ?_
  dsimp only [k, entries]
  rw [← hr, ← hk]
  rfl

/-- Settles O46: the bytes and checks by the lemmas on rows and sources, the writes by the spec lemmas of the two table walks. -/
theorem tablesWritten : Obligations.TablesWritten := by
  unfold Obligations.TablesWritten
  refine ⟨rawRow_row, fun r => ?_, ⟨rawSource_absent, rawSource_present, rawEntries_marked⟩, fun e => ⟨?_, ?_⟩,
    fun s body => ⟨fun h => ⟨fun hn => ?_, fun h1 h16 => writeLimits_written h h1 h16⟩,
      fun h => ⟨fun hs => ?_, fun hs hb => ?_, fun hs ha h1 => writeInputMap_written h hs ha h1⟩⟩⟩
  · simp only [r.valid_iff, Thresholds.valid_iff]
  · simp only [e.checked_eq_none_iff, RawSource.checked_eq_none_iff]
  · intro m hm
    refine ⟨RawEntry.unmapped_of_checked hm, fun x hx => ?_⟩
    obtain ⟨y, hy, hprimary, hnone, hstandby⟩ := RawEntry.sources_of_checked hm hx
    refine ⟨y, hy, RawSource.fields_of_checked hprimary, hnone, fun z hz => ?_⟩
    obtain ⟨w, hw, hchecked⟩ := hstandby z hz
    exact ⟨w, hw, RawSource.fields_of_checked hchecked⟩
  · exact answeredRow_of_unchanged h (s.part.taken.writeLimitsOrder_refused hn)
  · exact answeredRow_of_unchanged h (s.part.taken.writeMapOrder_running _ hs)
  · exact answeredRow_of_unchanged h (s.part.taken.writeMapOrder_refused hs hb)

/-! ## Verdicts on sources (R28, R29, R39) -/

/-- The proven states are QUALIFIED and SUSPECT. -/
theorem HeadState.proven_iff (x : HeadState) : x.proven = true ↔ x = .qualified ∨ x = .suspect := by
  cases x <;> simp [HeadState.proven]

/-- A head has a fresh held frame where it holds one whose freshness deadline runs (R29). -/
theorem Part.heldFresh_iff (p : Part) (h : Head) :
    p.heldFresh h = true ↔ (p.hlu.heads[h]).held.isSome = true ∧ (p.shu.freshness[h]).isSome = true :=
  Bool.and_eq_true_iff

/-- A verdict names the first condition of R28 that fails, or where none does, whether the head is SUSPECT (R39). -/
theorem Part.verdict_code (p : Part) (x : Source) : (p.verdict x).code =
    if (p.hlu.heads[x.head]).state ≠ .qualified ∧ (p.hlu.heads[x.head]).state ≠ .suspect then 2
    else if (p.hlu.heads[x.head]).status.getLsbD 0 = true then 3
    else if (p.hlu.heads[x.head]).held = none ∨ p.shu.freshness[x.head] = none then 4
    else if (p.oru.settings.shapes[x.head]).channels ≤ x.position.val then 5
    else if (p.hlu.heads[x.head]).state = .suspect then 1
    else 0 := by
  have hproven : (!(p.hlu.heads[x.head]).state.proven) = true ↔
      (p.hlu.heads[x.head]).state ≠ .qualified ∧ (p.hlu.heads[x.head]).state ≠ .suspect := by
    rw [Bool.not_eq_true', ← Bool.not_eq_true, HeadState.proven_iff, not_or]
  have hfresh : (!p.heldFresh x.head) = true ↔
      (p.hlu.heads[x.head]).held = none ∨ p.shu.freshness[x.head] = none := by
    rw [Bool.not_eq_true', ← Bool.not_eq_true, Part.heldFresh_iff, not_and_or, Option.not_isSome_iff_eq_none,
      Option.not_isSome_iff_eq_none]
  simp only [Part.verdict, hproven, hfresh, apply_ite Verdict.code]
  rfl

/-! ## Channel means and held frames (R17) -/

/-- A signed field of two bytes that lie within the body. -/
theorem fieldInt_two (bs : List Byte) (off : Nat) (h : off + 1 < bs.length) :
    fieldInt bs off 2 = (bs.getD off 0 ++ bs.getD (off + 1) 0).toInt := by
  have hbytes : (bs.drop off).take 2 = [bs.getD off 0, bs.getD (off + 1) 0] := by
    rw [List.drop_eq_getElem_cons (by omega), List.drop_eq_getElem_cons h, List.getD_eq_getElem _ _ (by omega),
      List.getD_eq_getElem _ _ h]
    rfl
  rw [fieldInt, hbytes, intOfBytes_two]

/-- A sum over the first numbers as a walk along them. -/
theorem foldl_add_range (f : Nat → Int) (n : Nat) :
    ((List.range n).map f).foldl (fun a b => a + b) 0 = ∑ t ∈ Finset.range n, f t := by
  induction n with
  | zero => rfl
  | succ n ih => simp [List.range_succ, Finset.sum_range_succ, ih]

/-- The two bytes of sample `t` of channel position `c` lie within the payload. -/
theorem sample_in_payload {channels samples c t : Nat} (hc : c < channels) (ht : t < samples) :
    2 * (t * channels + c) + 1 < 2 * (samples * channels) := by
  have hrow : (t + 1) * channels ≤ samples * channels := Nat.mul_le_mul_right channels ht
  rw [Nat.succ_mul] at hrow
  omega

/-- The mean of a channel position is the sum of its samples over their number, toward zero (R17). -/
theorem channelMean_eq_sum (payload : List Byte) (channels samples c : Nat) (hc : c < channels)
    (hlen : payload.length = 2 * (samples * channels)) : channelMean payload channels samples c =
      (∑ t ∈ Finset.range samples,
        (payload.getD (2 * (t * channels + c)) 0 ++ payload.getD (2 * (t * channels + c) + 1) 0).toInt).tdiv samples := by
  rw [channelMean, foldl_add_range]
  congr 1
  refine Finset.sum_congr rfl (fun t ht => fieldInt_two _ _ ?_)
  rw [hlen]
  exact sample_in_payload hc (Finset.mem_range.1 ht)

/-- The frame that a valid SAMPLE frame leaves held (R17). -/
theorem Part.holdSample_held (p : Part) (h : Head) (hd : Header) (payload : List Byte) :
    ((p.holdSample h hd payload).hlu.heads[h]).held =
      some ⟨p.time, (List.range hd.channels).map (channelMean payload hd.channels hd.samples)⟩ := by
  have hrecord := vmodify_get p.hlu.heads h h
    (fun r => { r with held := some ⟨p.time, channelMeans payload hd.channels hd.samples⟩ })
  rw [if_pos rfl] at hrecord
  exact congrArg HeadRecord.held hrecord

/-! ## Usable sources and holding values (R28, R31) -/

/-- The usable verdicts are those with the codes 0 and 1. -/
theorem Part.sourceUsable_iff_code (p : Part) (x : Source) : p.sourceUsable x = true ↔ (p.verdict x).code ≤ 1 := by
  unfold Part.sourceUsable
  cases p.verdict x <;> decide

/-- A source is usable exactly where the four conditions hold (R28). -/
theorem Part.sourceUsable_iff (p : Part) (x : Source) : p.sourceUsable x = true ↔
    ((p.hlu.heads[x.head]).state = .qualified ∨ (p.hlu.heads[x.head]).state = .suspect) ∧
    (p.hlu.heads[x.head]).status.getLsbD 0 = false ∧
    ((p.hlu.heads[x.head]).held.isSome = true ∧ (p.shu.freshness[x.head]).isSome = true) ∧
    x.position.val < (p.oru.settings.shapes[x.head]).channels := by
  rw [p.sourceUsable_iff_code, p.verdict_code, Option.isSome_iff_ne_none, Option.isSome_iff_ne_none,
    ← Bool.not_eq_true]
  split_ifs with hstate hfault hframe hshape hsuspect
  · exact iff_of_false (by decide) (by tauto)
  · exact iff_of_false (by decide) fun ⟨_, h, _⟩ => h hfault
  · exact iff_of_false (by decide) (by tauto)
  · exact iff_of_false (by decide) fun ⟨_, _, _, h⟩ => Nat.not_lt.2 hshape h
  · exact iff_of_true (by decide) ⟨.inr hsuspect, hfault, not_or.1 hframe, Nat.lt_of_not_le hshape⟩
  · exact iff_of_true (by decide) ⟨by tauto, hfault, not_or.1 hframe, Nat.lt_of_not_le hshape⟩

/-- The holding value of a source whose mean is known (R31). -/
theorem Part.holdingValue_of_mean (p : Part) {x : Source} {f : HeldFrame} {mean : Int}
    (hf : (p.hlu.heads[x.head]).held = some f) (hm : f.means[x.position.val]? = some mean) :
    p.holdingValue x = (mean * x.gain).tdiv 4096 + x.offset := by
  rw [Part.holdingValue, hf]
  simp [List.getD_eq_getElem?_getD, hm]

/-- The product of two 16-bit numbers. -/
theorem mul_bounds_16 {m g : Int} (hm : -32768 ≤ m ∧ m ≤ 32767) (hg : -32768 ≤ g ∧ g ≤ 32767) :
    -1073741824 ≤ m * g ∧ m * g ≤ 1073741824 := by
  have habs : |m * g| ≤ 32768 * 32768 := by
    rw [abs_mul]
    exact mul_le_mul (abs_le.2 ⟨hm.1, by omega⟩) (abs_le.2 ⟨hg.1, by omega⟩) (abs_nonneg g) (by norm_num)
  have := abs_le.1 habs
  omega

/-- A mean, a gain and an offset of 16 bits each give a holding value from -294912 to 294911 (R31). -/
theorem holding_bounds {mean gain offset : Int} (hm : -32768 ≤ mean ∧ mean ≤ 32767) (hg : -32768 ≤ gain ∧ gain ≤ 32767)
    (ho : -32768 ≤ offset ∧ offset ≤ 32767) :
    -294912 ≤ (mean * gain).tdiv 4096 + offset ∧ (mean * gain).tdiv 4096 + offset ≤ 294911 := by
  obtain ⟨hlow, hhigh⟩ := mul_bounds_16 hm hg
  generalize mean * gain = product at hlow hhigh
  have hquotient : -262144 ≤ product.tdiv 4096 ∧ product.tdiv 4096 ≤ 262144 := by
    rcases le_total 0 product with h0 | h0
    · rw [Int.tdiv_eq_ediv_of_nonneg h0]
      omega
    · rw [← neg_neg product, Int.neg_tdiv, Int.tdiv_eq_ediv_of_nonneg (by omega)]
      omega
  omega

/-! ## The decision for a channel (R32, R34) -/

/-- A usable primary serves. -/
theorem Part.channelValue_primary (p : Part) {x : Source} (t : Option Source) (h : p.sourceUsable x = true) :
    p.channelValue (some ⟨x, t⟩) = some ⟨⟨p.holdingValue x, .primary⟩, x⟩ := if_pos h

/-- A usable standby serves where the primary is not usable. -/
theorem Part.channelValue_standby (p : Part) {x y : Source} (hx : p.sourceUsable x = false) (hy : p.sourceUsable y = true) :
    p.channelValue (some ⟨x, some y⟩) = some ⟨⟨p.holdingValue y, .standby⟩, y⟩ :=
  (if_neg (ne_true_of_eq_false hx)).trans (if_pos hy)

/-- A channel is absent where no source of it is usable. -/
theorem Part.channelValue_absent (p : Part) {x : Source} (hx : p.sourceUsable x = false) {t : Option Source}
    (ht : ∀ y, t = some y → p.sourceUsable y = false) : p.channelValue (some ⟨x, t⟩) = none := by
  refine (if_neg (ne_true_of_eq_false hx)).trans ?_
  cases t with
  | none => rfl
  | some y => exact if_neg (ne_true_of_eq_false (ht y rfl))

/-- The speed is absent or below the minimum measuring speed. -/
theorem Part.belowMinSpeed_iff (p : Part) (speed : Option Nat) : p.belowMinSpeed speed = true ↔
    speed = none ∨ ∃ v, speed = some v ∧ v < p.oru.settings.minSpeed := by
  cases speed <;> simp [Part.belowMinSpeed]

/-- The inertially referenced channels are 2 to 5. -/
theorem inertial_iff (i : Fin 7) : inertial i = true ↔ 2 ≤ i.val ∧ i.val ≤ 5 := by simp [inertial]

/-- The channels of a capture, those inertially referenced blanked for speed. -/
theorem Part.channelValues_get (p : Part) (speed : Option Nat) (i : Fin 7) : (p.channelValues speed)[i] =
    if (2 ≤ i.val ∧ i.val ≤ 5) ∧ (speed = none ∨ ∃ v, speed = some v ∧ v < p.oru.settings.minSpeed) then none
    else p.channelValue p.shu.map[i] := by
  rw [Part.channelValues, Fin.getElem_fin, Vector.getElem_ofFn]
  refine ite_congr ?_ (fun _ => rfl) (fun _ => rfl)
  rw [Bool.and_eq_true, p.belowMinSpeed_iff, inertial_iff, and_comm]

/-! ## The entry of a capture (R33, R84) -/

/-- A test over the present values of a capture. -/
theorem any_supplied_iff (v : Vector (Option Supplied) 7) (f : Supplied → Bool) :
    v.toList.any (fun x => x.any f) = true ↔ ∃ (i : Fin 7) (y : Supplied), v[i] = some y ∧ f y = true := by
  rw [vector_any, decide_eq_true_iff]
  exact exists_congr fun i => by rw [Option.any_eq_true]

/-- STANDBY_USED tells of a standby's value (R33). -/
theorem standbyUsed_iff (v : Vector (Option Supplied) 7) :
    standbyUsed v = true ↔ ∃ (i : Fin 7) (y : Supplied), v[i] = some y ∧ y.sample.mark = .standby := by
  have hany : standbyUsed v = v.toList.any (fun x => x.any (fun y => y.sample.mark == .standby)) := by
    unfold standbyUsed
    congr 1
    funext x
    cases x <;> rfl
  simp only [hany, any_supplied_iff, beq_iff_eq]

/-- SUSPECT_SOURCE tells of a value from a head in SUSPECT (R33). -/
theorem Part.suspectUsed_iff (p : Part) (v : Vector (Option Supplied) 7) :
    p.suspectUsed v = true ↔
      ∃ (i : Fin 7) (y : Supplied), v[i] = some y ∧ (p.hlu.heads[y.source.head]).state = .suspect := by
  have hany : p.suspectUsed v = v.toList.any (fun x => x.any (fun y => p.hlu.heads[y.source.head].state == .suspect)) := by
    unfold Part.suspectUsed
    congr 1
    funext x
    cases x <;> rfl
  simp only [hany, any_supplied_iff, beq_iff_eq]

/-- The entry of a capture carries the samples of the channels chosen for it. -/
theorem Part.entryOf_channels (p : Part) (t : TickData) (i : Fin 7) :
    (p.entryOf t).channels[i] = ((p.channelValues t.speed)[i]).map (fun y => y.sample) :=
  Vector.getElem_map (Option.map Supplied.sample) i.isLt

/-- The minimum measuring speed goes from 0 to 500. -/
theorem minSpeed_range (v : Nat) : settingInRange 7 v = true ↔ v ≤ 500 := by simp [settingInRange, between]

/-- Settles O20, part by part: the mean and the held frame, the entry, the four conditions, the holding value, and the decision for a channel. -/
theorem sourcesOfACapture : Obligations.SourcesOfACapture := by
  unfold Obligations.SourcesOfACapture
  refine ⟨channelMean_eq_sum, ⟨minSpeed_range, rfl, rfl⟩, fun p => ⟨p.holdSample_held, fun t => ?_, p.sourceUsable_iff,
    fun x f mean hf hm => ?_, rfl, fun x t hx => p.channelValue_primary t hx,
    fun x y hx hy => p.channelValue_standby hx hy, fun x y hx hy => ⟨?_, ?_⟩, p.channelValues_get⟩⟩
  · exact ⟨p.entryOf_channels t, p.belowMinSpeed_iff t.speed, standbyUsed_iff _, p.suspectUsed_iff _⟩
  · have hvalue := p.holdingValue_of_mean hf hm
    refine ⟨hvalue, fun hm1 hm2 hg1 hg2 ho1 ho2 => ?_⟩
    rw [hvalue]
    exact holding_bounds ⟨hm1, hm2⟩ ⟨hg1, hg2⟩ ⟨ho1, ho2⟩
  · exact p.channelValue_absent hx (fun z hz => Option.some.inj hz ▸ hy)
  · exact p.channelValue_absent hx nofun

/-! ## IDENTIFY, READ INPUT MAP and READ STATE (R38, R39, R184, R185) -/

/-- The part number 418, the silicon revision number and the twelve capacities, two bytes each (R184). -/
theorem identity_eq : identity = [0x01, 0xA2, Config.siliconRevision] ++
    [0, 8, 0, 7, 0, 24, 0, 128, 0, 64, 0, 64, 1, 0, 0, 16, 0, 32, 0, 64, 0, 8, 0, 4] := rfl

/-- The entries that a reading from index `a` gives are those up to index 6. -/
theorem length_mapEntries (m : Vector (Option MapEntry) 7) (a n : Nat) :
    ((m.toList.drop a).take n).length = min n (7 - a) := by simp

/-- A bad start or count reads no entry (R38). -/
theorem Part.readMapOrder_refused (p : Part) {ps : List Byte} (h : 6 < fieldNat ps 0 1 ∨ fieldNat ps 1 1 = 0) :
    p.readMapOrder ps = ⟨p, .badValue, [0]⟩ := if_pos h

/-- A good start and count read the entries up to index 6 (R38). -/
theorem Part.readMapOrder_read (p : Part) {ps : List Byte} (ha : fieldNat ps 0 1 ≤ 6) (hn : 1 ≤ fieldNat ps 1 1) :
    p.readMapOrder ps = ⟨p, if 7 < fieldNat ps 0 1 + fieldNat ps 1 1 then .badValue else .done,
      BitVec.ofNat 8 (min (fieldNat ps 1 1) (7 - fieldNat ps 0 1)) ::
        ((p.shu.map.toList.drop (fieldNat ps 0 1)).take (fieldNat ps 1 1)).flatMap p.entryBytes⟩ := by
  rw [← length_mapEntries p.shu.map]
  exact if_neg (by omega)

/-- A selection of READ STATE that names a block (R185). -/
theorem Part.readStateOrder_block (p : Part) {ps l : List Byte} (h : p.stateBytes (fieldNat ps 0 1) = some l) :
    p.readStateOrder ps = ⟨p, .done, BitVec.ofNat 8 (fieldNat ps 0 1) :: l⟩ := by
  rw [Part.readStateOrder, p.selection_eq, h]
  rfl

/-- A selection of READ STATE that names none (R185). -/
theorem Part.readStateOrder_none (p : Part) {ps : List Byte} (h : p.stateBytes (fieldNat ps 0 1) = none) :
    p.readStateOrder ps = ⟨p, .badValue, []⟩ := by
  rw [Part.readStateOrder, p.selection_eq, h]

/-- Settles O37: each of the three answers without a change of the part, READ INPUT MAP entry by entry with the verdicts of R39. -/
theorem identifyAndReadingOrdersAnswer : Obligations.IdentifyAndReadingOrdersAnswer := by
  unfold Obligations.IdentifyAndReadingOrdersAnswer
  intro s body p a n
  refine ⟨fun h => ?_, fun h => ⟨fun hb => ?_, fun ha hn => ?_⟩, fun h => ⟨fun l hl => ?_, fun hl => ?_⟩⟩
  · exact answeredRow_of_unchanged h (congrArg (Answer.mk s.part.taken .done) identity_eq)
  · exact answeredRow_of_unchanged h (s.part.taken.readMapOrder_refused hb)
  · refine (answeredRow_of_unchanged h (s.part.taken.readMapOrder_read ha hn)).trans ?_
    have hverdict : s.part.taken.verdict = s.part.verdict := rfl
    congr 4
    funext e
    cases e with
    | none => rfl
    | some e =>
      obtain ⟨primary, standby⟩ := e
      cases standby <;> simp only [Part.entryBytes, Part.sourceBytes, hverdict, Part.verdict_code] <;> rfl
  · exact answeredRow_of_unchanged h (s.part.taken.readStateOrder_block hl)
  · exact answeredRow_of_unchanged h (s.part.taken.readStateOrder_none hl)

end Sys2Proof.Machine

/-! SUPPORT. The look-ahead lists: the walk of the append orders, what every operation makes of the travel direction, the two lists, their marks and their low-water settings, and the statements on the lists and on the setting of the position. -/

namespace Sys2Proof.Machine

/-! ## Entries taken up to the first that fails (R60, R107) -/

/-- The walk of both append orders: each entry is judged against the list as it stands, and joins its tail unless it is refused. -/
def takeUpTo {α β : Type} (refusal : List β → α → Option Result) (join : α → β) : List α → List β → List β × Nat × Result
  | [], xs => (xs, 0, .done)
  | r :: rs, xs =>
    match refusal xs r with
    | some e => (xs, 0, e)
    | none => ((takeUpTo refusal join rs (xs ++ [join r])).1, (takeUpTo refusal join rs (xs ++ [join r])).2.1 + 1,
        (takeUpTo refusal join rs (xs ++ [join r])).2.2)

section
variable {α β τ : Type} {refusal : List β → α → Option Result} {join : α → β}

/-- A refused entry ends the walk. -/
theorem takeUpTo_refused {xs : List β} {r : α} {e : Result} (rs : List α) (h : refusal xs r = some e) :
    takeUpTo refusal join (r :: rs) xs = (xs, 0, e) := by rw [takeUpTo, h]

/-- An entry that is not refused joins the list, and the walk goes on. -/
theorem takeUpTo_joined {xs : List β} {r : α} (rs : List α) (h : refusal xs r = none) :
    takeUpTo refusal join (r :: rs) xs = ((takeUpTo refusal join rs (xs ++ [join r])).1,
      (takeUpTo refusal join rs (xs ++ [join r])).2.1 + 1, (takeUpTo refusal join rs (xs ++ [join r])).2.2) := by
  rw [takeUpTo, h]

/-- What every joining entry keeps, the walk keeps. -/
theorem takeUpTo_keeps {P : List β → Prop} (hstep : ∀ xs r, P xs → refusal xs r = none → P (xs ++ [join r]))
    (rs : List α) : ∀ xs, P xs → P (takeUpTo refusal join rs xs).1 := by
  induction rs with
  | nil => exact fun xs h => h
  | cons r rs ih =>
    intro xs h
    cases hr : refusal xs r with
    | some e => rwa [takeUpTo_refused rs hr]
    | none =>
      rw [takeUpTo_joined rs hr]
      exact ih _ (hstep xs r h hr)

/-- The walk judged beforehand: where an entry's refusal depends on the list's length and tail alone, the entries in front of the first refused one join, and its refusal is the result. -/
theorem takeUpTo_eq_judged {judge : (α × τ) × Nat → Option Result} {tail : List β → τ} {next : α → τ} {m : Nat}
    (hjudge : ∀ xs r n, xs.length = m + n → refusal xs r = judge ((r, tail xs), n))
    (htail : ∀ xs r, tail (xs ++ [join r]) = next r) (rs : List α) : ∀ (xs : List β) (n : Nat), xs.length = m + n →
    let judged := ((rs.zip (tail xs :: rs.map next)).zipIdx n).map judge
    let k := (judged.takeWhile Option.isNone).length
    takeUpTo refusal join rs xs = (xs ++ (rs.take k).map join, k, (judged[k]?.join).getD .done) := by
  induction rs with
  | nil =>
    intro xs n _
    simp [takeUpTo]
  | cons r rs ih =>
    intro xs n hn
    have hr := hjudge xs r n hn
    rw [List.map_cons, List.zip_cons_cons, List.zipIdx_cons, List.map_cons]
    cases he : judge ((r, tail xs), n) with
    | some e =>
      rw [he] at hr
      simp [takeUpTo_refused rs hr]
    | none =>
      rw [he] at hr
      have hnext := ih (xs ++ [join r]) (n + 1) (by simp [hn]; omega)
      rw [htail] at hnext
      rw [takeUpTo_joined rs hr, hnext]
      simp

end

/-- A raw route entry as it joins the list, its kind checked. -/
def RawRoute.entry (r : RawRoute) : RouteEntry :=
  ⟨r.distance, if r.kind = 0 then .marker (BitVec.ofNat 32 r.value) r.mask else .kpost r.value⟩

/-- The checks of R60 on one entry, in their order: the failing result, or none. -/
def routeRefusal (dir : Direction) (set : Bool) (d : Int) (xs : List RouteEntry) (r : RawRoute) : Option Result :=
  if r.kind? = none then some .badValue
  else if Config.routeCapacity ≤ xs.length then some .listFull
  else if routeOutOfSequence dir set d xs r.distance then some .outOfSequence
  else none

/-- The first check of R60: a marker, or a post with a kilometre number. -/
theorem RawRoute.kind?_eq (r : RawRoute) :
    r.kind? = if r.kind = 0 ∨ (r.kind = 1 ∧ r.value ≤ 9999) then some r.entry.kind else none := by
  unfold RawRoute.kind? RawRoute.entry
  by_cases h0 : r.kind = 0
  · simp [h0]
  · by_cases h1 : r.kind = 1 ∧ r.value ≤ 9999 <;> simp [h0, h1]

/-- The walk of APPEND ROUTE. -/
theorem takeRoutes_eq_takeUpTo (dir : Direction) (set : Bool) (d : Int) (rs : List RawRoute) :
    ∀ xs, takeRoutes dir set d rs xs = takeUpTo (routeRefusal dir set d) RawRoute.entry rs xs := by
  induction rs with
  | nil => exact fun xs => rfl
  | cons r rs ih =>
    intro xs
    unfold takeRoutes
    split
    · rename_i hk
      rw [takeUpTo_refused rs (if_pos hk)]
    · rename_i k hk
      have hentry : (⟨r.distance, k⟩ : RouteEntry) = r.entry := by
        rw [RawRoute.kind?_eq] at hk
        split at hk
        · cases hk; rfl
        · cases hk
      have hsome : r.kind? ≠ none := by rw [hk]; simp
      split
      · rename_i hfull
        rw [takeUpTo_refused rs ((if_neg hsome).trans (if_pos hfull))]
      · rename_i hfull
        split
        · rename_i hseq
          rw [takeUpTo_refused rs ((if_neg hsome).trans ((if_neg hfull).trans (if_pos hseq)))]
        · rename_i hseq
          rw [takeUpTo_joined rs ((if_neg hsome).trans ((if_neg hfull).trans (if_neg hseq))), hentry, ih]

/-- The walk of APPEND SECTIONS. -/
theorem takeSections_eq_takeUpTo (dir : Direction) (set : Bool) (d : Int) (rs : List RawSection) :
    ∀ xs, takeSections dir set d rs xs = takeUpTo (sectionRefusal dir set d) RawSection.taken rs xs := by
  induction rs with
  | nil => exact fun xs => rfl
  | cons r rs ih =>
    intro xs
    unfold takeSections
    split
    · rename_i e he
      rw [takeUpTo_refused rs he]
    · rename_i he
      rw [takeUpTo_joined rs he, ih]

/-! ## The order of the lists (R59, R106) -/

theorem beyond_trans {dir : Direction} {a b c : Int} (hab : beyond dir a b = true) (hbc : beyond dir b c = true) :
    beyond dir a c = true := by
  cases dir <;> simp only [beyond, decide_eq_true_eq] at * <;> omega

/-- An end that is not beyond a section's start is not beyond anything that its end is not beyond. -/
theorem not_beyond_of_section {dir : Direction} {a start finish b : Int} (ha : beyond dir a start = false)
    (hlong : beyond dir finish start = true) (hb : beyond dir finish b = false) : beyond dir a b = false := by
  cases dir <;> simp only [beyond, decide_eq_true_eq, decide_eq_false_iff_not] at * <;> omega

/-- A route list within its size, each entry strictly beyond every earlier one (R59). -/
def RouteInOrder (dir : Direction) (l : List RouteEntry) : Prop :=
  l.length ≤ 128 ∧ l.Pairwise (fun a b => beyond dir b.distance a.distance = true)

/-- A section list within its size, each section with its end beyond its start and starting at or beyond the end of every earlier one (R106). -/
def SectionsInOrder (dir : Direction) (l : List TrackSection) : Prop :=
  l.length ≤ 64 ∧ (∀ x ∈ l, beyond dir x.finish x.start = true) ∧
    l.Pairwise (fun a b => beyond dir a.finish b.start = false)

theorem RouteInOrder.sublist {dir : Direction} {l m : List RouteEntry} (h : RouteInOrder dir m) (hl : l.Sublist m) :
    RouteInOrder dir l := by
  obtain ⟨hsize, horder⟩ := h
  exact ⟨hl.length_le.trans hsize, horder.sublist hl⟩

theorem SectionsInOrder.sublist {dir : Direction} {l m : List TrackSection} (h : SectionsInOrder dir m)
    (hl : l.Sublist m) : SectionsInOrder dir l := by
  obtain ⟨hsize, hlong, horder⟩ := h
  exact ⟨hl.length_le.trans hsize, fun x hx => hlong x (hl.subset hx), horder.sublist hl⟩

/-- An entry strictly beyond the tail of an ordered list is strictly beyond every entry of it. -/
theorem beyond_all_of_tail {dir : Direction} {set : Bool} {d m : Int} {xs : List RouteEntry}
    (hxs : xs.Pairwise (fun a b => beyond dir b.distance a.distance = true))
    (hseq : routeOutOfSequence dir set d xs m = false) : ∀ a ∈ xs, beyond dir m a.distance = true := by
  rcases List.eq_nil_or_concat' xs with rfl | ⟨ys, t, rfl⟩
  · simp
  · simp only [routeOutOfSequence, List.getLast?_append, List.getLast?_singleton, Option.some_or,
      Bool.not_eq_false'] at hseq
    intro a ha
    rcases List.mem_append.1 ha with ha | ha
    · obtain ⟨-, -, hbefore⟩ := List.pairwise_append.1 hxs
      exact beyond_trans hseq (hbefore a ha t (by simp))
    · rwa [List.mem_singleton.1 ha]

/-- A start not short of the end of the last section is not short of the end of any. -/
theorem starts_after_all_of_tail {dir : Direction} {b : Int} {xs : List TrackSection} (hxs : SectionsInOrder dir xs)
    (htail : ∀ t, xs.getLast? = some t → beyond dir t.finish b = false) : ∀ a ∈ xs, beyond dir a.finish b = false := by
  rcases List.eq_nil_or_concat' xs with rfl | ⟨ys, t, rfl⟩
  · simp
  · obtain ⟨-, hlong, horder⟩ := hxs
    obtain ⟨-, -, hbefore⟩ := List.pairwise_append.1 horder
    have ht := htail t (by simp)
    intro a ha
    rcases List.mem_append.1 ha with ha | ha
    · exact not_beyond_of_section (hbefore a ha t (by simp)) (hlong t (by simp)) ht
    · rwa [List.mem_singleton.1 ha]

/-- APPEND ROUTE keeps the order of the route list (R59, R60). -/
theorem takeRoutes_inOrder (dir : Direction) (set : Bool) (d : Int) (rs : List RawRoute) (xs : List RouteEntry)
    (h : RouteInOrder dir xs) : RouteInOrder dir (takeRoutes dir set d rs xs).1 := by
  rw [takeRoutes_eq_takeUpTo]
  refine takeUpTo_keeps (fun xs r hxs hr => ?_) rs xs h
  unfold routeRefusal at hr
  split_ifs at hr with hkind hfull hseq
  obtain ⟨-, horder⟩ := hxs
  have hroom : xs.length < 128 := Nat.lt_of_not_le hfull
  refine ⟨by simpa using hroom, List.pairwise_append.2 ⟨horder, by simp, fun a ha b hb => ?_⟩⟩
  rw [List.mem_singleton.1 hb]
  exact beyond_all_of_tail horder (Bool.eq_false_iff.2 hseq) a ha

/-- What a section that is not refused is known to be (R107). -/
theorem sectionRefusal_none {dir : Direction} {set : Bool} {d : Int} {xs : List TrackSection} {r : RawSection}
    (h : sectionRefusal dir set d xs r = none) : beyond dir r.finish r.start = true ∧ xs.length < 64 ∧
      ∀ t, xs.getLast? = some t → beyond dir t.finish r.start = false := by
  unfold sectionRefusal at h
  by_cases hvalue : 8 ≤ r.cls ∨ beyond dir r.finish r.start = false
  · simp [hvalue] at h
  by_cases hfull : Config.sectionCapacity ≤ xs.length
  · simp [hvalue, hfull] at h
  rw [if_neg hvalue, if_neg hfull] at h
  rw [not_or, Bool.not_eq_false] at hvalue
  refine ⟨hvalue.2, Nat.lt_of_not_le hfull, fun t ht => ?_⟩
  rw [ht] at h
  simpa using h

/-- APPEND SECTIONS keeps the order of the section list (R106, R107). -/
theorem takeSections_inOrder (dir : Direction) (set : Bool) (d : Int) (rs : List RawSection) (xs : List TrackSection)
    (h : SectionsInOrder dir xs) : SectionsInOrder dir (takeSections dir set d rs xs).1 := by
  rw [takeSections_eq_takeUpTo]
  refine takeUpTo_keeps (fun xs r hxs hr => ?_) rs xs h
  obtain ⟨hlong, hroom, htail⟩ := sectionRefusal_none hr
  have ⟨_, hlongs, horder⟩ := hxs
  refine ⟨by simpa using hroom, fun x hx => ?_, List.pairwise_append.2 ⟨horder, by simp, fun a ha b hb => ?_⟩⟩
  · rcases List.mem_append.1 hx with hx | hx
    · exact hlongs x hx
    · rwa [List.mem_singleton.1 hx]
  · rw [List.mem_singleton.1 hb]
    exact starts_after_all_of_tail hxs htail a ha

/-! ## What the statement on the lists speaks of -/

/-- All that the invariant of the lists speaks of: the travel direction, both lists with their low-water marks, and their low-water settings. -/
structure LookAhead where
  direction : Direction
  route : List RouteEntry
  routeArmed : Bool
  routeSetting : Nat
  sections : List TrackSection
  sectionsArmed : Bool
  sectionsSetting : Nat

/-- The look-ahead lists of the part as they stand. -/
def Part.lookAhead (p : Part) : LookAhead where
  direction := p.odu.direction
  route := p.pfu.routeList
  routeArmed := p.pfu.lowArmed
  routeSetting := p.oru.settings.routeLowWater
  sections := p.lmu.sections
  sectionsArmed := p.lmu.lowArmed
  sectionsSetting := p.oru.settings.sectionLowWater

/-- Both lists in order, and each low-water mark armed exactly while its list stands above its setting. -/
structure LookAhead.Ordered (x : LookAhead) : Prop where
  route : RouteInOrder x.direction x.route
  routeMark : x.routeArmed = decide (x.routeSetting < x.route.length)
  sections : SectionsInOrder x.direction x.sections
  sectionsMark : x.sectionsArmed = decide (x.sectionsSetting < x.sections.length)

/-- The invariant of the statement, in one predicate. -/
theorem Part.lookAhead_ordered_iff (p : Part) :
    p.lookAhead.Ordered ↔ p.RouteOrdered ∧ p.SectionsOrdered ∧ p.MarksArmed :=
  ⟨fun h => ⟨h.route, h.sections, h.routeMark, h.sectionsMark⟩, fun ⟨hr, hs, hm⟩ => ⟨hr, hm.1, hs, hm.2⟩⟩

/-- What leaves the look-ahead lists leaves them in order. -/
theorem LookAhead.Ordered.of_eq {p q : Part} (h : p.lookAhead.Ordered) (e : q.lookAhead = p.lookAhead) :
    q.lookAhead.Ordered := e ▸ h

/-- Empty lists with their marks disarmed are in order in either direction. -/
theorem LookAhead.ordered_empty (dir : Direction) (m n : Nat) : (LookAhead.mk dir [] false m [] false n).Ordered :=
  ⟨⟨Nat.zero_le _, .nil⟩, rfl, ⟨Nat.zero_le _, by simp, .nil⟩, rfl⟩

/-- A mark that was armed as its list stood, and stays armed as the shorter list stands. -/
theorem armed_shorter {armed : Bool} {setting m n : Nat} (h : armed = decide (setting < m)) (hn : n ≤ m) :
    (armed && decide (setting < n)) = decide (setting < n) := by
  rw [h, Bool.and_eq_right_iff_imp]
  simp only [decide_eq_true_eq]
  omega

/-- A route list shortened, its mark disarmed where the list no longer stands above the setting (R64). -/
theorem LookAhead.Ordered.shorterRoute {x : LookAhead} (h : x.Ordered) {l : List RouteEntry} (hl : l.Sublist x.route) :
    LookAhead.Ordered { x with route := l, routeArmed := x.routeArmed && decide (x.routeSetting < l.length) } :=
  ⟨h.route.sublist hl, armed_shorter h.routeMark hl.length_le, h.sections, h.sectionsMark⟩

/-- A section list shortened, its mark disarmed where the list no longer stands above the setting (R112). -/
theorem LookAhead.Ordered.shorterSections {x : LookAhead} (h : x.Ordered) {l : List TrackSection}
    (hl : l.Sublist x.sections) :
    LookAhead.Ordered { x with sections := l, sectionsArmed := x.sectionsArmed && decide (x.sectionsSetting < l.length) } :=
  ⟨h.route, h.routeMark, h.sections.sublist hl, armed_shorter h.sectionsMark hl.length_le⟩

/-! ## Operations that leave the look-ahead lists -/

section
variable (p : Part)

/-- The look-ahead lists lie in four blocks. -/
theorem Part.lookAhead_eq_of_blocks {p q : Part} (hodu : q.odu.direction = p.odu.direction)
    (hlist : q.pfu.routeList = p.pfu.routeList) (hmark : q.pfu.lowArmed = p.pfu.lowArmed) (hlmu : q.lmu = p.lmu)
    (hset : q.oru.settings = p.oru.settings) : q.lookAhead = p.lookAhead := by
  simp only [Part.lookAhead, hodu, hlist, hmark, hlmu, hset]

@[simp] theorem Part.bump_lookAhead (c : Counter) : (p.bump c).lookAhead = p.lookAhead := rfl
@[simp] theorem Part.taken_lookAhead : p.taken.lookAhead = p.lookAhead := rfl
@[simp] theorem Part.fillReservation_lookAhead (f : ControlFrame) : (p.fillReservation f).lookAhead = p.lookAhead := rfl
@[simp] theorem Part.elapse_lookAhead : p.elapse.lookAhead = p.lookAhead := rfl
@[simp] theorem Part.newWindow_lookAhead : p.newWindow.lookAhead = p.lookAhead := rfl
@[simp] theorem Part.nextBoundary_lookAhead : p.nextBoundary.lookAhead = p.lookAhead := rfl
@[simp] theorem Part.carrySlip_lookAhead (b : Bool) : (p.carrySlip b).lookAhead = p.lookAhead := rfl
@[simp] theorem Part.emptySpeed_lookAhead : p.emptySpeed.lookAhead = p.lookAhead := rfl
@[simp] theorem Part.captureEntry_lookAhead (t : TickData) : (p.captureEntry t).lookAhead = p.lookAhead := rfl

@[simp] theorem Part.raise_lookAhead (e : Event) : (p.raise e).lookAhead = p.lookAhead := by simp [Part.lookAhead]
@[simp] theorem Part.moveOwed_lookAhead : p.moveOwed.lookAhead = p.lookAhead := by simp [Part.lookAhead]
@[simp] theorem Part.cut_lookAhead (c : CutFlag) : (p.cut c).lookAhead = p.lookAhead := by simp [Part.lookAhead]
@[simp] theorem Part.runTick_lookAhead (t : Time) : (p.runTick t).lookAhead = p.lookAhead := by simp [Part.lookAhead]
@[simp] theorem Part.countSlip_lookAhead (b : Bool) : (p.countSlip b).lookAhead = p.lookAhead := by simp [Part.lookAhead]
@[simp] theorem Part.sectionStarvedTest_lookAhead : p.sectionStarvedTest.lookAhead = p.lookAhead := by
  simp [Part.lookAhead]
@[simp] theorem Part.missBefore_lookAhead (n : Nat) : (p.missBefore n).lookAhead = p.lookAhead := by simp [Part.lookAhead]

/-! ### Movement of the route distance -/

@[simp] theorem Part.dropPost_lookAhead : p.dropPost.lookAhead = p.lookAhead := by
  unfold Part.dropPost
  split
  · split <;> rfl
  · rfl

@[simp] theorem Part.placeAt_lookAhead (a b : Int) : (p.placeAt a b).lookAhead = p.lookAhead :=
  Part.dropPost_lookAhead _

@[simp] theorem Part.routeSaturated_lookAhead : p.routeSaturated.lookAhead = p.lookAhead := rfl

@[simp] theorem Part.moveRoute_lookAhead (d : Int) : (p.moveRoute d).lookAhead = p.lookAhead := by
  unfold Part.moveRoute
  dsimp only
  split_ifs <;> simp

@[simp] theorem Part.addTravel_lookAhead (n : Nat) : (p.addTravel n).lookAhead = p.lookAhead := by
  unfold Part.addTravel
  split <;> rfl

@[simp] theorem Part.validityTest_lookAhead : p.validityTest.lookAhead = p.lookAhead := by
  unfold Part.validityTest
  split <;> rfl

@[simp] theorem Part.fixedAt_lookAhead (m : Int) : (p.fixedAt m).lookAhead = p.lookAhead :=
  Part.dropPost_lookAhead _

@[simp] theorem Part.handOff_lookAhead (c : Int) : (p.handOff c).lookAhead = p.lookAhead := by
  unfold Part.handOff
  simp [Part.lookAhead]

/-! ### Steps of the encoders and the comparison of the channels -/

@[simp] theorem Odu.withChannel_direction (o : Odu) (c : Encoder) (x : Channel) :
    (o.withChannel c x).direction = o.direction := by cases c <;> rfl

@[simp] theorem Odu.advance_direction (o : Odu) (d : Int) : (o.advance d).direction = o.direction := rfl

/-- The Odometry Unit replaced by one of the same direction. -/
theorem Part.withOdu_lookAhead {x : Odu} (h : x.direction = p.odu.direction) : (p.withOdu x).lookAhead = p.lookAhead :=
  Part.lookAhead_eq_of_blocks h rfl rfl rfl rfl

@[simp] theorem Part.setPhases_lookAhead (c : Encoder) (a b : Bool) : (p.setPhases c a b).lookAhead = p.lookAhead :=
  p.withOdu_lookAhead (Odu.withChannel_direction _ _ _)

@[simp] theorem Part.reversalTest_lookAhead (d : Int) : (p.reversalTest d).lookAhead = p.lookAhead := by
  unfold Part.reversalTest
  split <;> rfl

@[simp] theorem Part.activeStep_lookAhead (d : Int) : (p.activeStep d).lookAhead = p.lookAhead := by
  unfold Part.activeStep
  simp [p.withOdu_lookAhead (Odu.advance_direction _ _)]

@[simp] theorem Part.stepChannel_lookAhead (c : Encoder) (d : Int) : (p.stepChannel c d).lookAhead = p.lookAhead := by
  unfold Part.stepChannel
  dsimp only
  split <;> simp [Part.withOdu_lookAhead]

@[simp] theorem Part.phaseChange_lookAhead (c : Encoder) (a b : Bool) :
    (p.phaseChange c a b).lookAhead = p.lookAhead := by
  unfold Part.phaseChange
  dsimp only
  split <;> simp

@[simp] theorem Part.zeroUpdate_lookAhead (c : Encoder) : (p.zeroUpdate c).lookAhead = p.lookAhead := by
  unfold Part.zeroUpdate
  dsimp only
  split <;> simp [Part.withOdu_lookAhead]

@[simp] theorem Part.switchChannel_lookAhead : p.switchChannel.lookAhead = p.lookAhead := by
  have hodu : ∀ d, (p.withOdu (Odu.advance { p.odu with active := otherEncoder p.odu.active } d)).lookAhead = p.lookAhead :=
    fun _ => p.withOdu_lookAhead rfl
  unfold Part.switchChannel
  simp [hodu]

@[simp] theorem Part.judgeChannels_lookAhead : p.judgeChannels.1.lookAhead = p.lookAhead := by
  unfold Part.judgeChannels
  dsimp only
  split <;> simp

@[simp] theorem Part.comparison_lookAhead : p.comparison.1.lookAhead = p.lookAhead := by
  unfold Part.comparison Part.zeroUpdates
  dsimp only
  split <;> simp

@[simp] theorem Part.speedTick_lookAhead (t : TickData) : (p.speedTick t).lookAhead = p.lookAhead := by
  unfold Part.speedTick
  dsimp only
  split <;> rfl

@[simp] theorem Part.capture_lookAhead (t : TickData) : (p.capture t).lookAhead = p.lookAhead := by
  refine Eq.trans ?_ (p.captureEntry_lookAhead t)
  simp [Part.capture, Part.lookAhead]

/-! ### The scan of the route list -/

@[simp] theorem Part.postPassed_lookAhead (x : Post) : (p.postPassed x).lookAhead = p.lookAhead := by
  unfold Part.postPassed
  split <;> rfl

@[simp] theorem Part.missState_lookAhead : p.missState.lookAhead = p.lookAhead := by
  unfold Part.missState
  split
  · split
    · rfl
    · rfl
    · exact Part.raise_lookAhead _ _
  · rfl

@[simp] theorem Part.markerGone_lookAhead (skip : Bool) : (p.markerGone skip).lookAhead = p.lookAhead := by
  cases skip
  · exact (Part.missState_lookAhead _).trans (Part.raise_lookAhead _ _)
  · rfl

@[simp] theorem Part.scanRoute_lookAhead (skip : Bool) (l : List RouteEntry) :
    (p.scanRoute skip l).1.lookAhead = p.lookAhead := by
  induction l generalizing p with
  | nil => rfl
  | cons e es ih =>
    unfold Part.scanRoute
    split
    · split
      · simp [ih]
      · split <;> simp [ih]
    · rfl

end

/-! ## Operations that shorten the lists -/

/-- The scan keeps entries, in their order. -/
theorem Part.scanRoute_sublist (skip : Bool) (l : List RouteEntry) :
    ∀ p : Part, (p.scanRoute skip l).2.Sublist l := by
  induction l with
  | nil => exact fun p => .slnil
  | cons e es ih =>
    intro p
    unfold Part.scanRoute
    split
    · split
      · exact (ih _).cons e
      · split
        · exact (ih _).cons e
        · exact (ih p).cons_cons e
    · exact .refl _

/-- A low-water test leaves a mark armed where the list stands above its setting. -/
theorem mark_tested (armed : Bool) (len setting : Nat) :
    (if (armed && decide (len ≤ setting)) = true then false else armed) = (armed && decide (setting < len)) := by
  cases armed
  · simp
  · by_cases h : len ≤ setting
    · simp [h]
    · simp [h]; omega

/-- The low-water test disarms a mark at or below its setting, and does no more to the lists (R64). -/
theorem Part.routeLowTest_lookAhead (p : Part) : p.routeLowTest.lookAhead =
    { p.lookAhead with
      routeArmed := p.lookAhead.routeArmed && decide (p.lookAhead.routeSetting < p.lookAhead.route.length) } := by
  have hmark := mark_tested p.pfu.lowArmed p.pfu.routeList.length p.oru.settings.routeLowWater
  unfold Part.routeLowTest
  split
  · rename_i hlow
    rw [if_pos hlow] at hmark
    exact (Part.raise_lookAhead _ _).trans (congrArg (fun b => { p.lookAhead with routeArmed := b }) hmark)
  · rename_i hlow
    rw [if_neg hlow] at hmark
    exact congrArg (fun b => { p.lookAhead with routeArmed := b }) hmark

/-- The low-water test disarms a mark at or below its setting, and does no more to the lists (R112). -/
theorem Part.sectionLowTest_lookAhead (p : Part) : p.sectionLowTest.lookAhead =
    { p.lookAhead with
      sectionsArmed := p.lookAhead.sectionsArmed && decide (p.lookAhead.sectionsSetting < p.lookAhead.sections.length) } := by
  have hmark := mark_tested p.lmu.lowArmed p.lmu.sections.length p.oru.settings.sectionLowWater
  unfold Part.sectionLowTest
  split
  · rename_i hlow
    rw [if_pos hlow] at hmark
    exact (Part.raise_lookAhead _ _).trans (congrArg (fun b => { p.lookAhead with sectionsArmed := b }) hmark)
  · rename_i hlow
    rw [if_neg hlow] at hmark
    exact congrArg (fun b => { p.lookAhead with sectionsArmed := b }) hmark

/-- A removal from the route list with its low-water test (R64). -/
theorem Part.routeShortened_ordered {p : Part} (h : p.lookAhead.Ordered) {l : List RouteEntry}
    (hl : l.Sublist p.pfu.routeList) :
    ((p.withPfu { p.pfu with routeList := l }).routeLowTest).lookAhead.Ordered := by
  rw [Part.routeLowTest_lookAhead]
  exact h.shorterRoute hl

/-- Compare-and-advance of the route list, and the set advance, keep the lists in order. -/
theorem Part.routeAdvance_ordered {p : Part} (h : p.lookAhead.Ordered) (skip : Bool) :
    (p.routeAdvance skip).lookAhead.Ordered := by
  have hscan := p.scanRoute_lookAhead skip p.pfu.routeList
  have hroute : (p.scanRoute skip p.pfu.routeList).1.pfu.routeList = p.pfu.routeList :=
    congrArg LookAhead.route hscan
  have hkept := Part.scanRoute_sublist skip p.pfu.routeList p
  unfold Part.routeAdvance
  dsimp only
  split
  · rename_i hlen
    rw [hkept.eq_of_length hlen]
    refine h.of_eq (Eq.trans ?_ hscan)
    exact Part.lookAhead_eq_of_blocks rfl hroute.symm rfl rfl rfl
  · exact Part.routeShortened_ordered (h.of_eq hscan) (by rwa [hroute])

/-- Compare-and-advance of the section list keeps the lists in order. -/
theorem Part.sectionAdvance_ordered {p : Part} (h : p.lookAhead.Ordered) : p.sectionAdvance.lookAhead.Ordered := by
  have hrest : (sectionsLeft p.odu.direction p.pfu.routeDistance p.lmu.sections).Sublist p.lmu.sections :=
    List.dropWhile_sublist _
  unfold Part.sectionAdvance
  dsimp only
  split
  · exact h
  · rw [Part.sectionStarvedTest_lookAhead, Part.sectionLowTest_lookAhead]
    exact h.shorterSections hrest

/-- Compare-and-advance of both lists. -/
theorem Part.advances_ordered {p : Part} (h : p.lookAhead.Ordered) (skip : Bool) :
    ((p.routeAdvance skip).sectionAdvance).lookAhead.Ordered := 
  Part.sectionAdvance_ordered (Part.routeAdvance_ordered h skip)

/-! ## Fixes (R70 to R74) -/

/-- A match stands in the list between the entries before it and those after it (R71). -/
theorem findMatch_split {w d : Int} {code : BitVec 32} {l : List RouteEntry} :
    ∀ {n : Nat} {x : List RouteEntry × Int × List RouteEntry}, findMatch w d code n l = some x →
      ∃ e, l = x.1 ++ e :: x.2.2 := by
  induction l with
  | nil => intro n x h; cases n <;> cases h
  | cons e es ih =>
    intro n x h
    cases n with
    | zero => cases h
    | succ n =>
      have hlater : ∀ {m}, (findMatch w d code m es).map (fun y => (e :: y.1, y.2)) = some x →
          ∃ e', e :: es = x.1 ++ e' :: x.2.2 := by
        intro m hm
        obtain ⟨y, hy, rfl⟩ := Option.map_eq_some_iff.1 hm
        obtain ⟨e', he'⟩ := ih hy
        exact ⟨e', congrArg (e :: ·) he'⟩
      rw [findMatch] at h
      split at h
      · exact hlater h
      · split at h
        · cases h
          exact ⟨e, rfl⟩
        · exact hlater h

/-- A fix keeps entries of the list, in their order (R72). -/
theorem Part.fix_ordered {p : Part} (h : p.lookAhead.Ordered) {before after : List RouteEntry} {e : RouteEntry} (m : Int)
    (hl : p.pfu.routeList = before ++ e :: after) : (p.fix before m after).lookAhead.Ordered := by
  have hkept : (before.filter (fun e => !e.isMarker) ++ after).Sublist p.pfu.routeList := by
    rw [hl]
    exact List.filter_sublist.append (List.sublist_cons_self e after)
  have hmiss : (p.missBefore (before.countP RouteEntry.isMarker)).lookAhead.Ordered := by simpa using h
  unfold Part.fix
  dsimp only
  apply Part.advances_ordered
  simp only [Part.handOff_lookAhead, Part.raise_lookAhead, Part.bump_lookAhead, Part.fixedAt_lookAhead]
  exact Part.routeShortened_ordered hmiss (by simpa using hkept)

/-- A marker detection keeps the lists in order. -/
theorem Part.detect_ordered {p : Part} (h : p.lookAhead.Ordered) (code : BitVec 32) :
    (p.detect code).lookAhead.Ordered := by
  unfold Part.detect
  split
  · exact h
  · split
    · rename_i x hx
      obtain ⟨e, he⟩ := findMatch_split hx
      exact Part.fix_ordered h x.2.1 he
    · exact h.of_eq (Part.raise_lookAhead _ _)

/-! ## Ticks and reversals (R46, R65, R114) -/

theorem Part.tickAdvance_ordered {p : Part} (h : p.lookAhead.Ordered) : p.tickAdvance.lookAhead.Ordered := by
  unfold Part.tickAdvance
  split
  · exact h
  · exact Part.advances_ordered h false

theorem Part.tickOnce_ordered {p : Part} (h : p.lookAhead.Ordered) (found : Bool) :
    (p.tickOnce found).lookAhead.Ordered := by
  have hadvance : ((((p.speedTick (p.tickData found)).bump .ticks).runTick
      (p.tickData found).time).tickAdvance).lookAhead.Ordered := Part.tickAdvance_ordered (by simpa using h)
  unfold Part.tickOnce Part.deliverTick
  dsimp only
  split
  · exact hadvance.of_eq (Part.capture_lookAhead _ _)
  · exact hadvance

theorem Part.switchTicks_ordered (found : Bool) (n : Nat) :
    ∀ {p : Part}, p.lookAhead.Ordered → (p.switchTicks found n).lookAhead.Ordered := by
  induction n with
  | zero => exact id
  | succ n ih =>
    intro p h
    unfold Part.switchTicks
    split
    · exact ih (Part.tickOnce_ordered (h.of_eq (Part.nextBoundary_lookAhead p)) found)
    · exact h

theorem Part.tickEvent_ordered {p : Part} (h : p.lookAhead.Ordered) : p.tickEvent.lookAhead.Ordered := by
  unfold Part.tickEvent
  split
  · exact Part.switchTicks_ordered _ _ (Part.tickOnce_ordered (by simpa using h) _)
  · exact h

theorem Part.watchEvent_ordered {p : Part} (h : p.lookAhead.Ordered) : p.watchEvent.lookAhead.Ordered := by
  unfold Part.watchEvent
  split
  · exact Part.switchTicks_ordered _ _ (by simpa using h)
  · exact h

/-- A reversal empties both lists. -/
theorem Part.reverse_ordered (p : Part) : p.reverse.lookAhead.Ordered := by
  have hflush : ∀ q : Part, q.reversalFlush.lookAhead = q.lookAhead := fun q => by simp [Part.lookAhead]
  unfold Part.reverse
  rw [Part.cut_lookAhead, hflush]
  exact LookAhead.ordered_empty _ _ _

theorem Part.reversalEvent_ordered {p : Part} (h : p.lookAhead.Ordered) : p.reversalEvent.lookAhead.Ordered := by
  unfold Part.reversalEvent
  split
  · exact p.reverse_ordered
  · exact h

/-- An encoder step, the motion events that are due taken first, keeps the lists in order. -/
theorem Part.encoderStep_ordered {p : Part} (h : p.lookAhead.Ordered) (c : Encoder) (a b : Bool) :
    (p.settleMotion.phaseChange c a b).lookAhead.Ordered := by
  rw [Part.phaseChange_lookAhead]
  exact Part.watchEvent_ordered (Part.tickEvent_ordered (Part.reversalEvent_ordered h))

/-! ## The head link -/

section
variable (p : Part)

@[simp] theorem Part.completeRelay_lookAhead (x : RelaySlot) (r : Result) (l : List Byte) :
    (p.completeRelay x r l).lookAhead = p.lookAhead := by
  unfold Part.completeRelay
  dsimp only
  split <;> rfl

@[simp] theorem Part.takeReply_lookAhead (h : Head) (l : List Byte) : (p.takeReply h l).lookAhead = p.lookAhead := by
  unfold Part.takeReply
  split
  · split <;> simp
  · simp

@[simp] theorem Part.setRx_lookAhead (x : HeadRx) : (p.setRx x).lookAhead = p.lookAhead := rfl
@[simp] theorem Part.lockEvent_lookAhead : p.lockEvent.lookAhead = p.lookAhead := by simp [Part.lookAhead]
@[simp] theorem Part.countViolation_lookAhead (c : LineChar) : (p.countViolation c).lookAhead = p.lookAhead := by
  simp [Part.lookAhead]
@[simp] theorem Part.framingError_lookAhead (x : HeadRx) : (p.framingError x).lookAhead = p.lookAhead := by
  simp [Part.lookAhead]
@[simp] theorem Part.badFrame_lookAhead (h : Head) (b : Bool) : (p.badFrame h b).lookAhead = p.lookAhead := by
  simp [Part.lookAhead]
@[simp] theorem Part.validFrame_lookAhead (h : Head) (q : BitVec 8) : (p.validFrame h q).lookAhead = p.lookAhead := by
  simp [Part.lookAhead]
@[simp] theorem Part.holdSample_lookAhead (h : Head) (hd : Header) (l : List Byte) :
    (p.holdSample h hd l).lookAhead = p.lookAhead := rfl
@[simp] theorem Part.mirrorCopy_lookAhead (h : Head) (k : HeadKind) (l : List Byte) :
    (p.mirrorCopy h k l).lookAhead = p.lookAhead := by simp [Part.lookAhead]
@[simp] theorem Part.takeStatus_lookAhead (h : Head) (b : BitVec 8) : (p.takeStatus h b).lookAhead = p.lookAhead := by
  simp [Part.lookAhead]
@[simp] theorem Part.frameData_lookAhead (l : List Byte) (hd : Option Header) (b : Byte) :
    (p.frameData l hd b).lookAhead = p.lookAhead := by simp [Part.lookAhead]
@[simp] theorem Part.charOutside_lookAhead (b : Bool) (c : LineChar) : (p.charOutside b c).lookAhead = p.lookAhead := by
  simp [Part.lookAhead]
@[simp] theorem Part.charPassing_lookAhead (c : LineChar) : (p.charPassing c).lookAhead = p.lookAhead := by
  simp [Part.lookAhead]
@[simp] theorem Part.charHunting_lookAhead (c : LineChar) : (p.charHunting c).lookAhead = p.lookAhead := by
  simp [Part.lookAhead]

end

theorem Part.takeMarker_ordered {p : Part} (h : p.lookAhead.Ordered) (hd : Head) (code : BitVec 32) :
    (p.takeMarker hd code).lookAhead.Ordered := by
  unfold Part.takeMarker
  split
  · split
    · exact Part.detect_ordered h code
    · exact h
  · exact h

/-- Of the four kinds of frame a MARKER alone can touch the lists. -/
theorem Part.takeKind_ordered {p : Part} (h : p.lookAhead.Ordered) (g : Head) (hd : Header) (bytes : List Byte) :
    (p.takeKind g hd bytes).lookAhead.Ordered := by
  unfold Part.takeKind
  split
  · simpa using h
  · exact Part.takeMarker_ordered h g _
  · simpa using h
  · simpa using h

theorem Part.judgeFrame_ordered {p : Part} (h : p.lookAhead.Ordered) (bytes : List Byte) (hd : Header) :
    (p.judgeFrame bytes hd).lookAhead.Ordered := by
  unfold Part.judgeFrame
  split
  · exact h
  · split
    · simpa using h
    · split
      · simpa using h
      · exact Part.takeKind_ordered (by simpa using h) _ _ _

theorem Part.frameEnd_ordered {p : Part} (h : p.lookAhead.Ordered) (bytes : List Byte) (hd : Option Header) :
    (p.frameEnd bytes hd).lookAhead.Ordered := by
  unfold Part.frameEnd
  split
  · simpa using h
  · split
    · simpa using h
    · exact Part.judgeFrame_ordered (p := p.setRx .outside) h _ _

theorem Part.charInFrame_ordered {p : Part} (h : p.lookAhead.Ordered) (bytes : List Byte) (hd : Option Header)
    (c : LineChar) : (p.charInFrame bytes hd c).lookAhead.Ordered := by
  cases c with
  | idle => exact h
  | violation => exact h.of_eq (Part.framingError_lookAhead _ _)
  | frameStart =>
    unfold Part.charInFrame
    dsimp only
    split <;> simpa using h
  | data b => exact h.of_eq (Part.frameData_lookAhead _ _ _ _)
  | frameEnd => exact Part.frameEnd_ordered h bytes hd

theorem Part.charTaken_ordered {p : Part} (h : p.lookAhead.Ordered) (c : LineChar) :
    (p.charTaken c).lookAhead.Ordered := by
  unfold Part.charTaken
  split
  · split
    · simpa using h
    · simpa using h
    · simpa using h
    · exact Part.charInFrame_ordered h _ _ c
  · simpa using h

theorem Part.headChar_ordered {p : Part} (h : p.lookAhead.Ordered) (c : LineChar) : (p.headChar c).lookAhead.Ordered :=
  Part.charTaken_ordered (by simpa using h) c

/-- The characters of a head frame keep the lists in order. -/
theorem Part.headFrame_ordered {p : Part} (h : p.lookAhead.Ordered) (chars : List LineChar) :
    (p.headFrame chars).lookAhead.Ordered := by
  unfold Part.headFrame
  induction LineChar.frameStart :: chars generalizing p with
  | nil => exact h
  | cons c cs ih => exact ih (Part.headChar_ordered h c)

theorem Part.relayTimeoutEvent_ordered {p : Part} (h : p.lookAhead.Ordered) : p.relayTimeoutEvent.lookAhead.Ordered := by
  unfold Part.relayTimeoutEvent
  split
  · simpa using h
  · exact h

/-! ## The recorder link -/

section
variable (p : Part)

@[simp] theorem Part.takeInbound_settings (bytes : List Byte) : (p.takeInbound bytes).oru.settings = p.oru.settings := by
  unfold Part.takeInbound Part.offerOrder
  dsimp only
  split
  · split
    · simp
    · split <;> simp
  · split <;> simp

@[simp] theorem Part.charUp_settings (c : LineChar) : (p.charUp c).oru.settings = p.oru.settings := by
  cases c with
  | frameEnd =>
    unfold Part.charUp Part.inboundEnd
    dsimp only
    split
    · simp
    · split <;> simp
  | _ => simp [Part.charUp]

@[simp] theorem Part.recorderChar_settings (c : LineChar) : (p.recorderChar c).oru.settings = p.oru.settings := by
  unfold Part.recorderChar Part.recorderTaken
  split <;> simp

@[simp] theorem Part.recorderChar_lookAhead (c : LineChar) : (p.recorderChar c).lookAhead = p.lookAhead := by
  simp [Part.lookAhead]

@[simp] theorem Part.recorderFrame_lookAhead (chars : List LineChar) : (p.recorderFrame chars).lookAhead = p.lookAhead := by
  unfold Part.recorderFrame
  induction LineChar.frameStart :: chars generalizing p with
  | nil => rfl
  | cons c cs ih => exact (ih _).trans (p.recorderChar_lookAhead c)

end

/-! ## The orders on the position and the lists (R60, R61, R79, R107, R108) -/

/-- SET POSITION keeps the lists in order: it empties them or advances them. -/
theorem Part.setPositionTo_ordered {p : Part} (h : p.lookAhead.Ordered) (route : Int) (dir : Direction) :
    (p.setPositionTo route dir).lookAhead.Ordered := by
  have hturned : (p.turnTo dir).lookAhead.Ordered := by
    unfold Part.turnTo
    split
    · exact h
    · exact LookAhead.ordered_empty _ _ _
  unfold Part.setPositionTo
  dsimp only
  split
  · exact (Part.advances_ordered (by exact hturned) true).of_eq (Part.cut_lookAhead _ _)
  · exact Part.advances_ordered (by exact hturned) true

theorem Part.positionOrder_ordered {p : Part} (h : p.lookAhead.Ordered) (ps : List Byte) :
    (p.positionOrder ps).part.lookAhead.Ordered := by
  unfold Part.positionOrder
  split
  · exact h
  · split
    · exact h
    · rename_i dir _ _
      exact Part.setPositionTo_ordered h (fieldInt ps 0 4) dir

/-- A mark that an append arms where its list stands above the setting. -/
theorem mark_appended {armed : Bool} {setting m n : Nat} (h : armed = decide (setting < m)) (hn : m ≤ n) :
    (armed || decide (setting < n)) = decide (setting < n) := by
  rw [h, Bool.or_eq_right_iff_imp]
  simp only [decide_eq_true_eq]
  omega

/-- What APPEND ROUTE makes of the part (R60, R64). -/
theorem Part.appendRouteList_eq (p : Part) (rs : List RawRoute) :
    let x := takeRoutes p.odu.direction (p.pfu.position != .unset) p.pfu.routeDistance rs p.pfu.routeList
    p.appendRouteList rs = (p.withPfu { p.pfu with
      routeList := x.1
      lowArmed := p.pfu.lowArmed || decide (p.oru.settings.routeLowWater < x.1.length) }, x.2) := by
  intro x
  unfold Part.appendRouteList
  dsimp only
  by_cases hlow : p.oru.settings.routeLowWater < x.1.length
  · rw [if_pos hlow, decide_eq_true hlow, Bool.or_true]
    exact congrArg (fun b => (p.withPfu { p.pfu with routeList := x.1, lowArmed := b }, x.2)) (decide_eq_true hlow)
  · rw [if_neg hlow, decide_eq_false hlow, Bool.or_false]

/-- What APPEND SECTIONS makes of the part (R107, R112). -/
theorem Part.appendSectionList_eq (p : Part) (rs : List RawSection) :
    let x := takeSections p.odu.direction (p.pfu.position != .unset) p.pfu.routeDistance rs p.lmu.sections
    p.appendSectionList rs = (p.withLmu { p.lmu with
      sections := x.1
      lowArmed := p.lmu.lowArmed || decide (p.oru.settings.sectionLowWater < x.1.length) }, x.2) := by
  intro x
  unfold Part.appendSectionList
  dsimp only
  by_cases hlow : p.oru.settings.sectionLowWater < x.1.length
  · rw [if_pos hlow, decide_eq_true hlow, Bool.or_true]
    exact congrArg (fun b => (p.withLmu { p.lmu with sections := x.1, lowArmed := b }, x.2)) (decide_eq_true hlow)
  · rw [if_neg hlow, decide_eq_false hlow, Bool.or_false]

theorem Part.appendRouteOrder_ordered {p : Part} (h : p.lookAhead.Ordered) (ps : List Byte) :
    (p.appendRouteOrder ps).part.lookAhead.Ordered := by
  unfold Part.appendRouteOrder
  dsimp only
  split
  · exact h
  · rw [Part.appendRouteList_eq]
    exact ⟨takeRoutes_inOrder _ _ _ _ _ h.route, mark_appended h.routeMark (takeRoutes_spec _ _ _ _ _).1.length_le,
      h.sections, h.sectionsMark⟩

theorem Part.appendSectionsOrder_ordered {p : Part} (h : p.lookAhead.Ordered) (ps : List Byte) :
    (p.appendSectionsOrder ps).part.lookAhead.Ordered := by
  unfold Part.appendSectionsOrder
  dsimp only
  split
  · exact h
  · rw [Part.appendSectionList_eq]
    exact ⟨h.route, h.routeMark, takeSections_inOrder _ _ _ _ _ h.sections,
      mark_appended h.sectionsMark (takeSections_spec _ _ _ _ _).1.length_le⟩

/-- The route list emptied. -/
theorem Part.emptyRoute_ordered {p : Part} (h : p.lookAhead.Ordered) : p.emptyRoute.lookAhead.Ordered :=
  ⟨⟨Nat.zero_le _, .nil⟩, rfl, h.sections, h.sectionsMark⟩

/-- The section list emptied. -/
theorem Part.emptySections_ordered {p : Part} (h : p.lookAhead.Ordered) : p.emptySections.lookAhead.Ordered :=
  ⟨h.route, h.routeMark, ⟨Nat.zero_le _, by simp [Part.lookAhead, Part.emptySections], .nil⟩, rfl⟩

theorem Part.clearOrder_ordered {p : Part} (h : p.lookAhead.Ordered) (ps : List Byte) :
    (p.clearOrder ps).part.lookAhead.Ordered := by
  unfold Part.clearOrder
  dsimp only
  split_ifs
  · exact Part.emptyRoute_ordered h
  · exact Part.emptySections_ordered h
  · exact Part.emptySections_ordered (Part.emptyRoute_ordered h)
  · exact h

/-! ## The settings (R64, R112, R182) -/

/-- Each low-water setting is written by its own number alone. -/
theorem Settings.write_lowWater (s : Settings) {n : Nat} (a v : Nat) (hroute : n ≠ 28) (hsections : n ≠ 29) :
    (s.write n a v).routeLowWater = s.routeLowWater ∧ (s.write n a v).sectionLowWater = s.sectionLowWater := by
  unfold Settings.write
  split <;> simp at hroute hsections ⊢

/-- No owner of another setting touches the lists. -/
theorem Part.settingEffect_lookAhead (p : Part) {n : Nat} (a : Nat) (hroute : n ≠ 28) (hsections : n ≠ 29) :
    (p.settingEffect n a).lookAhead = p.lookAhead := by
  unfold Part.settingEffect
  split
  · rfl
  · rfl
  · simp [Part.lookAhead]
  · exact p.validityTest_lookAhead
  · exact absurd rfl hroute
  · exact absurd rfl hsections
  · rfl

/-- A low-water setting written arms or disarms its mark by the list's length; another setting leaves the lists. -/
theorem Part.setting_ordered {p : Part} (h : p.lookAhead.Ordered) (n a v : Nat) :
    ((p.withSettings (p.oru.settings.write n a v)).settingEffect n a).lookAhead.Ordered := by
  by_cases hroute : n = 28
  · subst hroute
    exact ⟨h.route, rfl, h.sections, h.sectionsMark⟩
  by_cases hsections : n = 29
  · subst hsections
    exact ⟨h.route, h.routeMark, h.sections, rfl⟩
  have hwrite := p.oru.settings.write_lowWater a v hroute hsections
  refine h.of_eq ((Part.settingEffect_lookAhead _ a hroute hsections).trans ?_)
  simp [Part.lookAhead, Part.withSettings, hwrite]

theorem Part.setOrder_ordered {p : Part} (h : p.lookAhead.Ordered) (ps : List Byte) :
    (p.setOrder ps).part.lookAhead.Ordered := by
  unfold Part.setOrder
  dsimp only
  split
  · exact h
  · exact h
  · exact Part.setting_ordered h _ _ _

/-! ## The other orders -/

/-- An owner that touches neither the lists nor the low-water settings. -/
def LeavesLists (owner : Part → List Byte → Answer) : Prop := ∀ p ps, (owner p ps).part.lookAhead = p.lookAhead

theorem Part.beginRun_lookAhead (p : Part) (number : BitVec 16) : (p.beginRun number).lookAhead = p.lookAhead := by
  simp [Part.beginRun, Part.emptySpeed, Part.lookAhead]

theorem startOrder_leavesLists : LeavesLists Part.startOrder := by
  intro p ps
  unfold Part.startOrder
  split
  · rfl
  · exact p.beginRun_lookAhead _

theorem stopOrder_leavesLists : LeavesLists Part.stopOrder := by
  intro p ps
  simp [Part.stopOrder, Part.lookAhead]

theorem getOrder_leavesLists : LeavesLists Part.getOrder := by
  intro p ps
  unfold Part.getOrder
  dsimp only
  split <;> rfl

theorem writeLimitsOrder_leavesLists : LeavesLists Part.writeLimitsOrder := by
  intro p ps
  unfold Part.writeLimitsOrder
  dsimp only
  split <;> rfl

theorem readLimitsOrder_leavesLists : LeavesLists Part.readLimitsOrder := by
  intro p ps
  unfold Part.readLimitsOrder
  dsimp only
  split <;> rfl

theorem writeMapOrder_leavesLists : LeavesLists Part.writeMapOrder := by
  intro p ps
  unfold Part.writeMapOrder
  dsimp only
  split_ifs <;> rfl

theorem readMapOrder_leavesLists : LeavesLists Part.readMapOrder := by
  intro p ps
  unfold Part.readMapOrder
  dsimp only
  split <;> rfl

theorem readStateOrder_leavesLists : LeavesLists Part.readStateOrder := by
  intro p ps
  unfold Part.readStateOrder
  split <;> rfl

theorem readCountersOrder_leavesLists : LeavesLists Part.readCountersOrder := by
  intro p ps
  unfold Part.readCountersOrder
  dsimp only
  split
  · dsimp only
    split
    · rfl
    · simp [Part.lookAhead]
  · rfl

theorem restoreOrder_leavesLists : LeavesLists Part.restoreOrder := by
  intro p ps
  unfold Part.restoreOrder
  split
  · rfl
  · dsimp only
    split
    · simp [Part.lookAhead]
    · rfl

/-! ## Order rows, commands and steps -/

theorem Part.refuseLength_lookAhead (p : Part) (body : List Byte) : (p.refuseLength body).lookAhead = p.lookAhead := by
  simp [Part.lookAhead]

/-- An order row keeps the lists in order where its order does. -/
theorem Part.orderRow_ordered {p : Part} (h : p.lookAhead.Ordered) (code : Nat) (sel : List Byte → Bool)
    {carry : Part → List Byte → Part} (hcarry : ∀ q body, q.lookAhead.Ordered → (carry q body).lookAhead.Ordered) :
    (p.orderRow code sel carry).lookAhead.Ordered := by
  unfold Part.orderRow
  split
  · split
    · unfold Part.carryOut
      split
      · exact hcarry _ _ (h.of_eq p.taken_lookAhead)
      · exact h.of_eq ((Part.refuseLength_lookAhead _ _).trans p.taken_lookAhead)
    · exact h
  · exact h

/-- The reply of an order leaves the lists as its owner has left them. -/
theorem answered_ordered {owner : Part → List Byte → Answer} {p : Part} {body : List Byte}
    (h : (owner p (orderParams body)).part.lookAhead.Ordered) : (answered owner p body).lookAhead.Ordered :=
  h.of_eq (Part.fillReservation_lookAhead _ _)

/-- An order answered within its taking keeps the lists in order where its owner does. -/
theorem Part.answeredRow_ordered {p : Part} (h : p.lookAhead.Ordered) (code : Nat) {owner : Part → List Byte → Answer}
    (howner : ∀ {q : Part}, q.lookAhead.Ordered → ∀ ps, (owner q ps).part.lookAhead.Ordered) :
    (p.answeredRow code owner).lookAhead.Ordered :=
  Part.orderRow_ordered h code _ fun _ body hq => answered_ordered (howner hq (orderParams body))

/-- An order whose owner leaves the lists keeps them in order. -/
theorem Part.answeredRow_ordered_of_leaves {p : Part} (h : p.lookAhead.Ordered) (code : Nat)
    {owner : Part → List Byte → Answer} (howner : LeavesLists owner) : (p.answeredRow code owner).lookAhead.Ordered :=
  Part.answeredRow_ordered h code fun hq ps => hq.of_eq (howner _ ps)

/-- A SET row of one setting number. -/
theorem Part.setRow_ordered {p : Part} (h : p.lookAhead.Ordered) (n : Nat) : (p.setRow n).lookAhead.Ordered :=
  Part.orderRow_ordered h 2 _ fun _ body hq => answered_ordered (Part.setOrder_ordered hq (orderParams body))

theorem Part.headOrder_lookAhead (p : Part) (body : List Byte) : (p.headOrder body).lookAhead = p.lookAhead := by
  unfold Part.headOrder
  split <;> rfl

theorem Part.unknownRow_lookAhead (p : Part) : p.unknownRow.lookAhead = p.lookAhead := by
  unfold Part.unknownRow
  split
  · split
    · simp
    · rfl
  · rfl

/-- A hard reset empties the lists, or the pulse is too short to be one. -/
theorem Part.resetBy_ordered {p : Part} (h : p.lookAhead.Ordered) (c : ResetCause) : (p.resetBy c).lookAhead.Ordered := by
  cases c with
  | powerOn => exact LookAhead.ordered_empty _ _ _
  | heldLow => exact LookAhead.ordered_empty _ _ _
  | pulse ns =>
    unfold Part.resetBy
    dsimp only
    split
    · exact LookAhead.ordered_empty _ _ _
    · exact h

/-- A command whose effect keeps the lists in order keeps them so to its end (R148). -/
theorem live_ordered {s t : State} {f : Part → Part} (h : s.part.lookAhead.Ordered) (hf : (f s.part).lookAhead.Ordered)
    (ht : live s f = .next t) : t.part.lookAhead.Ordered := by
  cases hheld : s.part.resetHeld with
  | true =>
    rw [live_held s f hheld] at ht
    cases ht
    exact h
  | false =>
    rw [live_next s f hheld] at ht
    cases ht
    exact hf.of_eq (Part.moveOwed_lookAhead _)

/-- A command whose effect leaves the lists keeps them in order to its end. -/
theorem live_ordered_of_leaves {s t : State} {f : Part → Part} (h : s.part.lookAhead.Ordered)
    (hf : ∀ p, (f p).lookAhead = p.lookAhead) (ht : live s f = .next t) : t.part.lookAhead.Ordered :=
  live_ordered h (h.of_eq (hf _)) ht

/-! ### Events that leave the lists -/

section
variable (p : Part)

theorem Part.headLoss_lookAhead : p.headLoss.lookAhead = p.lookAhead := by simp [Part.lookAhead]
theorem Part.watchdogEvent_lookAhead (h : Head) : (p.watchdogEvent h).lookAhead = p.lookAhead := by
  simp [Part.lookAhead]
theorem Part.freshnessEvent_lookAhead (h : Head) : (p.freshnessEvent h).lookAhead = p.lookAhead := by
  simp [Part.lookAhead]
theorem Part.relaySentEvent_lookAhead : p.relaySentEvent.lookAhead = p.lookAhead := by simp [Part.lookAhead]
theorem Part.closeEvent_lookAhead (n : SlotNo) : (p.closeEvent n).lookAhead = p.lookAhead := by simp [Part.lookAhead]
theorem Part.gapEvent_lookAhead (n : SlotNo) : (p.gapEvent n).lookAhead = p.lookAhead := by simp [Part.lookAhead]
theorem Part.recorderLoss_lookAhead : p.recorderLoss.lookAhead = p.lookAhead := by simp [Part.lookAhead]
theorem Part.linkUpEvent_lookAhead : p.linkUpEvent.lookAhead = p.lookAhead := by simp [Part.lookAhead]
theorem Part.arbiterEvent_lookAhead : p.arbiterEvent.lookAhead = p.lookAhead := by simp [Part.lookAhead]
theorem Part.leavingWith_lookAhead (b : Bool) : (p.leavingWith b).lookAhead = p.lookAhead := by simp [Part.lookAhead]

theorem Part.historyEvent_lookAhead : p.historyEvent.lookAhead = p.lookAhead := by
  unfold Part.historyEvent
  split <;> simp

theorem Part.parkEvent_lookAhead : p.parkEvent.lookAhead = p.lookAhead := by
  unfold Part.parkEvent Part.enterParked
  split
  · simp [Part.lookAhead, Part.emptySpeed]
  · rfl

end

/-- Every command keeps the lists in order. -/
theorem exec_ordered {i : Instr} {s t : State} (h : s.part.lookAhead.Ordered) (ht : exec i s = .next t) :
    t.part.lookAhead.Ordered := by
  cases i with
  | hardReset c =>
    cases ht
    exact (Part.resetBy_ordered h c).of_eq (Part.moveOwed_lookAhead _)
  | resetNRisingEdge =>
    simp only [exec, execResetNRisingEdge] at ht
    split at ht
    · cases ht
      exact LookAhead.ordered_empty _ _ _
    · exact live_ordered h h ht
  | headLinkCharacter line => exact live_ordered (f := fun p => p.headChar (lineCharOf line)) h (Part.headChar_ordered h _) ht
  | sampleFrame chars => exact live_ordered (f := fun p => p.headFrame chars) h (Part.headFrame_ordered h chars) ht
  | markerFrame chars => exact live_ordered (f := fun p => p.headFrame chars) h (Part.headFrame_ordered h chars) ht
  | statusFrame chars => exact live_ordered (f := fun p => p.headFrame chars) h (Part.headFrame_ordered h chars) ht
  | replyFrame chars => exact live_ordered (f := fun p => p.headFrame chars) h (Part.headFrame_ordered h chars) ht
  | headLinkLossOfSignal => exact live_ordered_of_leaves h Part.headLoss_lookAhead ht
  | headLinkLock => exact live_ordered_of_leaves h Part.lockEvent_lookAhead ht
  | watchdogExpiry g => exact live_ordered_of_leaves (f := fun p => p.watchdogEvent g) h (fun p => p.watchdogEvent_lookAhead g) ht
  | freshnessDeadline g => exact live_ordered_of_leaves (f := fun p => p.freshnessEvent g) h (fun p => p.freshnessEvent_lookAhead g) ht
  | relayFrameSent => exact live_ordered_of_leaves h Part.relaySentEvent_lookAhead ht
  | relayTimeout => exact live_ordered h (Part.relayTimeoutEvent_ordered h) ht
  | encoderStep c a b =>
    simp only [exec, execEncoderStep] at ht
    split at ht
    · cases ht
      exact h.of_eq (Part.setPhases_lookAhead _ c a b)
    · exact live_ordered h (Part.encoderStep_ordered h c a b) ht
  | tick => exact live_ordered h (Part.tickEvent_ordered h) ht
  | watchPoint => exact live_ordered h (Part.watchEvent_ordered h) ht
  | reversal => exact live_ordered h (Part.reversalEvent_ordered h) ht
  | closeLengthReached n => exact live_ordered_of_leaves (f := fun p => p.closeEvent n) h (fun p => p.closeEvent_lookAhead n) ht
  | mergeGapExceeded n => exact live_ordered_of_leaves (f := fun p => p.gapEvent n) h (fun p => p.gapEvent_lookAhead n) ht
  | historyExpiry => exact live_ordered_of_leaves h Part.historyEvent_lookAhead ht
  | fixValidityExceeded => exact live_ordered_of_leaves h Part.validityTest_lookAhead ht
  | parkTimerExpiry => exact live_ordered_of_leaves h Part.parkEvent_lookAhead ht
  | recorderLinkCharacter line => exact live_ordered_of_leaves (f := fun p => p.recorderChar (lineCharOf line)) h (fun p => p.recorderChar_lookAhead _) ht
  | orderFrame chars => exact live_ordered_of_leaves (f := fun p => p.recorderFrame chars) h (fun p => p.recorderFrame_lookAhead chars) ht
  | creditFrame chars => exact live_ordered_of_leaves (f := fun p => p.recorderFrame chars) h (fun p => p.recorderFrame_lookAhead chars) ht
  | unknownKind chars => exact live_ordered_of_leaves (f := fun p => p.recorderFrame chars) h (fun p => p.recorderFrame_lookAhead chars) ht
  | recorderLossOfSignal => exact live_ordered_of_leaves h Part.recorderLoss_lookAhead ht
  | recorderLinkUp => exact live_ordered_of_leaves h Part.linkUpEvent_lookAhead ht
  | arbiterStart => exact live_ordered_of_leaves h Part.arbiterEvent_lookAhead ht
  | frameLeaving b =>
    simp only [exec, execFrameLeaving, unheld] at ht
    split at ht
    · cases ht
      exact h
    · cases ht
      exact h.of_eq (Part.leavingWith_lookAhead _ b)
  | unknownOrder => exact live_ordered_of_leaves h Part.unknownRow_lookAhead ht
  | set => exact live_ordered h (Part.answeredRow_ordered h 2 Part.setOrder_ordered) ht
  | setRecordSpacing => exact live_ordered h (Part.setRow_ordered h 1) ht
  | setHeadShape => exact live_ordered h (Part.setRow_ordered h 12) ht
  | setLeadEncoder => exact live_ordered h (Part.setRow_ordered h 4) ht
  | setFixValidityDistance => exact live_ordered h (Part.setRow_ordered h 17) ht
  | setRouteLowWater => exact live_ordered h (Part.setRow_ordered h 28) ht
  | setSectionLowWater => exact live_ordered h (Part.setRow_ordered h 29) ht
  | setPosition => exact live_ordered h (Part.answeredRow_ordered h 6 Part.positionOrder_ordered) ht
  | appendRoute => exact live_ordered h (Part.answeredRow_ordered h 7 Part.appendRouteOrder_ordered) ht
  | appendSections => exact live_ordered h (Part.answeredRow_ordered h 8 Part.appendSectionsOrder_ordered) ht
  | clearLists => exact live_ordered h (Part.answeredRow_ordered h 9 Part.clearOrder_ordered) ht
  | identify => exact live_ordered h (Part.answeredRow_ordered_of_leaves h 1 fun _ _ => rfl) ht
  | get => exact live_ordered h (Part.answeredRow_ordered_of_leaves h 3 getOrder_leavesLists) ht
  | startRun => exact live_ordered h (Part.answeredRow_ordered_of_leaves h 4 startOrder_leavesLists) ht
  | stopRun => exact live_ordered h (Part.answeredRow_ordered_of_leaves h 5 stopOrder_leavesLists) ht
  | writeLimits => exact live_ordered h (Part.answeredRow_ordered_of_leaves h 10 writeLimitsOrder_leavesLists) ht
  | readLimits => exact live_ordered h (Part.answeredRow_ordered_of_leaves h 11 readLimitsOrder_leavesLists) ht
  | writeInputMap => exact live_ordered h (Part.answeredRow_ordered_of_leaves h 12 writeMapOrder_leavesLists) ht
  | readInputMap => exact live_ordered h (Part.answeredRow_ordered_of_leaves h 13 readMapOrder_leavesLists) ht
  | readState => exact live_ordered h (Part.answeredRow_ordered_of_leaves h 14 readStateOrder_leavesLists) ht
  | readCounters => exact live_ordered h (Part.answeredRow_ordered_of_leaves h 15 readCountersOrder_leavesLists) ht
  | readEvents => exact live_ordered h (Part.answeredRow_ordered_of_leaves h 16 fun _ _ => rfl) ht
  | setNoticeMask => exact live_ordered h (Part.answeredRow_ordered_of_leaves h 17 fun _ _ => rfl) ht
  | restoreHead => exact live_ordered h (Part.answeredRow_ordered_of_leaves h 18 restoreOrder_leavesLists) ht
  | headOrder =>
    exact live_ordered h (Part.orderRow_ordered h 19 _ fun q body hq => hq.of_eq (q.headOrder_lookAhead body)) ht
  | restart =>
    exact live_ordered h (Part.orderRow_ordered h 20 _ fun _ _ _ => LookAhead.ordered_empty _ _ _) ht

/-- Every step keeps the lists in order. -/
theorem step_ordered {s t : State} (h : s.part.lookAhead.Ordered) (ht : step s = .next t) : t.part.lookAhead.Ordered := by
  cases hs : s.pending with
  | cons c rest =>
    rw [step_cons s c rest hs] at ht
    exact exec_ordered (s := { s with pending := rest }) h ht
  | nil =>
    rw [step_nil s hs, idle] at ht
    split_ifs at ht with hheld howed
    · cases ht
      exact h
    · cases ht
      exact h.of_eq (Part.moveOwed_lookAhead _)
    · split at ht
      · exact exec_ordered h ht
      · cases ht
        exact h.of_eq (Part.elapse_lookAhead _)

/-- Settles O57: each block's operations leave the lists, shorten them, empty them or append to them by the checks of R60 and R107. -/
theorem listsStayOrdered : Obligations.ListsStayOrdered := by
  unfold Obligations.ListsStayOrdered StepKeeps
  intro s t h ht
  rw [← Part.lookAhead_ordered_iff] at h ⊢
  exact step_ordered h ht

/-! ## Replies of orders that write a list's block (R181) -/

/-- The reply of a taken order that has written the Position Fixing Unit. -/
theorem taken_withPfu_answered (p : Part) (x : Pfu) (body : List Byte) (r : Result) (data : List Byte) :
    (p.taken.withPfu x).fillReservation (replyTo body r data) = Part.afterOrder { p with pfu := x } body r data := by
  cases p
  rfl

/-- The reply of a taken order that has written the Limit Unit. -/
theorem taken_withLmu_answered (p : Part) (x : Lmu) (body : List Byte) (r : Result) (data : List Byte) :
    (p.taken.withLmu x).fillReservation (replyTo body r data) = Part.afterOrder { p with lmu := x } body r data := by
  cases p
  rfl

/-- The reply of a taken order that has written both units. -/
theorem taken_withPfu_withLmu_answered (p : Part) (x : Pfu) (y : Lmu) (body : List Byte) (r : Result)
    (data : List Byte) : ((p.taken.withPfu x).withLmu y).fillReservation (replyTo body r data) =
      Part.afterOrder { p with pfu := x, lmu := y } body r data := by
  cases p
  rfl

/-! ## CLEAR LISTS (R61, R108) -/

/-- The selection ROUTE. -/
theorem Part.clearOrder_route (p : Part) {ps : List Byte} (h : fieldNat ps 0 1 = 1) :
    p.clearOrder ps = ⟨p.emptyRoute, .done, []⟩ := if_pos h

/-- The selection SECTIONS. -/
theorem Part.clearOrder_sections (p : Part) {ps : List Byte} (h : fieldNat ps 0 1 = 2) :
    p.clearOrder ps = ⟨p.emptySections, .done, []⟩ := (if_neg (by omega)).trans (if_pos h)

/-- The selection BOTH. -/
theorem Part.clearOrder_both (p : Part) {ps : List Byte} (h : fieldNat ps 0 1 = 3) :
    p.clearOrder ps = ⟨p.emptyRoute.emptySections, .done, []⟩ :=
  (if_neg (by omega)).trans ((if_neg (by omega)).trans (if_pos h))

/-- A selection that names no list. -/
theorem Part.clearOrder_refused (p : Part) {ps : List Byte} (h : fieldNat ps 0 1 = 0 ∨ 3 < fieldNat ps 0 1) :
    p.clearOrder ps = ⟨p, .badValue, []⟩ :=
  (if_neg (by omega)).trans ((if_neg (by omega)).trans (if_neg (by omega)))

/-- Settles O45: each selection answered within the taking. -/
theorem listsCleared : Obligations.ListsCleared := by
  unfold Obligations.ListsCleared
  intro s body h p sel
  refine ⟨fun hsel => ?_, fun hsel => ?_, fun hsel => ?_, fun hsel => ?_⟩
  · have hanswer := answeredRow_of_answer h (s.part.taken.clearOrder_route hsel)
    exact hanswer.trans (congrArg (nextWith s) (taken_withPfu_answered s.part _ body .done []))
  · have hanswer := answeredRow_of_answer h (s.part.taken.clearOrder_sections hsel)
    exact hanswer.trans (congrArg (nextWith s) (taken_withLmu_answered s.part _ body .done []))
  · have hanswer := answeredRow_of_answer h (s.part.taken.clearOrder_both hsel)
    exact hanswer.trans (congrArg (nextWith s) (taken_withPfu_withLmu_answered s.part _ _ body .done []))
  · exact answeredRow_of_unchanged h (s.part.taken.clearOrder_refused hsel)

/-! ## APPEND ROUTE and APPEND SECTIONS (R60, R107) -/

/-- A byte as a number. -/
theorem natOfBytes_one (b : Byte) : natOfBytes [b] = b.toNat := by simp [natOfBytes]

/-- The fields of a route list entry (section 12.3). -/
theorem rawRoute_bytes (b0 b1 b2 b3 b4 b5 b6 b7 b8 b9 b10 b11 b12 : Byte) :
    rawRoute [b0, b1, b2, b3, b4, b5, b6, b7, b8, b9, b10, b11, b12] = {
      kind := b0.toNat
      distance := (b1 ++ b2 ++ b3 ++ b4).toInt
      value := (b5 ++ b6 ++ b7 ++ b8).toNat
      mask := b9 ++ b10 ++ b11 ++ b12 } := by
  simp only [rawRoute, fieldNat, fieldInt, List.drop_succ_cons, List.drop_zero, List.take_succ_cons, List.take_zero,
    natOfBytes_one, natOfBytes_four, intOfBytes_four, BitVec.ofNat_toNat, BitVec.setWidth_eq]

/-- The fields of a section (section 12.3). -/
theorem rawSection_bytes (b0 b1 b2 b3 b4 b5 b6 b7 b8 b9 b10 b11 b12 b13 b14 : Byte) :
    rawSection [b0, b1, b2, b3, b4, b5, b6, b7, b8, b9, b10, b11, b12, b13, b14] = {
      start := (b0 ++ b1 ++ b2 ++ b3).toInt
      finish := (b4 ++ b5 ++ b6 ++ b7).toInt
      cls := b8.toNat
      suppressed := b9
      cant := if b10 = 0 then none else some (b11 ++ b12).toInt
      label := b13 ++ b14 } := by
  have hmark : b10.toNat = 0 ↔ b10 = 0 := by rw [← BitVec.toNat_inj]; rfl
  simp only [rawSection, fieldNat, fieldInt, List.drop_succ_cons, List.drop_zero, List.take_succ_cons, List.take_zero,
    natOfBytes_one, natOfBytes_two, intOfBytes_two, intOfBytes_four, BitVec.ofNat_toNat, BitVec.setWidth_eq, hmark]

/-- The checks of R60 on a raw entry with the distance of the tail before it and its place in the order, the list having held `held` entries. -/
def routeCheck (dir : Direction) (position : PositionState) (d : Int) (held : Nat) (x : (RawRoute × Option Int) × Nat) :
    Option Result :=
  if ¬ (x.1.1.kind = 0 ∨ (x.1.1.kind = 1 ∧ x.1.1.value ≤ 9999)) then some .badValue
  else if 128 ≤ held + x.2 then some .listFull
  else match x.1.2 with
    | some tail => if beyond dir x.1.1.distance tail = true then none else some .outOfSequence
    | none => if position = .unset ∨ beyond dir x.1.1.distance d = true then none else some .outOfSequence

/-- The checks of R107 on a raw section with the end of the tail before it and its place in the order, the list having held `held` sections. -/
def sectionCheck (dir : Direction) (position : PositionState) (d : Int) (held : Nat)
    (x : (RawSection × Option Int) × Nat) : Option Result :=
  if 8 ≤ x.1.1.cls ∨ beyond dir x.1.1.finish x.1.1.start = false then some .badValue
  else if 64 ≤ held + x.2 then some .listFull
  else match x.1.2 with
    | some tail => if beyond dir tail x.1.1.start = false then none else some .outOfSequence
    | none => if position = .unset ∨ beyond dir x.1.1.finish d = true then none else some .outOfSequence

/-- An empty list puts an entry out of sequence only where a position is set that the entry is not beyond. -/
theorem refused_at_empty (position : PositionState) (b : Bool) :
    (if (position != .unset && !b) = true then some Result.outOfSequence else none) =
      if position = .unset ∨ b = true then none else some .outOfSequence := by
  by_cases hp : position = .unset <;> cases b <;> simp [hp]

/-- A raw route entry is judged by its list's length and tail. -/
theorem routeRefusal_eq_check (dir : Direction) (position : PositionState) (d : Int) (held : Nat) (xs : List RouteEntry)
    (r : RawRoute) (n : Nat) (hn : xs.length = held + n) :
    routeRefusal dir (position != .unset) d xs r =
      routeCheck dir position d held ((r, xs.getLast?.map RouteEntry.distance), n) := by
  have hkind : r.kind? = none ↔ ¬ (r.kind = 0 ∨ (r.kind = 1 ∧ r.value ≤ 9999)) := by
    rw [RawRoute.kind?_eq]
    split <;> simp_all
  unfold routeRefusal routeCheck
  simp only [hkind, hn, Config.routeCapacity]
  refine ite_congr rfl (fun _ => rfl) fun _ => ite_congr rfl (fun _ => rfl) fun _ => ?_
  unfold routeOutOfSequence
  cases xs.getLast? with
  | none => exact refused_at_empty position _
  | some tail =>
    by_cases hb : beyond dir r.distance tail.distance = true <;> simp [hb]

/-- A raw section is judged by its list's length and tail. -/
theorem sectionRefusal_eq_check (dir : Direction) (position : PositionState) (d : Int) (held : Nat)
    (xs : List TrackSection) (r : RawSection) (n : Nat) (hn : xs.length = held + n) :
    sectionRefusal dir (position != .unset) d xs r =
      sectionCheck dir position d held ((r, xs.getLast?.map TrackSection.finish), n) := by
  unfold sectionRefusal sectionCheck
  simp only [hn, Config.sectionCapacity]
  refine ite_congr rfl (fun _ => rfl) fun _ => ite_congr rfl (fun _ => rfl) fun _ => ?_
  cases xs.getLast? with
  | none => exact refused_at_empty position _
  | some tail =>
    dsimp only [Option.map_some]
    cases beyond dir tail.finish r.start <;> rfl

/-- The walk of APPEND ROUTE, each entry judged beforehand (R60). -/
theorem takeRoutes_eq_judged (dir : Direction) (position : PositionState) (d : Int) (rs : List RawRoute)
    (xs : List RouteEntry) :
    let tails := xs.getLast?.map RouteEntry.distance :: rs.map (fun r => some r.distance)
    let judged := (rs.zip tails).zipIdx.map (routeCheck dir position d xs.length)
    let k := (judged.takeWhile Option.isNone).length
    takeRoutes dir (position != .unset) d rs xs =
      (xs ++ (rs.take k).map RawRoute.entry, k, (judged[k]?.join).getD .done) := by
  rw [takeRoutes_eq_takeUpTo]
  exact takeUpTo_eq_judged (tail := fun xs => xs.getLast?.map RouteEntry.distance)
    (routeRefusal_eq_check dir position d xs.length) (fun xs r => by simp [RawRoute.entry]) rs xs 0 rfl

/-- The walk of APPEND SECTIONS, each section judged beforehand (R107). -/
theorem takeSections_eq_judged (dir : Direction) (position : PositionState) (d : Int) (rs : List RawSection)
    (xs : List TrackSection) :
    let tails := xs.getLast?.map TrackSection.finish :: rs.map (fun r => some r.finish)
    let judged := (rs.zip tails).zipIdx.map (sectionCheck dir position d xs.length)
    let k := (judged.takeWhile Option.isNone).length
    takeSections dir (position != .unset) d rs xs =
      (xs ++ (rs.take k).map RawSection.taken, k, (judged[k]?.join).getD .done) := by
  rw [takeSections_eq_takeUpTo]
  exact takeUpTo_eq_judged (tail := fun xs => xs.getLast?.map TrackSection.finish)
    (sectionRefusal_eq_check dir position d xs.length) (fun xs r => by simp [RawSection.taken]) rs xs 0 rfl

/-- An APPEND ROUTE with a good count: the list, the mark, the result and the count taken (R60, R64). -/
theorem Part.appendRouteOrder_taken (p : Part) {ps : List Byte} (h1 : 1 ≤ fieldNat ps 0 1) (h8 : fieldNat ps 0 1 ≤ 8) :
    let x := takeRoutes p.odu.direction (p.pfu.position != .unset) p.pfu.routeDistance
      ((pieces 13 (fieldNat ps 0 1) (ps.drop 1)).map rawRoute) p.pfu.routeList
    p.appendRouteOrder ps = ⟨p.withPfu { p.pfu with
      routeList := x.1
      lowArmed := p.pfu.lowArmed || decide (p.oru.settings.routeLowWater < x.1.length) }, x.2.2, byteOf x.2.1⟩ := by
  intro x
  refine (if_neg (by omega)).trans ?_
  rw [Part.appendRouteList_eq]

/-- An APPEND SECTIONS with a good count: the list, the mark, the result and the count taken (R107, R112). -/
theorem Part.appendSectionsOrder_taken (p : Part) {ps : List Byte} (h1 : 1 ≤ fieldNat ps 0 1)
    (h8 : fieldNat ps 0 1 ≤ 8) :
    let x := takeSections p.odu.direction (p.pfu.position != .unset) p.pfu.routeDistance
      ((pieces 15 (fieldNat ps 0 1) (ps.drop 1)).map rawSection) p.lmu.sections
    p.appendSectionsOrder ps = ⟨p.withLmu { p.lmu with
      sections := x.1
      lowArmed := p.lmu.lowArmed || decide (p.oru.settings.sectionLowWater < x.1.length) }, x.2.2, byteOf x.2.1⟩ := by
  intro x
  refine (if_neg (by omega)).trans ?_
  rw [Part.appendSectionList_eq]

/-- Settles O44: the bytes by the lemmas on numbers in bytes, the lists by the walk judged beforehand. -/
theorem listsAppended : Obligations.ListsAppended := by
  unfold Obligations.ListsAppended
  refine ⟨pieces_eq, rawRoute_bytes, rawSection_bytes, fun s body => ?_⟩
  intro p ps n dir d
  refine ⟨fun h => ⟨fun hn => answeredRow_of_unchanged h (if_pos hn), fun h1 h8 => ?_⟩,
    fun h => ⟨fun hn => answeredRow_of_unchanged h (if_pos hn), fun h1 h8 => ?_⟩⟩
  · have horder := s.part.taken.appendRouteOrder_taken h1 h8
    dsimp only at horder
    rw [takeRoutes_eq_judged] at horder
    have hanswer := answeredRow_of_answer h horder
    exact hanswer.trans (congrArg (nextWith s) (taken_withPfu_answered s.part _ body _ _))
  · have horder := s.part.taken.appendSectionsOrder_taken h1 h8
    dsimp only at horder
    rw [takeSections_eq_judged] at horder
    have hanswer := answeredRow_of_answer h horder
    exact hanswer.trans (congrArg (nextWith s) (taken_withLmu_answered s.part _ body _ _))

/-! ## The answers of SET POSITION (R78, R79) -/

theorem directionOf_none {code : Nat} (h : 2 ≤ code) : directionOf code = none :=
  (if_neg (by omega)).trans (if_neg (by omega))

theorem directionOf_some {code : Nat} (h : code ≤ 1) :
    directionOf code = some (if code = 0 then .up else .down) := by
  unfold directionOf
  by_cases h0 : code = 0
  · rw [if_pos h0, if_pos h0]
  · rw [if_neg h0, if_neg h0, if_pos (by omega)]

/-- The run states that SET POSITION calls a run are those other than HALTED. -/
theorem RunState.inRun_iff (x : RunState) : x.inRun = true ↔ x ≠ .halted := by cases x <;> simp [RunState.inRun]

/-- A direction code above 1 is refused. -/
theorem Part.positionOrder_badValue (p : Part) {ps : List Byte} (h : 2 ≤ fieldNat ps 4 1) :
    p.positionOrder ps = ⟨p, .badValue, []⟩ := by
  rw [Part.positionOrder, directionOf_none h]

/-- Another direction is refused in a run. -/
theorem Part.positionOrder_badState (p : Part) {ps : List Byte} {dir : Direction}
    (hdir : directionOf (fieldNat ps 4 1) = some dir) (hrun : p.rnc.runState ≠ .halted) (hne : dir ≠ p.odu.direction) :
    p.positionOrder ps = ⟨p, .badState, []⟩ := by
  rw [Part.positionOrder, hdir]
  exact if_pos ⟨(RunState.inRun_iff _).2 hrun, hne⟩

/-- An accepted SET POSITION. -/
theorem Part.positionOrder_done (p : Part) {ps : List Byte} {dir : Direction}
    (hdir : directionOf (fieldNat ps 4 1) = some dir) (hok : p.rnc.runState = .halted ∨ dir = p.odu.direction) :
    p.positionOrder ps = ⟨p.setPositionTo (fieldInt ps 0 4) dir, .done, []⟩ := by
  rw [Part.positionOrder, hdir]
  refine if_neg fun hno => hok.elim ((RunState.inRun_iff _).1 hno.1) hno.2

/-! ## What an accepted SET POSITION sets, and its advances (R79, R80, R109) -/

/-- The position set, with both lists emptied where the direction changes. -/
def Part.positionSet (p : Part) (route : Int) (dir : Direction) : Part :=
  { p with
    odu := { p.odu with direction := dir, residue := 0 }
    pfu := { p.pfu with
      routeDistance := route, position := .deadReckoned, missCount := 0, lastPost := none
      routeList := if decide (dir = p.odu.direction) = true then p.pfu.routeList else []
      lowArmed := decide (dir = p.odu.direction) && p.pfu.lowArmed }
    lmu := { p.lmu with
      sections := if decide (dir = p.odu.direction) = true then p.lmu.sections else []
      lowArmed := decide (dir = p.odu.direction) && p.lmu.lowArmed } }

/-- The position set and both lists advanced to it. -/
def Part.positionMoved (p : Part) (route : Int) (dir : Direction) : Part :=
  ((p.positionSet route dir).routeAdvance true).sectionAdvance

/-- The first steps of the effect of an accepted SET POSITION. -/
theorem Part.positionSet_eq (p : Part) (route : Int) (dir : Direction) :
    Part.withPfu ((p.turnTo dir).withOdu { (p.turnTo dir).odu with residue := 0 })
      { (p.turnTo dir).pfu with routeDistance := route, position := .deadReckoned, missCount := 0, lastPost := none } =
    p.positionSet route dir := by
  unfold Part.turnTo Part.positionSet
  by_cases hdir : dir = p.odu.direction
  · rw [if_pos hdir, decide_eq_true hdir]
    subst hdir
    rfl
  · rw [if_neg hdir, decide_eq_false hdir]
    rfl

/-- An accepted SET POSITION: the position set, the advances, and in a run the cut. -/
theorem Part.setPositionTo_eq (p : Part) (route : Int) (dir : Direction) :
    p.setPositionTo route dir =
      if p.rnc.runState = .halted then p.positionMoved route dir else (p.positionMoved route dir).cut .jump := by
  have hmoved : p.setPositionTo route dir =
      if (p.positionMoved route dir).rnc.runState.inRun then (p.positionMoved route dir).cut .jump
      else p.positionMoved route dir := by
    unfold Part.setPositionTo Part.positionMoved
    dsimp only
    rw [← Part.positionSet_eq]
    rfl
  have hrnc : (p.positionMoved route dir).rnc = p.rnc := by simp [Part.positionMoved, Part.positionSet]
  rw [hmoved, hrnc]
  by_cases hrun : p.rnc.runState = .halted
  · rw [if_pos hrun, if_neg (by simp [RunState.inRun_iff, hrun])]
  · rw [if_neg hrun, if_pos ((RunState.inRun_iff _).2 hrun)]

/-- The blocks that setting the position and the advances leave. -/
theorem Part.positionMoved_frame (p : Part) (route : Int) (dir : Direction) :
    (p.positionMoved route dir).time = p.time ∧ (p.positionMoved route dir).resetHeld = p.resetHeld ∧
    (p.positionMoved route dir).hlu = p.hlu ∧ (p.positionMoved route dir).shu = p.shu ∧
    (p.positionMoved route dir).tru = p.tru ∧ (p.positionMoved route dir).ext = p.ext ∧
    (p.positionMoved route dir).rnc = p.rnc ∧ (p.positionMoved route dir).oru = p.oru ∧
    (p.positionMoved route dir).odu = { p.odu with direction := dir, residue := 0 } := by
  simp [Part.positionMoved, Part.positionSet]

/-- The set advance moves neither the position state nor the miss count, and finds nothing lost (R80). -/
theorem routeScan_skip (dir : Direction) (d : Int) (w thr : Nat) (l : List RouteEntry) (y : PositionState) (m : Nat) :
    (routeScan dir d w thr true l y m).state = y ∧ (routeScan dir d w thr true l y m).miss = m := by
  induction l with
  | nil => exact ⟨rfl, rfl⟩
  | cons e es ih =>
    rw [routeScan.eq_def]
    dsimp only
    split
    · exact ⟨rfl, rfl⟩
    · cases e.kind with
      | kpost km => exact ih
      | marker c k =>
        dsimp only
        generalize (if y = PositionState.lost then 4 * (w : Int) else (w : Int)) = window
        split <;> exact ih

/-- What an advance leaves in the Position Fixing Unit. -/
theorem Part.routeAdvance_pfu (p : Part) (skip : Bool) (h : p.pfu.position ≠ .unset) :
    let x := routeScan p.odu.direction p.pfu.routeDistance p.oru.settings.matchWindow p.oru.settings.lostThreshold skip
      p.pfu.routeList p.pfu.position p.pfu.missCount
    (p.routeAdvance skip).pfu = p.pfu.advanced p.odu.direction x
      (lowReached p.pfu.lowArmed p.pfu.routeList.length x.kept.length p.oru.settings.routeLowWater) := by
  intro x
  have hraise : ∀ q : Part, (q.raise .routeLow).pfu = q.pfu := fun q => by simp
  rw [Part.routeAdvance_eq p skip h, Part.routeAdvanced_eq]
  split
  · exact hraise _
  · rfl

/-- The Position Fixing Unit after the set advance of a SET POSITION. -/
theorem Part.positionMoved_pfu (p : Part) (route : Int) (dir : Direction) : ∃ low,
    (p.positionMoved route dir).pfu = (p.positionSet route dir).pfu.advanced dir
      (routeScan dir route p.oru.settings.matchWindow p.oru.settings.lostThreshold true
        (p.positionSet route dir).pfu.routeList .deadReckoned 0) low := by
  have hpfu := (p.positionSet route dir).routeAdvance_pfu true (by simp [Part.positionSet])
  refine ⟨_, Eq.trans ?_ hpfu⟩
  simp [Part.positionMoved]

/-- The low-water test leaves the sections and the limit table. -/
theorem Part.sectionLowTest_lmu (p : Part) :
    p.sectionLowTest.lmu.sections = p.lmu.sections ∧ p.sectionLowTest.lmu.limits = p.lmu.limits := by
  unfold Part.sectionLowTest
  split <;> simp

/-- What an advance leaves of the section list, and the limit table (R109). -/
theorem Part.sectionAdvance_lmu (p : Part) :
    p.sectionAdvance.lmu.sections =
      p.lmu.sections.dropWhile (fun x => beyond p.odu.direction p.pfu.routeDistance x.finish) ∧
    p.sectionAdvance.lmu.limits = p.lmu.limits := by
  have hrest : (sectionsLeft p.odu.direction p.pfu.routeDistance p.lmu.sections).Sublist p.lmu.sections :=
    List.dropWhile_sublist _
  unfold Part.sectionAdvance
  dsimp only
  split
  · rename_i hlen
    have hlen' := hrest.length_le
    exact ⟨(hrest.eq_of_length (by omega)).symm, rfl⟩
  · simp only [Part.sectionStarvedTest_frame, Part.sectionLowTest_lmu, Part.bumpBy_frame, Part.withLmu_lmu, and_true]
    rfl

/-- An empty section list has nothing to advance. -/
theorem Part.sectionAdvance_of_empty (p : Part) (h : p.lmu.sections = []) : p.sectionAdvance = p := by
  refine if_pos ?_
  rw [h]
  rfl

/-- The Limit Unit after the advance of a SET POSITION in the same direction. -/
theorem Part.positionMoved_sections (p : Part) (route : Int) (dir : Direction) :
    (p.positionMoved route dir).lmu.sections =
      (p.positionSet route dir).lmu.sections.dropWhile (fun x => beyond dir route x.finish) ∧
    (p.positionMoved route dir).lmu.limits = p.lmu.limits := by
  have hroute : ((p.positionSet route dir).routeAdvance true).pfu.routeDistance = route := by
    rw [Part.routeAdvance_pfu _ true (by simp [Part.positionSet])]
    rfl
  obtain ⟨hsections, hlimits⟩ := ((p.positionSet route dir).routeAdvance true).sectionAdvance_lmu
  unfold Part.positionMoved
  rw [hsections, hlimits, hroute]
  simp [Part.positionSet]

/-! ## The cut of a run (R137) -/

/-- A slot's content replaced. -/
theorem Part.setHold_isActive (p : Part) (m n : SlotNo) (x : SlotHold) :
    ((p.setHold n x).ext.slots[m]).isActive = if n = m then x.active?.isSome else (p.ext.slots[m]).isActive := by
  have hget := vmodify_get p.ext.slots n m (fun y => { y with hold := x })
  refine (congrArg Slot.isActive hget).trans ?_
  split <;> rfl

/-- A finalised slot is active no more, and no other slot is touched (R140, R142). -/
theorem Part.finaliseEx_isActive (p : Part) (m n : SlotNo) (ex : Exceedance) (c : Option CutFlag) :
    ((p.finaliseEx n ex c).ext.slots[m]).isActive = if n = m then false else (p.ext.slots[m]).isActive := by
  unfold Part.finaliseEx
  dsimp only
  split
  · exact p.setHold_isActive m n .free
  · split
    · exact Part.setHold_isActive _ m n .free
    · exact Part.setHold_isActive p m n (.pending _ _)

theorem Slot.isActive_eq_false {x : Slot} (h : ∀ ph ex, x.hold = .active ph ex → False) : x.isActive = false := by
  obtain ⟨hold, owed⟩ := x
  cases hold with
  | active ph ex => exact absurd rfl (h ph ex)
  | free => rfl
  | pending ex r => rfl

/-- A cut slot is active no more, and no other slot is touched (R137). -/
theorem Part.cutSlot_isActive (p : Part) (m n : SlotNo) (c : CutFlag) :
    ((p.cutSlot c n).ext.slots[m]).isActive = if n = m then false else (p.ext.slots[m]).isActive := by
  unfold Part.cutSlot
  split
  · exact p.finaliseEx_isActive m n _ _
  · rename_i hinactive
    split
    · rename_i hnm
      subst hnm
      exact Slot.isActive_eq_false hinactive
    · rfl

/-- The slots of a list are active no more when all have been cut. -/
theorem Part.cutSlots_isActive (c : CutFlag) (m : SlotNo) (l : List SlotNo) : ∀ p : Part,
    ((l.foldl (fun q n => q.cutSlot c n) p).ext.slots[m]).isActive =
      if m ∈ l then false else (p.ext.slots[m]).isActive := by
  induction l with
  | nil => exact fun p => rfl
  | cons n l ih =>
    intro p
    rw [List.foldl_cons, ih, p.cutSlot_isActive m n c]
    by_cases hl : m ∈ l
    · rw [if_pos hl, if_pos (List.mem_cons_of_mem n hl)]
    · rw [if_neg hl]
      exact if_congr (by simp [hl, eq_comm]) rfl rfl

/-- After a cut no slot is active (R137). -/
theorem Part.cut_isActive (p : Part) (c : CutFlag) (m : SlotNo) : ((p.cut c).ext.slots[m]).isActive = false := by
  refine (Part.cutSlots_isActive c m p.ext.activeInOrder p).trans ?_
  have hactive := (p.openingOrder_activeInOrder).2.1 m
  split
  · rfl
  · rename_i hm
    exact Bool.eq_false_iff.2 fun h => hm (hactive.2 h)

/-- After a cut no latch is set (R137). -/
theorem Part.cut_isSet (p : Part) (c : CutFlag) (k : Pair) : ((p.cut c).ext.latches[k]).isSet = false := by
  have hlatch : ∀ v : Vector Latch 16, ((v.map Latch.cleared)[k]).isSet = false := fun v => by
    simp [Latch.cleared]
  exact hlatch _

/-! ## What SET POSITION leaves of the counter of cuts and of the reservations -/

/-- The counter of cuts and the reservations stand. -/
def Part.CutsAndRoomKept (p q : Part) : Prop :=
  q.counter .cuts = p.counter .cuts ∧ q.rlu.reservations = p.rlu.reservations

theorem Part.CutsAndRoomKept.trans {p q r : Part} (h : p.CutsAndRoomKept q) (h' : q.CutsAndRoomKept r) :
    p.CutsAndRoomKept r := ⟨h'.1.trans h.1, h'.2.trans h.2⟩

/-- Another counter raised. -/
theorem Part.bumpBy_keepsCuts (p : Part) {c : Counter} (n : Nat) (h : c.index ≠ Counter.cuts.index) :
    p.CutsAndRoomKept (p.bumpBy c n) := ⟨(p.bumpBy_counters c n _).trans (if_neg h), by simp⟩

theorem Part.setHold_keepsCuts (p : Part) (n : SlotNo) (x : SlotHold) : p.CutsAndRoomKept (p.setHold n x) := ⟨rfl, rfl⟩

theorem Part.withLmu_keepsCuts (p : Part) (x : Lmu) : p.CutsAndRoomKept (p.withLmu x) := ⟨rfl, rfl⟩

/-- An event raised. -/
theorem Part.raise_keepsCuts (p : Part) (e : Event) : p.CutsAndRoomKept (p.raise e) :=
  ⟨p.raise_counters e _ (by decide) (by decide), by simp⟩

/-- The advance of the route list counts markers and raises events. -/
theorem Part.routeAdvance_keepsCuts (p : Part) (skip : Bool) (h : p.pfu.position ≠ .unset) :
    p.CutsAndRoomKept (p.routeAdvance skip) := by
  have hreport : ∀ gone lost, p.CutsAndRoomKept (p.scanReported skip gone lost) := by
    intro gone lost
    have hgone : p.CutsAndRoomKept
        (if gone = 0 then p else if skip = true then p.bumpBy .skippedMarkers gone
          else (p.bumpBy .missedMarkers gone).raise .markerMissed) := by
      split_ifs
      · exact ⟨rfl, rfl⟩
      · exact p.bumpBy_keepsCuts gone (by decide)
      · exact (p.bumpBy_keepsCuts gone (by decide)).trans (Part.raise_keepsCuts _ _)
    unfold Part.scanReported
    dsimp only
    split
    · exact hgone.trans (Part.raise_keepsCuts _ _)
    · exact hgone
  rw [Part.routeAdvance_eq p skip h, Part.routeAdvanced_eq]
  split
  · exact (hreport _ _).trans (Part.raise_keepsCuts _ _)
  · exact hreport _ _

/-- The advance of the section list counts sections and raises events. -/
theorem Part.sectionAdvance_keepsCuts (p : Part) : p.CutsAndRoomKept p.sectionAdvance := by
  have hlow : ∀ q : Part, q.CutsAndRoomKept q.sectionLowTest := fun q => by
    unfold Part.sectionLowTest
    split
    · exact (q.withLmu_keepsCuts _).trans (Part.raise_keepsCuts _ _)
    · exact ⟨rfl, rfl⟩
  have hstarved : ∀ q : Part, q.CutsAndRoomKept q.sectionStarvedTest := fun q => by
    unfold Part.sectionStarvedTest
    split
    · exact (q.bumpBy_keepsCuts 1 (by decide)).trans (Part.raise_keepsCuts _ _)
    · exact ⟨rfl, rfl⟩
  unfold Part.sectionAdvance
  dsimp only
  split
  · exact ⟨rfl, rfl⟩
  · have hretired := (p.withLmu_keepsCuts
      { p.lmu with sections := sectionsLeft p.odu.direction p.pfu.routeDistance p.lmu.sections }).trans
        (Part.bumpBy_keepsCuts (c := .sectionsRetired) _ (p.lmu.sections.length -
          (sectionsLeft p.odu.direction p.pfu.routeDistance p.lmu.sections).length) (by decide))
    exact (hretired.trans (hlow _)).trans (hstarved _)

/-- A finalisation counts its report. -/
theorem Part.cutSlot_keepsCuts (p : Part) (c : CutFlag) (n : SlotNo) : p.CutsAndRoomKept (p.cutSlot c n) := by
  unfold Part.cutSlot
  split
  · unfold Part.finaliseEx
    dsimp only
    split
    · exact (p.setHold_keepsCuts n .free).trans (Part.bumpBy_keepsCuts _ 1 (by decide))
    · split
      · exact Part.bumpBy_keepsCuts (Part.setHold (p.withRlu _) n .free) 1 (by decide)
      · exact Part.bumpBy_keepsCuts (Part.withExt (p.setHold n _) _) 1 (by decide)
  · exact ⟨rfl, rfl⟩

/-- A cut is counted once, and makes no reservation (R137). -/
theorem Part.cut_counted (p : Part) (c : CutFlag) : (p.cut c).counter .cuts = counterUp 1 (p.counter .cuts) ∧
    (p.cut c).rlu.reservations = p.rlu.reservations := by
  have hslots : ∀ (l : List SlotNo) (q : Part), q.CutsAndRoomKept (l.foldl (fun q n => q.cutSlot c n) q) := by
    intro l
    induction l with
    | nil => exact fun q => ⟨rfl, rfl⟩
    | cons n l ih => exact fun q => (q.cutSlot_keepsCuts c n).trans (ih _)
  obtain ⟨hcuts, hroom⟩ := hslots p.ext.activeInOrder p
  refine ⟨((Part.bumpBy_counters _ .cuts 1 _).trans (if_pos rfl)).trans (congrArg (counterUp 1) hcuts), ?_⟩
  exact hroom

/-- Setting the position and the advances make no cut and no reservation. -/
theorem Part.positionMoved_keepsCuts (p : Part) (route : Int) (dir : Direction) :
    p.CutsAndRoomKept (p.positionMoved route dir) :=
  (Part.routeAdvance_keepsCuts (p.positionSet route dir) true (by simp [Part.positionSet])).trans
    (Part.sectionAdvance_keepsCuts _)

/-! ## SET POSITION, clause by clause (R79) -/

section
variable (p : Part) (route : Int) (dir : Direction)

/-- The cut of a run touches neither the position nor the lists. -/
theorem Part.setPositionTo_blocks :
    (p.setPositionTo route dir).odu = { p.odu with direction := dir, residue := 0 } ∧
    (p.setPositionTo route dir).pfu = (p.positionMoved route dir).pfu ∧
    (p.setPositionTo route dir).lmu = (p.positionMoved route dir).lmu := by
  rw [Part.setPositionTo_eq]
  split <;> simp [Part.positionMoved_frame]

/-- What SET POSITION writes of the position. -/
theorem Part.setPositionTo_pfu :
    (p.setPositionTo route dir).pfu = { p.pfu with
      routeDistance := route, position := .deadReckoned, missCount := 0
      routeList := (p.setPositionTo route dir).pfu.routeList
      lastPost := (p.setPositionTo route dir).pfu.lastPost
      lowArmed := (p.setPositionTo route dir).pfu.lowArmed } := by
  obtain ⟨low, hpfu⟩ := p.positionMoved_pfu route dir
  obtain ⟨hstate, hmiss⟩ := routeScan_skip dir route p.oru.settings.matchWindow p.oru.settings.lostThreshold
    (p.positionSet route dir).pfu.routeList .deadReckoned 0
  obtain ⟨-, hblock, -⟩ := p.setPositionTo_blocks route dir
  rw [hblock, hpfu]
  unfold Pfu.advanced Pfu.scanned
  rw [hstate, hmiss]
  rfl

/-- A change of direction leaves both lists empty and their marks disarmed (R79 step 1). -/
theorem Part.setPositionTo_turned (h : dir ≠ p.odu.direction) :
    (p.setPositionTo route dir).pfu.routeList = [] ∧ (p.setPositionTo route dir).pfu.lastPost = none ∧
    (p.setPositionTo route dir).pfu.lowArmed = false ∧ (p.setPositionTo route dir).lmu.sections = [] ∧
    (p.setPositionTo route dir).lmu.lowArmed = false := by
  obtain ⟨low, hpfu⟩ := p.positionMoved_pfu route dir
  obtain ⟨-, hblock, hlmu⟩ := p.setPositionTo_blocks route dir
  have hset : (p.positionSet route dir).pfu.routeList = [] ∧ (p.positionSet route dir).pfu.lastPost = none ∧
      (p.positionSet route dir).pfu.lowArmed = false := by simp [Part.positionSet, h]
  have hmoved : (p.positionMoved route dir).lmu = (p.positionSet route dir).lmu := by
    unfold Part.positionMoved
    rw [Part.sectionAdvance_of_empty]
    · simp
    · simp [Part.positionSet, h]
  obtain ⟨hlist, hpost, hmark⟩ := hset
  rw [hblock, hlmu, hpfu, hmoved, hlist]
  refine ⟨rfl, ?_, ?_, by simp [Part.positionSet, h], by simp [Part.positionSet, h]⟩
  · cases dir
    · simpa [Pfu.advanced, Pfu.scanned, routeScan] using hpost
    · exact hpost
  · simp [Pfu.advanced, hmark]

/-- In the same direction the set advance and the sections' advance leave what is not passed (R79, R80, R109). -/
theorem Part.setPositionTo_same (h : dir = p.odu.direction) :
    (p.setPositionTo route dir).pfu.routeList = (routeScan dir route p.oru.settings.matchWindow
      p.oru.settings.lostThreshold true p.pfu.routeList .deadReckoned 0).kept ∧
    (p.setPositionTo route dir).lmu.sections = p.lmu.sections.dropWhile (fun x => beyond dir route x.finish) := by
  obtain ⟨low, hpfu⟩ := p.positionMoved_pfu route dir
  obtain ⟨hsections, -⟩ := p.positionMoved_sections route dir
  obtain ⟨-, hblock, hlmu⟩ := p.setPositionTo_blocks route dir
  have hset : (p.positionSet route dir).pfu.routeList = p.pfu.routeList ∧
      (p.positionSet route dir).lmu.sections = p.lmu.sections := by simp [Part.positionSet, h]
  rw [hblock, hlmu, hpfu, hsections, hset.1, hset.2]
  exact ⟨rfl, rfl⟩

/-- In DOWN travel no post is passed (R63). -/
theorem Part.setPositionTo_down (h : dir = .down) : (p.setPositionTo route dir).pfu.lastPost = none := by
  subst h
  obtain ⟨low, hpfu⟩ := p.positionMoved_pfu route .down
  obtain ⟨-, hblock, -⟩ := p.setPositionTo_blocks route .down
  rw [hblock, hpfu]
  rfl

/-- In HALTED there is nothing to cut. -/
theorem Part.setPositionTo_halted (h : p.rnc.runState = .halted) :
    p.setPositionTo route dir = p.positionMoved route dir := by rw [Part.setPositionTo_eq, if_pos h]

/-- In HALTED the tracker stays. -/
theorem Part.setPositionTo_ext (h : p.rnc.runState = .halted) : (p.setPositionTo route dir).ext = p.ext := by
  obtain ⟨-, -, -, -, -, hext, -⟩ := p.positionMoved_frame route dir
  rw [p.setPositionTo_halted route dir h, hext]

/-- In a run every slot is cut and every latch cleared (R79, R137). -/
theorem Part.setPositionTo_inRun (h : p.rnc.runState ≠ .halted) :
    p.setPositionTo route dir = (p.positionMoved route dir).cut .jump := by rw [Part.setPositionTo_eq, if_neg h]

/-- SET POSITION leaves the limit table. -/
theorem Part.setPositionTo_limits : (p.setPositionTo route dir).lmu.limits = p.lmu.limits := by
  obtain ⟨-, -, hlmu⟩ := p.setPositionTo_blocks route dir
  obtain ⟨-, hlimits⟩ := p.positionMoved_sections route dir
  rw [hlmu, hlimits]

/-- The tracker after a SET POSITION in a run, and its cut counted (R79, R137). -/
theorem Part.setPositionTo_cut (h : p.rnc.runState ≠ .halted) :
    (∀ n : SlotNo, ((p.setPositionTo route dir).ext.slots[n]).isActive = false) ∧
    (∀ k : Pair, ((p.setPositionTo route dir).ext.latches[k]).isSet = false) ∧
    (p.setPositionTo route dir).counter .cuts = counterUp 1 (p.counter .cuts) := by
  obtain ⟨hcuts, -⟩ := p.positionMoved_keepsCuts route dir
  rw [p.setPositionTo_inRun route dir h]
  exact ⟨Part.cut_isActive _ _, Part.cut_isSet _ _, (Part.cut_counted _ _).1.trans (congrArg (counterUp 1) hcuts)⟩

/-- SET POSITION makes no reservation. -/
theorem Part.setPositionTo_reservations : (p.setPositionTo route dir).rlu.reservations = p.rlu.reservations := by
  obtain ⟨-, hroom⟩ := p.positionMoved_keepsCuts route dir
  rw [Part.setPositionTo_eq]
  split
  · exact hroom
  · exact (Part.cut_counted _ _).2.trans hroom

end

/-- The two spellings of the reply of an order. -/
theorem Part.fillReservation_eq_replied (p : Part) (body : List Byte) (r : Result) (data : List Byte) :
    p.fillReservation (replyTo body r data) = p.replied body r data := rfl

/-- The reply of a taken order that has left the buffer and the reservations stands last, and the reservations are as before. -/
theorem Part.orderAnswered_of_replied (p : Part) {x : Part} (body : List Byte) (r : Result) (data : List Byte)
    (horu : x.oru = p.taken.oru) (hroom : x.rlu.reservations = p.taken.rlu.reservations) :
    p.OrderAnswered (x.replied body r data) body r data := by
  refine ⟨congrArg Oru.buffer horu, ?_, List.getLast?_concat⟩
  exact congrArg (· - 1) hroom

/-- A part that differs in the named blocks alone. -/
theorem Part.eq_but_blocks {p q : Part} (htime : q.time = p.time) (hheld : q.resetHeld = p.resetHeld)
    (hhlu : q.hlu = p.hlu) (hshu : q.shu = p.shu) (htru : q.tru = p.tru) (hrnc : q.rnc = p.rnc) :
    q = { p with odu := q.odu, pfu := q.pfu, lmu := q.lmu, ext := q.ext, rlu := q.rlu, oru := q.oru, evu := q.evu } := by
  cases p
  cases q
  cases htime
  cases hheld
  cases hhlu
  cases hshu
  cases htru
  cases hrnc
  rfl

/-- The advances of a SET POSITION in the vocabulary of the statements. -/
theorem Part.positionMoved_eq (p : Part) (route : Int) (dir : Direction) :
    p.positionMoved route dir = ((p.positionSet route dir).routeAdvanced true).sectionsAdvanced := by
  unfold Part.positionMoved
  rw [Part.routeAdvance_eq _ true (by simp [Part.positionSet]), Part.sectionAdvance_eq]

/-- What the statement writes out is the position set in the part as the taking has left it. -/
theorem Part.positionSet_taken (p : Part) (route : Int) (dir : Direction) {o : Odu}
    (ho : o = { p.odu with direction := dir, residue := 0 }) :
    { p.orderTaken with
      odu := o
      pfu := { p.pfu with
        routeDistance := route, position := .deadReckoned, missCount := 0, lastPost := none
        routeList := if decide (dir = p.odu.direction) = true then p.pfu.routeList else []
        lowArmed := decide (dir = p.odu.direction) && p.pfu.lowArmed }
      lmu := { p.lmu with
        sections := if decide (dir = p.odu.direction) = true then p.lmu.sections else []
        lowArmed := decide (dir = p.odu.direction) && p.lmu.lowArmed } } = p.taken.positionSet route dir := by
  subst ho
  cases p
  rfl

/-- The cut of a SET POSITION in the vocabulary of the statements, in the order of opening (R137). -/
theorem Part.cut_jump_eq (p : Part) : ∃ order, p.OpeningOrder order ∧
    p.cut .jump = p.cutThrough (fun f => { f with cutJump := true }) order :=
  ⟨p.ext.activeInOrder, p.openingOrder_activeInOrder, p.cut_eq .jump⟩

/-- Settles O43: the refusals by the checks in order, and of an accepted order each clause by its own lemma. -/
theorem setPositionTaken : Obligations.SetPositionTaken := by
  unfold Obligations.SetPositionTaken
  intro s body h p route code dir
  refine ⟨fun hcode => ?_, fun hcode hrun hne => ?_, fun hcode hok => ?_⟩
  · exact answeredRow_of_unchanged h (s.part.taken.positionOrder_badValue hcode)
  · exact answeredRow_of_unchanged h (s.part.taken.positionOrder_badState (directionOf_some hcode) hrun hne)
  have hanswer := answeredRow_of_answer h (s.part.taken.positionOrder_done (directionOf_some hcode) hok)
  rw [Part.fillReservation_eq_replied] at hanswer
  change live s (Part.answeredRow 6 Part.positionOrder) =
    nextWith s ((s.part.taken.setPositionTo route dir).replied body .done []) at hanswer
  obtain ⟨htime, hheld, hhlu, hshu, htru, hrnc, horu⟩ := s.part.taken.setPositionTo_frame route dir
  obtain ⟨hodu, -, -⟩ := s.part.taken.setPositionTo_blocks route dir
  obtain ⟨hcounted, -⟩ := s.part.bumpBy_keepsCuts (c := .ordersTaken) 1 (by decide)
  have hwritten := s.part.taken.setPositionTo_pfu route dir
  have hlimits := s.part.taken.setPositionTo_limits route dir
  have hturned := s.part.taken.setPositionTo_turned route dir
  have hsame := s.part.taken.setPositionTo_same route dir
  have hdown := s.part.taken.setPositionTo_down route dir
  have hext := s.part.taken.setPositionTo_ext route dir
  have hcut := s.part.taken.setPositionTo_cut route dir
  have hroom := s.part.taken.setPositionTo_reservations route dir
  have hhalted := s.part.taken.setPositionTo_halted route dir
  have hrun := s.part.taken.setPositionTo_inRun route dir
  generalize s.part.taken.setPositionTo route dir = x at *
  refine ⟨x.replied body .done [], hanswer, Part.eq_but_blocks htime hheld hhlu hshu htru hrnc, hodu, hwritten, hlimits,
    hturned, hsame, hdown, hext, fun hne => ?_, horu, s.part.orderAnswered_of_replied body .done [] horu hroom, ?_⟩
  · obtain ⟨hslots, hlatches, hcuts⟩ := hcut hne
    exact ⟨hslots, hlatches, hcuts.trans (congrArg (counterUp 1) hcounted)⟩
  · intro same set moved
    have hset : set = s.part.taken.positionSet route dir := s.part.positionSet_taken route dir hodu
    have hmoved : moved = s.part.taken.positionMoved route dir := by
      rw [Part.positionMoved_eq, ← hset]
    refine ⟨fun heq => ?_, fun hne => ?_⟩
    · rw [hmoved, ← hhalted heq]
    · obtain ⟨order, horder, hjump⟩ := moved.cut_jump_eq
      refine ⟨order, horder, ?_⟩
      rw [← hjump, hmoved, ← hrun hne]

end Sys2Proof.Machine

/-! SUPPORT. The limit table and the counts of the tracker: READ LIMITS, grades and release levels with the blocks that judge by them, and the closing and the finalisation of a slot. -/

namespace Sys2Proof.Machine

/-! ## READ LIMITS (R121) -/

/-- A row in the layout of WRITE LIMITS: its six thresholds, 0 for an absent one, its hysteresis and its minimum length. -/
theorem LimitRow.bytes_eq (r : LimitRow) : r.bytes =
    [r.plus.t1, r.plus.t2, r.plus.t3, r.minus.t1, r.minus.t2, r.minus.t3].flatMap (fun t => bytesOfNat 2 (t.getD 0)) ++
      [BitVec.ofNat 8 r.hysteresis, BitVec.ofNat 8 r.minLength] := rfl

/-- The rows that a reading from address `a` gives are those up to address 63. -/
theorem Part.length_rowsFrom (p : Part) (a n : Nat) : (p.rowsFrom a n).length = min n (64 - a) := by
  simp [Part.rowsFrom]

/-- A bad start or count reads no row. -/
theorem Part.readLimitsOrder_refused (p : Part) {ps : List Byte}
    (h : 63 < fieldNat ps 0 1 ∨ fieldNat ps 1 1 = 0 ∨ 16 < fieldNat ps 1 1) :
    p.readLimitsOrder ps = ⟨p, .badValue, [0]⟩ := if_pos h

/-- A good start and count read the rows up to address 63. -/
theorem Part.readLimitsOrder_read (p : Part) {ps : List Byte} (ha : fieldNat ps 0 1 ≤ 63) (h1 : 1 ≤ fieldNat ps 1 1)
    (h16 : fieldNat ps 1 1 ≤ 16) :
    p.readLimitsOrder ps = ⟨p, if 64 < fieldNat ps 0 1 + fieldNat ps 1 1 then .badValue else .done,
      BitVec.ofNat 8 (min (fieldNat ps 1 1) (64 - fieldNat ps 0 1)) ::
        (p.rowsFrom (fieldNat ps 0 1) (fieldNat ps 1 1)).flatMap LimitRow.bytes⟩ := by
  rw [← p.length_rowsFrom]
  exact if_neg (by omega)

/-- Settles O36: each answer within the taking, the part unchanged, the rows in the layout of WRITE LIMITS. -/
theorem readLimitsAnswers : Obligations.ReadLimitsAnswers := by
  unfold Obligations.ReadLimitsAnswers
  intro s body h p a n rowBytes
  refine ⟨fun hb => answeredRow_of_unchanged h (s.part.taken.readLimitsOrder_refused hb), fun ha h1 h16 => ?_⟩
  have hrows : rowBytes = LimitRow.bytes := (funext LimitRow.bytes_eq).symm
  rw [hrows]
  exact answeredRow_of_unchanged h (s.part.taken.readLimitsOrder_read ha h1 h16)

/-! ## Grades (R117) -/

/-- A threshold is reached where it is present and not above the magnitude. -/
theorem reaches_iff (t : Option Nat) (m : Nat) : reaches t m = true ↔ ∃ n, t = some n ∧ n ≤ m := by
  cases t <;> simp [reaches]

/-- A threshold that the magnitude bounds is reached where it is present. -/
theorem reaches_eq_isSome {t : Option Nat} {m : Nat} (h : ∀ n, t = some n → n ≤ m) : reaches t m = t.isSome := by
  cases t with
  | none => rfl
  | some n => exact decide_eq_true (h n rfl)

/-- The grade of a polarity is the highest whose threshold is present and reached. -/
theorem Thresholds.grade_cases (t : Thresholds) (m : Nat) :
    (reaches t.t3 m = true → t.grade m = 3) ∧
    (¬ reaches t.t3 m = true → reaches t.t2 m = true → t.grade m = 2) ∧
    (¬ reaches t.t3 m = true → ¬ reaches t.t2 m = true → reaches t.t1 m = true → t.grade m = 1) ∧
    (¬ reaches t.t3 m = true → ¬ reaches t.t2 m = true → ¬ reaches t.t1 m = true → t.grade m = 0) := by
  unfold Thresholds.grade
  refine ⟨fun h3 => if_pos h3, fun h3 h2 => ?_, fun h3 h2 h1 => ?_, fun h3 h2 h1 => ?_⟩
  · rw [if_neg h3, if_pos h2]
  · rw [if_neg h3, if_neg h2, if_pos h1]
  · rw [if_neg h3, if_neg h2, if_neg h1]

/-- The value 0 has grade 0. -/
theorem LimitRow.grade_zero (r : LimitRow) : r.grade 0 = 0 := rfl

/-- Any other value has the grade of its magnitude by the thresholds of its polarity. -/
theorem LimitRow.grade_of_ne_zero (r : LimitRow) {v : Int} (h : v ≠ 0) :
    r.grade v = (if 0 < v then r.plus else r.minus).grade v.natAbs := by
  unfold LimitRow.grade polarityOf
  by_cases hp : 0 < v
  · rw [if_pos hp, if_pos hp]; rfl
  · rw [if_neg hp, if_neg hp, if_pos (by omega : v < 0)]; rfl

/-- A magnitude that bounds every threshold present has the highest grade present. -/
theorem Thresholds.grade_of_bounded (t : Thresholds) {m : Nat}
    (h : ∀ x, t.t1 = some x ∨ t.t2 = some x ∨ t.t3 = some x → x ≤ m) :
    t.grade m = if t.t3.isSome then 3 else if t.t2.isSome then 2 else if t.t1.isSome then 1 else 0 := by
  unfold Thresholds.grade
  rw [reaches_eq_isSome fun x hx => h x (.inr (.inr hx)), reaches_eq_isSome fun x hx => h x (.inr (.inl hx)),
    reaches_eq_isSome fun x hx => h x (.inl hx)]

/-! ## Release levels (R118) -/

/-- The lowest present threshold is T1, else T2, else T3. -/
theorem Thresholds.head?_present (t : Thresholds) : t.present.head? = t.t1.or (t.t2.or t.t3) := by
  obtain ⟨t1, t2, t3⟩ := t
  cases t1 <;> cases t2 <;> cases t3 <;> rfl

/-- A row with a present threshold releases at the lowest less the hysteresis. -/
theorem LimitRow.releaseLevel_of_some (r : LimitRow) {s : Polarity} {n : Nat}
    (h : (r.thresholds s).present.head? = some n) : r.releaseLevel s = n - r.hysteresis := by
  rw [LimitRow.releaseLevel, h]

/-- A row without a threshold releases above every value. -/
theorem LimitRow.releaseLevel_of_none (r : LimitRow) {s : Polarity} (h : (r.thresholds s).present.head? = none) :
    r.releaseLevel s = 32768 := by
  rw [LimitRow.releaseLevel, h]

/-- The release level by the first threshold that is present. -/
theorem LimitRow.releaseLevel_cases (r : LimitRow) (s : Polarity) :
    (∀ n, (r.thresholds s).t1 = some n → r.releaseLevel s = n - r.hysteresis) ∧
    (∀ n, (r.thresholds s).t1 = none → (r.thresholds s).t2 = some n → r.releaseLevel s = n - r.hysteresis) ∧
    (∀ n, (r.thresholds s).t1 = none → (r.thresholds s).t2 = none → (r.thresholds s).t3 = some n →
      r.releaseLevel s = n - r.hysteresis) ∧
    ((r.thresholds s).t1 = none → (r.thresholds s).t2 = none → (r.thresholds s).t3 = none →
      r.releaseLevel s = 32768) := by
  have hlowest := (r.thresholds s).head?_present
  refine ⟨fun n h1 => ?_, fun n h1 h2 => ?_, fun n h1 h2 h3 => ?_, fun h1 h2 h3 => ?_⟩
  · exact r.releaseLevel_of_some (by rw [hlowest, h1]; rfl)
  · exact r.releaseLevel_of_some (by rw [hlowest, h1, h2]; rfl)
  · exact r.releaseLevel_of_some (by rw [hlowest, h1, h2, h3]; rfl)
  · exact r.releaseLevel_of_none (by rw [hlowest, h1, h2, h3]; rfl)

/-! ## Who grades and judges by a row (R95, R97, R115, R128, R140) -/

/-- The row of a class and a parameter stands at address class × 8 + parameter. -/
theorem Part.limitRow_get? (p : Part) (cls : Fin 8) (q : Param) :
    p.lmu.limits.toList[cls.val * 8 + q.val]? = some (p.limitRow cls q) := by
  rw [Vector.getElem?_toList, Vector.getElem?_eq_getElem (by omega)]
  rfl

/-- A parameter of an emitted record is the derived one, graded by the row of the record's class. -/
theorem Part.emitted_get (p : Part) (e : TraceEntry) (q : Param) :
    (p.emitted e).values[q] = (p.derive e q).graded (p.limitRow e.cls q) := by
  simp [Part.emitted, Part.deriveAll]

/-- A derived parameter that is present carries the grade of its value. -/
theorem Derived.grade_of_graded {d : Derived} {r : LimitRow} {z : Int} {g : Nat} (h : d.graded r = .present z g) :
    g = r.grade z := by
  cases d with
  | value v m => cases h; rfl
  | absent c => cases h

/-- A present parameter of an emitted record carries the grade of its value. -/
theorem Part.emitted_grade (p : Part) {e : TraceEntry} {q : Param} {z : Int} {g : Nat}
    (h : (p.emitted e).values[q] = .present z g) : g = (p.limitRow e.cls q).grade z :=
  Derived.grade_of_graded ((p.emitted_get e q).symm.trans h)

/-- The grades of a Geometry Record are those of the emitted record. -/
theorem Part.record_grade (p : Part) (e : TraceEntry) (r : Emitted) (untracked : Bool) (q : Param) :
    (p.record e r untracked).grades[q] = (r.values[q]).grade :=
  Vector.getElem_map ParamValue.grade q.isLt

/-- A value has a polarity where it lies on its side of 0. -/
theorem polarityOf_eq_some_iff (v : Int) (s : Polarity) :
    polarityOf v = some s ↔ match s with | .plus => 0 < v | .minus => v < 0 := by
  unfold polarityOf
  cases s with
  | plus => split_ifs <;> simp_all
  | minus => split_ifs <;> simp <;> omega

/-- A value is inside for a pair where it is not of the pair's polarity or lies below the release level. -/
theorem Part.isInside_iff (p : Part) (cls : Fin 8) (k : Pair) (v : Int) : p.isInside cls k v = true ↔
    polarityOf v ≠ some (pairPolarity k) ∨
      (v.natAbs : Int) < (p.limitRow cls (pairParam k)).releaseLevel (pairPolarity k) := by
  rw [Part.isInside, Bool.or_eq_true, bne_iff_ne, decide_eq_true_iff]

/-- An exceedance is short below the minimum length of the row of the class at its peak, with a grade below 3. -/
theorem Part.isShort_iff (p : Part) (ex : Exceedance) : p.isShort ex = true ↔
    (ex.endSeq - ex.startSeq + 1).toNat < (p.limitRow ex.peak.cls ex.param).minLength ∧ ex.grade < 3 := by
  rw [Part.isShort, Bool.and_eq_true, decide_eq_true_iff, decide_eq_true_iff]
  rfl

/-- Settles O53, clause by clause: the grade by the thresholds of the value's polarity, the release level by the lowest present one, and the blocks that grade and judge by them. -/
theorem gradesAndReleaseLevels : Obligations.GradesAndReleaseLevels := by
  unfold Obligations.GradesAndReleaseLevels
  intro r v t met
  have hmet : ∀ x, met x ↔ reaches x v.natAbs = true := fun x => (reaches_iff x v.natAbs).symm
  refine ⟨fun h0 => h0 ▸ r.grade_zero, fun hne => ?_, fun sgn => ?_, fun hmax hbound => ?_, fun h m => rfl,
    fun p e untracked => ⟨fun q => (p.limitRow_get? e.cls q).symm, fun q z g hv => ⟨p.emitted_grade hv, ?_⟩,
      fun k n serial z g => ⟨rfl, rfl⟩⟩,
    fun p cls k => ?_, Part.isShort_iff⟩
  · rw [r.grade_of_ne_zero hne]
    simp only [hmet]
    exact t.grade_cases v.natAbs
  · intro u
    have hu : r.thresholds sgn = u := by cases sgn <;> rfl
    obtain ⟨h1, h2, h3, hnone⟩ := r.releaseLevel_cases sgn
    rw [hu] at h1 h2 h3 hnone
    exact ⟨h1, h2, h3, hnone, by omega, by omega⟩
  · rw [r.grade_of_ne_zero (by omega), hmax]
    exact t.grade_of_bounded hbound
  · rw [p.record_grade, hv]
    rfl
  · intro own
    have hown : polarityOf v = some (pairPolarity k) ↔ own := polarityOf_eq_some_iff v (pairPolarity k)
    rw [p.isInside_iff, ne_eq, hown]

/-! ## A slot that closes or is finalised (R132, R133, R140 to R142, R157) -/

section
variable (p : Part) {n : SlotNo} {ex : Exceedance}

/-- In PARKED the clear count of a slot stands still. -/
theorem Part.closeEvent_parked (n : SlotNo) (h : p.rnc.runState = .parked) : p.closeEvent n = p := by
  have hheld : p.countsHeld = true := beq_iff_eq.2 h
  unfold Part.closeEvent
  split
  · exact if_pos hheld
  · rfl

/-- In PARKED the records since end of a slot stand still. -/
theorem Part.gapEvent_parked (n : SlotNo) (h : p.rnc.runState = .parked) : p.gapEvent n = p := by
  have hheld : p.countsHeld = true := beq_iff_eq.2 h
  unfold Part.gapEvent
  split
  · exact if_pos hheld
  · rfl

/-- A slot that is not CLOSING has no close length to reach. -/
theorem Part.closeEvent_of_not_closing (h : ∀ e, (p.ext.slots[n]).hold ≠ .active .closing e) : p.closeEvent n = p := by
  unfold Part.closeEvent
  split
  case h_1 e he => exact absurd he (h e)
  case h_2 => rfl

/-- A slot that is not HELD has no merge gap to pass. -/
theorem Part.gapEvent_of_not_held (h : ∀ e, (p.ext.slots[n]).hold ≠ .active .held e) : p.gapEvent n = p := by
  unfold Part.gapEvent
  split
  case h_1 e he => exact absurd he (h e)
  case h_2 => rfl

/-- Outside PARKED a CLOSING slot takes one more inside record where that reaches the close length. -/
theorem Part.closeEvent_closing (hr : p.rnc.runState ≠ .parked) (h : (p.ext.slots[n]).hold = .active .closing ex) :
    p.closeEvent n = if p.oru.settings.closeLength ≤ ex.clearCount + 1 then p.insideStep n ex (ex.clearCount + 1)
      else p := by
  have hheld : ¬ p.countsHeld = true := fun hc => hr (beq_iff_eq.1 hc)
  unfold Part.closeEvent
  rw [h]
  exact if_neg hheld

/-- Outside PARKED a HELD slot takes one more record where that passes the merge gap. -/
theorem Part.gapEvent_held (hr : p.rnc.runState ≠ .parked) (h : (p.ext.slots[n]).hold = .active .held ex) :
    p.gapEvent n = if p.oru.settings.mergeGap < ex.sinceEnd + 1 then p.heldStep n ex else p := by
  have hheld : ¬ p.countsHeld = true := fun hc => hr (beq_iff_eq.1 hc)
  unfold Part.gapEvent
  rw [h]
  exact if_neg hheld

/-- A finalisation without a cut. -/
theorem Part.finaliseEx_uncut (n : SlotNo) (ex : Exceedance) : p.finaliseEx n ex none = p.finalisedIn n ex :=
  p.finaliseEx_eq n ex none

/-- At the close length a slot goes to HELD while its records since end are within the merge gap. -/
theorem Part.insideStep_held (n : SlotNo) (ex : Exceedance) {c : Nat} (hc : p.oru.settings.closeLength ≤ c)
    (hg : c ≤ p.oru.settings.mergeGap) :
    p.insideStep n ex c = p.setHold n (.active .held { ex with clearCount := c, sinceEnd := c }) := by
  rw [Part.insideStep, if_neg (Nat.not_lt.2 hc), if_neg (Nat.not_lt.2 hg)]

/-- At the close length a slot is finalised where its records since end pass the merge gap. -/
theorem Part.insideStep_finalised (n : SlotNo) (ex : Exceedance) {c : Nat} (hc : p.oru.settings.closeLength ≤ c)
    (hg : p.oru.settings.mergeGap < c) :
    p.insideStep n ex c = p.finalisedIn n { ex with clearCount := c, sinceEnd := c } := by
  rw [Part.insideStep, if_neg (Nat.not_lt.2 hc), if_pos hg, p.finaliseEx_uncut]

/-- A HELD slot is finalised where its records since end pass the merge gap. -/
theorem Part.heldStep_finalised (n : SlotNo) (ex : Exceedance) (hg : p.oru.settings.mergeGap < ex.sinceEnd + 1) :
    p.heldStep n ex = p.finalisedIn n { ex with sinceEnd := ex.sinceEnd + 1 } :=
  (if_pos hg).trans (p.finaliseEx_uncut n _)

end

/-- What CLOSE_LENGTH_REACHED leaves of a part that is not held in hard reset. -/
theorem exec_closeLengthReached {s : State} (h : s.part.resetHeld = false) {n : SlotNo} {q : Part}
    (hq : s.part.closeEvent n = q) : exec (.closeLengthReached n) s = nextWith s q :=
  hq ▸ live_nextWith s (fun p => p.closeEvent n) h

/-- What MERGE_GAP_EXCEEDED leaves of a part that is not held in hard reset. -/
theorem exec_mergeGapExceeded {s : State} (h : s.part.resetHeld = false) {n : SlotNo} {q : Part}
    (hq : s.part.gapEvent n = q) : exec (.mergeGapExceeded n) s = nextWith s q :=
  hq ▸ live_nextWith s (fun p => p.gapEvent n) h

/-- The report of R141; POSITION_CORRECTED tells of a correction sum that is not 0. -/
theorem Exceedance.report_eq (ex : Exceedance) (run : BitVec 16) : ex.report run = {
    runNumber := run, serial := ex.serial, param := ex.param, polarity := ex.polarity, grade := ex.grade
    startSeq := ex.startSeq, startRoute := ex.startRoute, endSeq := ex.endSeq, endRoute := ex.endRoute
    length := (ex.endSeq - ex.startSeq + 1).toNat
    peak := ex.peak, startLabel := ex.startLabel, merges := ex.merges
    correction := if ex.correction = 0 then none else some ex.correction
    flags := ex.flags, positionCorrected := decide (ex.correction ≠ 0) } := by
  unfold Exceedance.report
  congr 1
  rw [Bool.eq_iff_iff, bne_iff_ne, decide_eq_true_iff]

/-- Settles O25: each command by the run state and the state of its slot, a finalisation by what `finalisedIn` leaves. -/
theorem slotClosesAndFinalises : Obligations.SlotClosesAndFinalises := by
  unfold Obligations.SlotClosesAndFinalises
  refine ⟨Exceedance.report_eq, fun s n ex hs => ?_⟩
  intro p c short put finalised
  have hfinalised : ∀ e, p.finalisedIn n e = finalised e := fun e =>
    if_congr (by rw [Bool.and_eq_true, decide_eq_true_iff, decide_eq_true_iff]) rfl rfl
  refine ⟨fun hparked => ⟨?_, ?_⟩, fun hr hclosing => ⟨fun hc => ?_, fun hc hg => ?_, fun hc hg => ?_⟩,
    fun hr hheld => ⟨fun hg => ?_, fun hg => ?_⟩, fun hnot => ?_, fun hnot => ?_⟩
  · exact exec_closeLengthReached hs (p.closeEvent_parked n hparked)
  · exact exec_mergeGapExceeded hs (p.gapEvent_parked n hparked)
  · exact exec_closeLengthReached hs ((p.closeEvent_closing hr hclosing).trans (if_neg (Nat.not_le.2 hc)))
  · refine exec_closeLengthReached hs ((p.closeEvent_closing hr hclosing).trans ((if_pos hc).trans ?_))
    exact p.insideStep_held n ex hc hg
  · refine exec_closeLengthReached hs ((p.closeEvent_closing hr hclosing).trans ((if_pos hc).trans ?_))
    exact (p.insideStep_finalised n ex hc hg).trans (hfinalised _)
  · exact exec_mergeGapExceeded hs ((p.gapEvent_held hr hheld).trans (if_neg (Nat.not_lt.2 hg)))
  · refine exec_mergeGapExceeded hs ((p.gapEvent_held hr hheld).trans ((if_pos hg).trans ?_))
    exact (p.heldStep_finalised n ex hg).trans (hfinalised _)
  · exact exec_closeLengthReached hs (p.closeEvent_of_not_closing hnot)
  · exact exec_mergeGapExceeded hs (p.gapEvent_of_not_held hnot)

end Sys2Proof.Machine

/-! SUPPORT. The Exceedance Tracker's slots, latches and lists: what every operation makes of them, of the trace window and of the run state, the statement that every step keeps them consistent, and those on what a pair makes of a record, on the leaving of a frame, on the step on an empty queue and on GET. -/

namespace Sys2Proof.Machine

/-! ## What the statement on the tracker speaks of -/

/-- How a slot stands: free, active for a parameter and a polarity, or PENDING. -/
inductive Standing where
  | free
  | active (param : Param) (polarity : Polarity)
  | pending

/-- How a slot with a content stands. -/
def SlotHold.standing : SlotHold → Standing
  | .free => .free
  | .active _ ex => .active ex.param ex.polarity
  | .pending _ _ => .pending

/-- Whether records are made in a run state: MEASURING, and PARKED with the records of its flush. -/
def RunState.recording : RunState → Bool
  | .measuring => true
  | .parked => true
  | _ => false

/-- All that the invariant of the tracker speaks of: how each slot stands, the latches that are set, the pending list, the owners in the urgent owed list and the owners marked, the length of the XR queue, whether records are made, and the trace window. -/
@[ext] structure Tracking where
  standing : SlotNo → Standing
  latched : Pair → Bool
  pendingList : List SlotNo
  owners : List Owner
  owes : Owner → Bool
  xrLength : Nat
  recording : Bool
  window : List TraceEntry
  nextEmit : Option Seq
  segStart : Option Seq

/-- The tracking of an Exceedance Tracker beside an XR queue, a run state and a Trace Unit. -/
def Ext.tracking (x : Ext) (xr : List Report) (state : RunState) (t : Tru) : Tracking where
  standing n := (x.slots[n]).hold.standing
  latched k := (x.latches[k]).isSet
  pendingList := x.pendingList
  owners := x.owed.map Owed.owner
  owes o := match o with
    | .slot n => (x.slots[n]).urgentOwed
    | .latch k => (x.latches[k]).urgentOwed
  xrLength := xr.length
  recording := state.recording
  window := t.window
  nextEmit := t.nextEmit
  segStart := t.segStart

/-- The tracking of the part as it stands. -/
def Part.tracking (p : Part) : Tracking := p.ext.tracking p.rlu.xr p.rnc.runState p.tru

/-- The trace window is empty, with no entry to emit and no segment. -/
def Tracking.Untraced (x : Tracking) : Prop := x.window = [] ∧ x.nextEmit = none ∧ x.segStart = none

/-- A slot stands active. -/
def Tracking.Active (x : Tracking) (n : SlotNo) : Prop := ∃ q s, x.standing n = .active q s

/-- A slot stands active for a pair. -/
def Tracking.Holds (x : Tracking) (n : SlotNo) (k : Pair) : Prop :=
  x.standing n = .active (pairParam k) (pairPolarity k)

/-- The invariant of the statement, in one predicate. -/
structure Tracking.Consistent (x : Tracking) : Prop where
  oneSlot : ∀ k m n, x.Holds m k → x.Holds n k → m = n
  latchAlone : ∀ k, x.latched k = true → ∀ n, ¬ x.Holds n k
  pendingOnce : x.pendingList.Nodup
  pendingListed : ∀ n, n ∈ x.pendingList ↔ x.standing n = .pending
  pendingFull : x.pendingList ≠ [] → 32 ≤ x.xrLength
  owedOnce : x.owners.Nodup
  owedMarked : ∀ o, o ∈ x.owners ↔ x.owes o = true
  untraced : x.recording = false → x.Untraced
  noneActive : x.recording = false → ∀ n, ¬ x.Active n
  noneLatched : x.recording = false → ∀ k, x.latched k = false

theorem RunState.recording_eq_false_iff (r : RunState) : r.recording = false ↔ r = .halted ∨ r = .armed := by
  cases r <;> simp [RunState.recording]

theorem SlotHold.activeFor_iff (h : SlotHold) (k : Pair) :
    h.activeFor k = true ↔ h.standing = .active (pairParam k) (pairPolarity k) := by
  cases h <;> simp [SlotHold.activeFor, SlotHold.active?, SlotHold.standing]

theorem Slot.isActive_iff (x : Slot) : x.isActive = true ↔ ∃ q s, x.hold.standing = .active q s := by
  unfold Slot.isActive
  cases x.hold <;> simp [SlotHold.active?, SlotHold.standing]

theorem Slot.isPending_iff (x : Slot) : x.isPending = true ↔ x.hold.standing = .pending := by
  unfold Slot.isPending
  cases x.hold <;> simp [SlotHold.standing]

theorem Part.tracking_owes (p : Part) (o : Owner) : p.tracking.owes o = p.owes o := by cases o <;> rfl

theorem Part.tracking_recording (p : Part) : p.tracking.recording = p.rnc.runState.recording := rfl

/-- A slot is active for a pair exactly where it stands so. -/
theorem Part.holds_iff (p : Part) (n : SlotNo) (k : Pair) :
    p.tracking.Holds n k ↔ (p.ext.slots[n]).hold.activeFor k = true := (SlotHold.activeFor_iff _ k).symm

theorem Part.active_iff (p : Part) (n : SlotNo) : p.tracking.Active n ↔ (p.ext.slots[n]).isActive = true :=
  (Slot.isActive_iff _).symm

/-- The invariant of the statement in the statement's words. -/
theorem Part.tracking_consistent_iff (p : Part) :
    p.tracking.Consistent ↔ p.OneSlotPerPair ∧ p.QuietOutsideRun ∧ p.PendingListed ∧ p.OwedMarked := by
  have hfree : ∀ n k, (p.ext.slots[n]).hold.activeFor k = false ↔ ¬ p.tracking.Holds n k := fun n k => by
    rw [p.holds_iff, Bool.not_eq_true]
  have hidle : ∀ n, (p.ext.slots[n]).isActive = false ↔ ¬ p.tracking.Active n := fun n => by
    rw [p.active_iff, Bool.not_eq_true]
  have hrun : (p.rnc.runState = .halted ∨ p.rnc.runState = .armed) ↔ p.tracking.recording = false :=
    (RunState.recording_eq_false_iff _).symm
  unfold Part.OneSlotPerPair Part.QuietOutsideRun Part.PendingListed Part.OwedMarked
  simp only [hfree, hidle, hrun, ← p.holds_iff, Slot.isPending_iff, ← p.tracking_owes]
  constructor
  · intro h
    exact ⟨fun k => ⟨h.oneSlot k, h.latchAlone k⟩,
      fun hr => ⟨(h.untraced hr).1, (h.untraced hr).2.1, (h.untraced hr).2.2, h.noneActive hr, h.noneLatched hr⟩,
      ⟨h.pendingOnce, h.pendingListed, h.pendingFull⟩, h.owedOnce, h.owedMarked⟩
  · rintro ⟨hone, hquiet, ⟨honce, hlisted, hfull⟩, howed, hmarked⟩
    exact {
      oneSlot := fun k => (hone k).1
      latchAlone := fun k => (hone k).2
      pendingOnce := honce
      pendingListed := hlisted
      pendingFull := hfull
      owedOnce := howed
      owedMarked := hmarked
      untraced := fun hr => ⟨(hquiet hr).1, (hquiet hr).2.1, (hquiet hr).2.2.1⟩
      noneActive := fun hr => (hquiet hr).2.2.2.1
      noneLatched := fun hr => (hquiet hr).2.2.2.2 }

/-! ## What keeps a tracking consistent -/

/-- One slot made to stand in another way. -/
def Tracking.stand (x : Tracking) (n : SlotNo) (s : Standing) : Tracking :=
  { x with standing := Function.update x.standing n s }

@[simp] theorem Tracking.stand_same (x : Tracking) (n : SlotNo) : x.stand n (x.standing n) = x := by
  simp [Tracking.stand]

@[simp] theorem Tracking.stand_self (x : Tracking) (n : SlotNo) (s : Standing) : (x.stand n s).standing n = s :=
  Function.update_self ..

theorem Tracking.stand_of_ne (x : Tracking) {m n : SlotNo} (h : m ≠ n) (s : Standing) :
    (x.stand n s).standing m = x.standing m := Function.update_of_ne h ..

section
variable {x : Tracking}

/-- A new entry at the tail of a list without repetitions. -/
theorem nodup_snoc {α : Type} {l : List α} {a : α} (h : l.Nodup) (ha : a ∉ l) : (l ++ [a]).Nodup :=
  List.concat_eq_append ▸ List.Nodup.concat ha h

/-- A pair is told by its parameter and its polarity. -/
theorem pair_ext {j k : Pair} (hparam : pairParam j = pairParam k) (hpolarity : pairPolarity j = pairPolarity k) :
    j = k := by
  have hdiv : j.val / 2 = k.val / 2 := congrArg Fin.val hparam
  have hmod : j.val % 2 = 0 ↔ k.val % 2 = 0 := by
    have hplus : ∀ i : Pair, pairPolarity i = .plus ↔ i.val % 2 = 0 := fun i => by
      unfold pairPolarity
      split <;> simp_all
    rw [← hplus, ← hplus, hpolarity]
  exact Fin.ext (by omega)

/-- A slot that has come to stand free or PENDING, the pending list holding exactly the PENDING slots. -/
theorem Tracking.Consistent.inactive (h : x.Consistent) {n : SlotNo} {s : Standing} (hs : ∀ q t, s ≠ .active q t)
    {list : List SlotNo} {len : Nat} (honce : list.Nodup) (hlisted : ∀ m, m ∈ list ↔ (x.stand n s).standing m = .pending)
    (hfull : list ≠ [] → 32 ≤ len) :
    Tracking.Consistent { x.stand n s with pendingList := list, xrLength := len } := by
  have hactive : ∀ {m q t}, (x.stand n s).standing m = .active q t → x.standing m = .active q t := fun {m q t} hm => by
    by_cases hmn : m = n
    · rw [hmn, Tracking.stand_self] at hm
      exact absurd hm (hs q t)
    · rwa [x.stand_of_ne hmn] at hm
  exact { h with
    oneSlot := fun k a b ha hb => h.oneSlot k a b (hactive ha) (hactive hb)
    latchAlone := fun k hk m hm => h.latchAlone k hk m (hactive hm)
    pendingOnce := honce
    pendingListed := hlisted
    pendingFull := hfull
    noneActive := fun hr m ⟨q, t, hm⟩ => h.noneActive hr m ⟨q, t, hactive hm⟩ }

/-- An active slot made free, where a report may have joined the XR queue (R140, R142). -/
theorem Tracking.Consistent.freed (h : x.Consistent) {n : SlotNo} (hn : x.Active n) {len : Nat} (hlen : x.xrLength ≤ len) :
    Tracking.Consistent { x.stand n .free with xrLength := len } := by
  refine h.inactive (list := x.pendingList) (by simp) h.pendingOnce (fun m => ?_) (fun hne => (h.pendingFull hne).trans hlen)
  obtain ⟨q, t, hq⟩ := hn
  by_cases hm : m = n
  · subst hm
    simp [h.pendingListed, hq]
  · rw [x.stand_of_ne hm, h.pendingListed]

/-- An active slot gone PENDING at the tail of the pending list, the XR queue full (R142). -/
theorem Tracking.Consistent.waits (h : x.Consistent) {n : SlotNo} (hn : x.Active n) (hfull : 32 ≤ x.xrLength) :
    Tracking.Consistent { x.stand n .pending with pendingList := x.pendingList ++ [n] } := by
  have hnew : n ∉ x.pendingList := fun hmem => by
    obtain ⟨q, t, hq⟩ := hn
    rw [h.pendingListed, hq] at hmem
    cases hmem
  refine h.inactive (by simp) (nodup_snoc h.pendingOnce hnew) (fun m => ?_) (fun _ => hfull)
  by_cases hm : m = n
  · simp [hm]
  · rw [x.stand_of_ne hm, ← h.pendingListed]
    simp [hm]

/-- The head of the pending list gone with its slot made free, the XR queue as full as it was (R143). -/
theorem Tracking.Consistent.promoted (h : x.Consistent) {n : SlotNo} {rest : List SlotNo} (hl : x.pendingList = n :: rest) :
    Tracking.Consistent { x.stand n .free with pendingList := rest } := by
  obtain ⟨hnot, honce⟩ := List.nodup_cons.1 (hl ▸ h.pendingOnce)
  refine h.inactive (by simp) honce (fun m => ?_) (fun _ => h.pendingFull (by simp [hl]))
  by_cases hm : m = n
  · simpa [hm] using hnot
  · rw [x.stand_of_ne hm, ← h.pendingListed, hl]
    simp [hm]

/-- Another length of the XR queue while nothing is pending. -/
theorem Tracking.Consistent.resized (h : x.Consistent) (hl : x.pendingList = []) (len : Nat) :
    Tracking.Consistent { x with xrLength := len } :=
  { h with pendingFull := fun hne => absurd hl hne }

/-- A free slot opened for a pair that has neither a slot nor its latch (R129). -/
theorem Tracking.Consistent.opened (h : x.Consistent) {n : SlotNo} {k : Pair} (hr : x.recording = true)
    (hn : x.standing n = .free) (hnone : ∀ m, ¬ x.Holds m k) (hlatch : x.latched k = false) :
    Tracking.Consistent (x.stand n (.active (pairParam k) (pairPolarity k))) := by
  have hpair : ∀ j, (x.stand n (.active (pairParam k) (pairPolarity k))).Holds n j → j = k := fun j hj => by
    obtain ⟨hparam, hpolarity⟩ := Standing.active.inj ((x.stand_self n _).symm.trans hj)
    exact pair_ext hparam.symm hpolarity.symm
  have hkept : ∀ m j, m ≠ n → (x.stand n (.active (pairParam k) (pairPolarity k))).Holds m j → x.Holds m j :=
    fun m j hm hj => (x.stand_of_ne hm _).symm.trans hj
  exact { h with
    oneSlot := fun j a b ha hb => by
      by_cases han : a = n <;> by_cases hbn : b = n
      · exact han.trans hbn.symm
      · obtain rfl := hpair j (han ▸ ha)
        exact absurd (hkept b j hbn hb) (hnone b)
      · obtain rfl := hpair j (hbn ▸ hb)
        exact absurd (hkept a j han ha) (hnone a)
      · exact h.oneSlot j a b (hkept a j han ha) (hkept b j hbn hb)
    latchAlone := fun j hj m hm => by
      by_cases hmn : m = n
      · obtain rfl := hpair j (hmn ▸ hm)
        exact absurd hj (Bool.eq_false_iff.1 hlatch)
      · exact h.latchAlone j hj m (hkept m j hmn hm)
    pendingListed := fun m => by
      refine (h.pendingListed m).trans ?_
      by_cases hmn : m = n
      · simp [hmn, hn]
      · rw [x.stand_of_ne hmn]
    noneActive := fun hfalse => absurd hr (Bool.eq_false_iff.1 hfalse) }

/-- Latches of which none has come to be set (R135, R137). -/
theorem Tracking.Consistent.unlatched (h : x.Consistent) {f : Pair → Bool} (hf : ∀ k, f k = true → x.latched k = true) :
    Tracking.Consistent { x with latched := f } :=
  { h with
    latchAlone := fun k hk => h.latchAlone k (hf k hk)
    noneLatched := fun hr k => Bool.eq_false_iff.2 fun hk => Bool.eq_false_iff.1 (h.noneLatched hr k) (hf k hk) }

/-- The latch of a pair that has no slot set, within a run (R130). -/
theorem Tracking.Consistent.latchSet (h : x.Consistent) {k : Pair} (hr : x.recording = true) (hnone : ∀ m, ¬ x.Holds m k) :
    Tracking.Consistent { x with latched := Function.update x.latched k true } :=
  { h with
    latchAlone := fun j hj => by
      by_cases hjk : j = k
      · exact hjk ▸ hnone
      · exact h.latchAlone j ((Function.update_of_ne hjk true x.latched).symm.trans hj)
    noneLatched := fun hfalse => absurd hr (Bool.eq_false_iff.1 hfalse) }

/-- An owner without an owed notice marked, with its notice at the tail of the owed list (R147). -/
theorem Tracking.Consistent.owing (h : x.Consistent) {o : Owner} (ho : o ∉ x.owners) :
    Tracking.Consistent { x with owners := x.owners ++ [o], owes := Function.update x.owes o true } :=
  { h with
    owedOnce := nodup_snoc h.owedOnce ho
    owedMarked := fun o' => by
      show o' ∈ x.owners ++ [o] ↔ Function.update x.owes o true o' = true
      by_cases ho' : o' = o
      · simp [ho']
      · rw [Function.update_of_ne ho', ← h.owedMarked]
        simp [ho'] }

/-- The oldest owed notice gone, its owner's mark cleared (R148). -/
theorem Tracking.Consistent.paid (h : x.Consistent) {o : Owner} {rest : List Owner} (hl : x.owners = o :: rest) :
    Tracking.Consistent { x with owners := rest, owes := Function.update x.owes o false } := by
  obtain ⟨hnot, honce⟩ := List.nodup_cons.1 (hl ▸ h.owedOnce)
  exact { h with
    owedOnce := honce
    owedMarked := fun o' => by
      show o' ∈ rest ↔ Function.update x.owes o false o' = true
      by_cases ho' : o' = o
      · simpa [ho'] using hnot
      · rw [Function.update_of_ne ho', ← h.owedMarked, hl]
        simp [ho'] }

/-- Another trace window within a run. -/
theorem Tracking.Consistent.traced (h : x.Consistent) (hr : x.recording = true) (w : List TraceEntry)
    (next start : Option Seq) : Tracking.Consistent { x with window := w, nextEmit := next, segStart := start } :=
  { h with untraced := fun hfalse => absurd hr (Bool.eq_false_iff.1 hfalse) }

/-- The trace window emptied (R98). -/
theorem Tracking.Consistent.emptied (h : x.Consistent) :
    Tracking.Consistent { x with window := [], nextEmit := none, segStart := none } :=
  { h with untraced := fun _ => ⟨rfl, rfl, rfl⟩ }

/-- A run state in which records are made. -/
theorem Tracking.Consistent.recorded (h : x.Consistent) : Tracking.Consistent { x with recording := true } :=
  { h with untraced := nofun, noneActive := nofun, noneLatched := nofun }

/-- The end of a run, with nothing traced, active or latched (R161). -/
theorem Tracking.Consistent.halted (h : x.Consistent) (htrace : x.Untraced) (hactive : ∀ n, ¬ x.Active n)
    (hlatched : ∀ k, x.latched k = false) : Tracking.Consistent { x with recording := false } :=
  { h with untraced := fun _ => htrace, noneActive := fun _ => hactive, noneLatched := fun _ => hlatched }

end

/-! ## Operations that leave the tracking -/

section
variable (p : Part)

/-- The tracking lies in the Exceedance Tracker, the XR queue, the run state and the Trace Unit. -/
theorem Part.tracking_eq_of_blocks {p q : Part} (hext : q.ext = p.ext) (hxr : q.rlu.xr = p.rlu.xr) (hrnc : q.rnc = p.rnc)
    (htru : q.tru = p.tru) : q.tracking = p.tracking := by
  simp only [Part.tracking, hext, hxr, hrnc, htru]

@[simp] theorem Part.withTime_tracking (x : Time) : (p.withTime x).tracking = p.tracking := rfl
@[simp] theorem Part.withHlu_tracking (x : Hlu) : (p.withHlu x).tracking = p.tracking := rfl
@[simp] theorem Part.withShu_tracking (x : Shu) : (p.withShu x).tracking = p.tracking := rfl
@[simp] theorem Part.withOdu_tracking (x : Odu) : (p.withOdu x).tracking = p.tracking := rfl
@[simp] theorem Part.withPfu_tracking (x : Pfu) : (p.withPfu x).tracking = p.tracking := rfl
@[simp] theorem Part.withLmu_tracking (x : Lmu) : (p.withLmu x).tracking = p.tracking := rfl
@[simp] theorem Part.withOru_tracking (x : Oru) : (p.withOru x).tracking = p.tracking := rfl
@[simp] theorem Part.withEvu_tracking (x : Evu) : (p.withEvu x).tracking = p.tracking := rfl
@[simp] theorem Part.bumpBy_tracking (c : Counter) (n : Nat) : (p.bumpBy c n).tracking = p.tracking := rfl
@[simp] theorem Part.bump_tracking (c : Counter) : (p.bump c).tracking = p.tracking := rfl
@[simp] theorem Part.fillReservation_tracking (f : ControlFrame) : (p.fillReservation f).tracking = p.tracking := rfl
@[simp] theorem Part.taken_tracking : p.taken.tracking = p.tracking := rfl
@[simp] theorem Part.elapse_tracking : p.elapse.tracking = p.tracking := rfl

/-- The Recorder Link Unit replaced by one with the same XR queue. -/
theorem Part.withRlu_tracking {x : Rlu} (h : x.xr = p.rlu.xr) : (p.withRlu x).tracking = p.tracking :=
  Part.tracking_eq_of_blocks rfl h rfl rfl

@[simp] theorem Part.raise_tracking (e : Event) : (p.raise e).tracking = p.tracking := by simp [Part.tracking]

@[simp] theorem Part.raiseTimes_tracking (e : Event) (n : Nat) : (p.raiseTimes e n).tracking = p.tracking := by
  induction n generalizing p with
  | zero => rfl
  | succ n ih => exact (ih _).trans (p.raise_tracking e)

/-! ### The look-ahead lists and the position -/

@[simp] theorem Part.sectionLowTest_tracking : p.sectionLowTest.tracking = p.tracking := by
  unfold Part.sectionLowTest
  split <;> simp

@[simp] theorem Part.sectionStarvedTest_tracking : p.sectionStarvedTest.tracking = p.tracking := by
  unfold Part.sectionStarvedTest
  split <;> simp

@[simp] theorem Part.sectionAdvance_tracking : p.sectionAdvance.tracking = p.tracking := by
  unfold Part.sectionAdvance
  dsimp only
  split <;> simp

@[simp] theorem Part.missState_tracking : p.missState.tracking = p.tracking := by
  unfold Part.missState
  split
  · split <;> simp
  · rfl

@[simp] theorem Part.markerMissed_tracking : p.markerMissed.tracking = p.tracking := by simp [Part.markerMissed]

@[simp] theorem Part.markerGone_tracking (skip : Bool) : (p.markerGone skip).tracking = p.tracking := by
  cases skip <;> simp [Part.markerGone]

@[simp] theorem Part.scanRoute_tracking (skip : Bool) (l : List RouteEntry) :
    (p.scanRoute skip l).1.tracking = p.tracking := by
  induction l generalizing p with
  | nil => rfl
  | cons e es ih =>
    have hpost : ∀ x, (p.postPassed x).tracking = p.tracking := fun x => by simp [Part.tracking]
    unfold Part.scanRoute
    split
    · split
      · simp [ih, hpost]
      · split <;> simp [ih]
    · rfl

@[simp] theorem Part.routeLowTest_tracking : p.routeLowTest.tracking = p.tracking := by
  unfold Part.routeLowTest
  split <;> simp

@[simp] theorem Part.routeAdvance_tracking (skip : Bool) : (p.routeAdvance skip).tracking = p.tracking := by
  unfold Part.routeAdvance
  dsimp only
  split <;> simp

@[simp] theorem Part.missBefore_tracking (n : Nat) : (p.missBefore n).tracking = p.tracking := by
  unfold Part.missBefore
  split <;> simp

@[simp] theorem Part.largeTest_tracking (c : Int) : (p.largeTest c).tracking = p.tracking := by
  unfold Part.largeTest
  split <;> simp

/-- A correction moves sums, and leaves every slot standing as it was (R139). -/
@[simp] theorem Part.correctSlots_tracking (c : Int) : (p.correctSlots c).tracking = p.tracking := by
  have hstanding : ∀ h : SlotHold, (h.correct c).standing = h.standing := fun h => by cases h <;> rfl
  simp [Part.tracking, Part.correctSlots, Ext.tracking, hstanding]

@[simp] theorem Part.handOff_tracking (c : Int) : (p.handOff c).tracking = p.tracking := by simp [Part.handOff]

@[simp] theorem Part.fixedAt_tracking (m : Int) : (p.fixedAt m).tracking = p.tracking := by simp [Part.tracking]

@[simp] theorem Part.fix_tracking (l : List RouteEntry) (m : Int) (l' : List RouteEntry) :
    (p.fix l m l').tracking = p.tracking := by simp [Part.fix]

@[simp] theorem Part.detect_tracking (code : BitVec 32) : (p.detect code).tracking = p.tracking := by
  unfold Part.detect
  split
  · rfl
  · split <;> simp

/-! ### The comparison of the channels -/

@[simp] theorem Part.countSlip_tracking (b : Bool) : (p.countSlip b).tracking = p.tracking := by
  cases b <;> simp [Part.countSlip]

@[simp] theorem Part.switchChannel_tracking : p.switchChannel.tracking = p.tracking := by simp [Part.tracking]

@[simp] theorem Part.judgeChannels_tracking : p.judgeChannels.1.tracking = p.tracking := by
  unfold Part.judgeChannels
  dsimp only
  split <;> simp

@[simp] theorem Part.zeroUpdates_tracking : p.zeroUpdates.tracking = p.tracking := by simp [Part.tracking]

@[simp] theorem Part.newWindow_tracking : p.newWindow.tracking = p.tracking := rfl

@[simp] theorem Part.comparison_tracking : p.comparison.1.tracking = p.tracking := by
  unfold Part.comparison
  dsimp only
  split <;> simp

@[simp] theorem Part.speedTick_tracking (t : TickData) : (p.speedTick t).tracking = p.tracking := by simp [Part.tracking]

@[simp] theorem Part.phaseChange_tracking (c : Encoder) (a b : Bool) : (p.phaseChange c a b).tracking = p.tracking := by
  simp [Part.tracking]

@[simp] theorem Part.tickAdvance_tracking : p.tickAdvance.tracking = p.tracking := by
  unfold Part.tickAdvance
  split <;> simp

/-! ### The GR queue -/

theorem Part.countDrop_tracking (d : GeometryRecord) : (p.countDrop d).tracking = p.tracking :=
  (Part.raise_tracking _ _).trans rfl

@[simp] theorem Part.offerGr_tracking (g : GeometryRecord) : (p.offerGr g).tracking = p.tracking := by
  unfold Part.offerGr
  split
  · rfl
  · dsimp only
    split
    · exact (Part.countDrop_tracking _ _).trans (p.withRlu_tracking rfl)
    · rfl

/-! ### The head link -/

@[simp] theorem Part.writeHead_tracking (h : Head) (r : HeadRecord) : (p.writeHead h r).tracking = p.tracking := by
  unfold Part.writeHead
  dsimp only
  split <;> simp [Part.onHead]

@[simp] theorem Part.setRx_tracking (x : HeadRx) : (p.setRx x).tracking = p.tracking := rfl

@[simp] theorem Part.lockEvent_tracking : p.lockEvent.tracking = p.tracking := by simp [Part.tracking]

@[simp] theorem Part.unlock_tracking : p.unlock.tracking = p.tracking := by simp [Part.unlock]

@[simp] theorem Part.linkError_tracking : p.linkError.tracking = p.tracking := by
  unfold Part.linkError
  dsimp only
  split <;> simp

@[simp] theorem Part.headLoss_tracking : p.headLoss.tracking = p.tracking := by
  unfold Part.headLoss
  dsimp only
  split <;> simp

@[simp] theorem Part.framingError_tracking (x : HeadRx) : (p.framingError x).tracking = p.tracking := by
  simp [Part.framingError]

@[simp] theorem Part.badFrame_tracking (h : Head) (b : Bool) : (p.badFrame h b).tracking = p.tracking := by
  unfold Part.badFrame
  dsimp only
  split <;> simp

@[simp] theorem Part.validFrame_tracking (h : Head) (n : BitVec 8) : (p.validFrame h n).tracking = p.tracking := by
  simp [Part.validFrame]

@[simp] theorem Part.mirrorCopy_tracking (h : Head) (k : HeadKind) (l : List Byte) :
    (p.mirrorCopy h k l).tracking = p.tracking := by
  unfold Part.mirrorCopy Part.offerMirror
  split
  · split <;> rfl
  · rfl

@[simp] theorem Part.takeStatus_tracking (h : Head) (b : BitVec 8) : (p.takeStatus h b).tracking = p.tracking := by
  unfold Part.takeStatus
  dsimp only
  split <;> simp [Part.onHead]

@[simp] theorem Part.takeMarker_tracking (h : Head) (code : BitVec 32) : (p.takeMarker h code).tracking = p.tracking := by
  unfold Part.takeMarker
  split
  · split <;> simp
  · rfl

@[simp] theorem Part.completeRelay_tracking (x : RelaySlot) (r : Result) (l : List Byte) :
    (p.completeRelay x r l).tracking = p.tracking := by
  unfold Part.completeRelay
  dsimp only
  split <;> rfl

@[simp] theorem Part.takeReply_tracking (h : Head) (l : List Byte) : (p.takeReply h l).tracking = p.tracking := by
  unfold Part.takeReply
  split
  · split <;> simp
  · simp

@[simp] theorem Part.takeKind_tracking (h : Head) (hd : Header) (l : List Byte) :
    (p.takeKind h hd l).tracking = p.tracking := by
  have hsample : (p.holdSample h hd (payloadOf l)).tracking = p.tracking := rfl
  unfold Part.takeKind
  split <;> simp [hsample]

@[simp] theorem Part.judgeFrame_tracking (l : List Byte) (hd : Header) : (p.judgeFrame l hd).tracking = p.tracking := by
  unfold Part.judgeFrame
  split
  · rfl
  · split_ifs <;> simp

@[simp] theorem Part.frameData_tracking (l : List Byte) (hd : Option Header) (b : Byte) :
    (p.frameData l hd b).tracking = p.tracking := by
  unfold Part.frameData
  dsimp only
  split
  · split
    · rfl
    · split <;> simp [Part.headerError]
  · split <;> simp

@[simp] theorem Part.frameEnd_tracking (l : List Byte) (hd : Option Header) : (p.frameEnd l hd).tracking = p.tracking := by
  unfold Part.frameEnd
  split
  · simp
  · split <;> simp

@[simp] theorem Part.charInFrame_tracking (l : List Byte) (hd : Option Header) (c : LineChar) :
    (p.charInFrame l hd c).tracking = p.tracking := by
  cases c with
  | frameStart =>
    unfold Part.charInFrame
    dsimp only
    split <;> simp
  | _ => simp [Part.charInFrame]

@[simp] theorem Part.charOutside_tracking (b : Bool) (c : LineChar) : (p.charOutside b c).tracking = p.tracking := by
  cases c with
  | data x => cases b <;> simp [Part.charOutside]
  | frameEnd => cases b <;> simp [Part.charOutside]
  | _ => rfl

@[simp] theorem Part.charTaken_tracking (c : LineChar) : (p.charTaken c).tracking = p.tracking := by
  have hpassing : (p.charPassing c).tracking = p.tracking := by simp [Part.tracking]
  have hhunting : (p.charHunting c).tracking = p.tracking := by simp [Part.tracking]
  unfold Part.charTaken
  split
  · split <;> simp [hpassing]
  · exact hhunting

@[simp] theorem Part.headChar_tracking (c : LineChar) : (p.headChar c).tracking = p.tracking := by
  have hcount : (p.lockEvent.countViolation c).tracking = p.tracking := by simp [Part.tracking]
  simp [Part.headChar, hcount]

/-- The characters of a head frame leave the tracking: a fix corrects sums alone. -/
theorem Part.headFrame_tracking (chars : List LineChar) : (p.headFrame chars).tracking = p.tracking := by
  unfold Part.headFrame
  induction LineChar.frameStart :: chars generalizing p with
  | nil => rfl
  | cons c cs ih => exact (ih _).trans (p.headChar_tracking c)

theorem Part.relayTimeoutEvent_tracking : p.relayTimeoutEvent.tracking = p.tracking := by
  unfold Part.relayTimeoutEvent
  split <;> simp

theorem Part.watchdogEvent_tracking (h : Head) : (p.watchdogEvent h).tracking = p.tracking := by
  unfold Part.watchdogEvent
  split <;> simp

/-! ### The recorder link -/

@[simp] theorem Part.goDown_tracking : p.goDown.tracking = p.tracking := by
  have hcut : p.cutTransmission.tracking = p.tracking := by
    unfold Part.cutTransmission
    split <;> rfl
  exact (Part.tracking_eq_of_blocks rfl rfl rfl rfl).trans hcut

@[simp] theorem Part.recorderError_tracking : p.recorderError.tracking = p.tracking := by
  unfold Part.recorderError
  dsimp only
  split
  · exact (Part.goDown_tracking _).trans (p.withRlu_tracking rfl)
  · rfl

@[simp] theorem Part.linkUpEvent_tracking : p.linkUpEvent.tracking = p.tracking := by
  unfold Part.linkUpEvent
  split <;> rfl

theorem Part.recorderLoss_tracking : p.recorderLoss.tracking = p.tracking := by
  unfold Part.recorderLoss
  dsimp only
  split <;> simp

@[simp] theorem Part.checkFailure_tracking : p.checkFailure.tracking = p.tracking :=
  (Part.recorderError_tracking _).trans rfl

@[simp] theorem Part.setInbound_tracking (x : Option (List Byte)) : (p.setInbound x).tracking = p.tracking := rfl

@[simp] theorem Part.offerOrder_tracking (body : List Byte) : (p.offerOrder body).tracking = p.tracking := by
  unfold Part.offerOrder
  split_ifs <;> simp

@[simp] theorem Part.takeInbound_tracking (bytes : List Byte) : (p.takeInbound bytes).tracking = p.tracking := by
  unfold Part.takeInbound
  dsimp only
  split_ifs
  · exact (Part.offerOrder_tracking _ _).trans (p.withRlu_tracking rfl)
  · rfl
  · rfl

@[simp] theorem Part.charUp_tracking (c : LineChar) : (p.charUp c).tracking = p.tracking := by
  cases c with
  | idle =>
    unfold Part.charUp Part.tallyIdle
    dsimp only
    split <;> rfl
  | violation =>
    unfold Part.charUp Part.inboundViolation
    dsimp only
    split <;> simp
  | frameStart =>
    unfold Part.charUp Part.inboundStart
    dsimp only
    split
    · rfl
    · split <;> simp
  | data b =>
    unfold Part.charUp Part.inboundData
    dsimp only
    split
    · rfl
    · split <;> simp
  | frameEnd =>
    unfold Part.charUp Part.inboundEnd
    dsimp only
    split
    · rfl
    · split <;> simp

@[simp] theorem Part.charHunt_tracking (c : LineChar) : (p.charHunt c).tracking = p.tracking := by
  cases c <;> rfl

@[simp] theorem Part.recorderChar_tracking (c : LineChar) : (p.recorderChar c).tracking = p.tracking := by
  have hcount : (p.linkUpEvent.countRecorderViolation c).tracking = p.tracking := by
    unfold Part.countRecorderViolation
    split <;> simp
  unfold Part.recorderChar Part.recorderTaken
  split
  · exact (Part.charHunt_tracking _ c).trans hcount
  · simp [hcount]
  · simp [hcount]

theorem Part.recorderFrame_tracking (chars : List LineChar) : (p.recorderFrame chars).tracking = p.tracking := by
  unfold Part.recorderFrame
  induction LineChar.frameStart :: chars generalizing p with
  | nil => rfl
  | cons c cs ih => exact (ih _).trans (p.recorderChar_tracking c)

theorem Part.arbiterEvent_tracking : p.arbiterEvent.tracking = p.tracking := by
  unfold Part.arbiterEvent
  split
  · split <;> rfl
  · rfl

end

/-! ## What the tracker's own operations make of the tracking -/

/-- A field of a table after one entry has been changed. -/
theorem vmodify_field {α β : Type} {n : Nat} (v : Vector α n) (i : Fin n) (f : α → α) (field : α → β) (j : Fin n) :
    field (vmodify v i f)[j] = Function.update (fun j => field v[j]) i (field (f v[i])) j := by
  rw [vmodify_get]
  by_cases h : i = j
  · subst h
    simp
  · rw [if_neg h, Function.update_of_ne (Ne.symm h)]

/-- A field of a table that the change of an entry leaves. -/
theorem vmodify_field_same {α β : Type} {n : Nat} (v : Vector α n) (i : Fin n) {f : α → α} {field : α → β}
    (h : field (f v[i]) = field v[i]) (j : Fin n) : field (vmodify v i f)[j] = field v[j] := by
  rw [vmodify_field v i f field, h]
  exact congrFun (Function.update_eq_self i fun j => field v[j]) j

section
variable (p : Part)

/-- A slot's content replaced makes the slot stand as the content says. -/
theorem Part.setHold_tracking (n : SlotNo) (x : SlotHold) :
    (p.setHold n x).tracking = p.tracking.stand n x.standing := by
  refine Tracking.ext ?_ rfl rfl rfl ?_ rfl rfl rfl rfl rfl
  · exact funext fun m => vmodify_field p.ext.slots n _ (fun y => y.hold.standing) m
  · funext o
    cases o with
    | slot m => exact vmodify_field_same p.ext.slots n (field := Slot.urgentOwed) rfl m
    | latch k => rfl

/-- A content that stands as the old one leaves the tracking. -/
theorem Part.setHold_tracking_same {n : SlotNo} {x : SlotHold} (h : p.tracking.standing n = x.standing) :
    (p.setHold n x).tracking = p.tracking := by
  rw [Part.setHold_tracking, ← h, Tracking.stand_same]

/-- A slot opened stands as its content says; its urgent owed mark was clear. -/
theorem Part.setSlot_tracking {n : SlotNo} (x : SlotHold) (h : (p.ext.slots[n]).urgentOwed = false) :
    (p.setSlot n ⟨x, false⟩).tracking = p.tracking.stand n x.standing := by
  refine Tracking.ext ?_ rfl rfl rfl ?_ rfl rfl rfl rfl rfl
  · exact funext fun m => vmodify_field p.ext.slots n _ (fun y => y.hold.standing) m
  · funext o
    cases o with
    | slot m => exact vmodify_field_same p.ext.slots n (field := Slot.urgentOwed) h.symm m
    | latch k => rfl

/-- A latch changed, its urgent owed mark kept. -/
theorem Part.onLatch_tracking (k : Pair) {f : Latch → Latch} (hf : ∀ l, (f l).urgentOwed = l.urgentOwed) :
    (p.onLatch k f).tracking =
      { p.tracking with latched := Function.update p.tracking.latched k (f p.ext.latches[k]).isSet } := by
  refine Tracking.ext rfl ?_ rfl rfl ?_ rfl rfl rfl rfl rfl
  · exact funext fun j => vmodify_field p.ext.latches k f Latch.isSet j
  · funext o
    cases o with
    | slot m => rfl
    | latch j => exact vmodify_field_same p.ext.latches k (field := Latch.urgentOwed) (hf _) j

/-- Every latch cleared (R137). -/
theorem Part.clearLatches_tracking : p.clearLatches.tracking = { p.tracking with latched := fun _ => false } := by
  refine Tracking.ext rfl ?_ rfl rfl ?_ rfl rfl rfl rfl rfl
  · funext k
    simp [Part.tracking, Ext.tracking, Part.clearLatches, Latch.cleared]
  · funext o
    cases o with
    | slot m => rfl
    | latch j => simp [Part.tracking, Ext.tracking, Part.clearLatches, Latch.cleared]

/-- An owner's urgent owed mark written (R147). -/
theorem Part.markOwed_tracking (o : Owner) (b : Bool) :
    (p.markOwed o b).tracking = { p.tracking with owes := Function.update p.tracking.owes o b } := by
  cases o with
  | slot n =>
    refine Tracking.ext ?_ rfl rfl rfl ?_ rfl rfl rfl rfl rfl
    · exact funext fun m => vmodify_field_same p.ext.slots n (field := fun y => y.hold.standing) rfl m
    · funext o
      cases o with
      | slot m =>
        refine (vmodify_field p.ext.slots n _ Slot.urgentOwed m).trans ?_
        simp [Function.update_apply, Part.tracking, Ext.tracking]
      | latch k => simp [Part.tracking, Ext.tracking, Part.markOwed]
  | latch k =>
    refine Tracking.ext rfl ?_ rfl rfl ?_ rfl rfl rfl rfl rfl
    · exact funext fun j => vmodify_field_same p.ext.latches k (field := Latch.isSet) rfl j
    · funext o
      cases o with
      | slot m => simp [Part.tracking, Ext.tracking, Part.markOwed, Part.onLatch]
      | latch j =>
        refine (vmodify_field p.ext.latches k _ Latch.urgentOwed j).trans ?_
        simp [Function.update_apply, Part.tracking, Ext.tracking]

/-- URGENT_SENT leaves a slot standing as it was. -/
@[simp] theorem Part.markSent_tracking (o : Owner) : (p.markSent o).tracking = p.tracking := by
  have hsent : ∀ h : SlotHold, h.markUrgentSent.standing = h.standing := fun h => by cases h <;> rfl
  cases o with
  | slot n =>
    refine Tracking.ext ?_ rfl rfl rfl ?_ rfl rfl rfl rfl rfl
    · exact funext fun m => vmodify_field_same p.ext.slots n (field := fun y => y.hold.standing) (hsent _) m
    · funext o
      cases o with
      | slot m => exact vmodify_field_same p.ext.slots n (field := Slot.urgentOwed) rfl m
      | latch k => rfl
  | latch k => rfl

end

/-! ### Urgent notices (R147, R148) -/

section
variable {p : Part}

theorem Part.sendUrgent_tracking (p : Part) (o : Owner) (u : UrgentNotice) : (p.sendUrgent o u).tracking = p.tracking :=
  Part.markSent_tracking _ o

/-- A notice replaced leaves the owners of the owed notices (R147). -/
theorem replaceOwed_owners (o : Owner) (u : UrgentNotice) (l : List Owed) :
    (replaceOwed o u l).map Owed.owner = l.map Owed.owner := by
  rw [replaceOwed, List.map_map]
  refine List.map_congr_left fun x _ => ?_
  by_cases h : x.owner = o <;> simp [h]

/-- A notice that becomes due is sent, replaced in its place, or owed with its owner marked. -/
theorem Part.urgentDue_consistent (h : p.tracking.Consistent) (o : Owner) (u : UrgentNotice) :
    (p.urgentDue o u).tracking.Consistent := by
  unfold Part.urgentDue
  split
  · rwa [Part.sendUrgent_tracking]
  · split
    · have hsame : ((p.withExt { p.ext with owed := replaceOwed o u p.ext.owed }).bump .owedReplacements).tracking =
          { p.tracking with owners := (replaceOwed o u p.ext.owed).map Owed.owner } := rfl
      rw [hsame, replaceOwed_owners]
      exact h
    · rename_i hnone
      have howners : (p.ext.owed ++ [(⟨o, u⟩ : Owed)]).map Owed.owner = p.tracking.owners ++ [o] := List.map_append
      have hnew : o ∉ p.tracking.owners := by
        intro hmem
        obtain ⟨y, hy, rfl⟩ := List.mem_map.1 hmem
        exact hnone (List.any_eq_true.2 ⟨y, hy, beq_self_eq_true _⟩)
      rw [Part.bump_tracking, Part.markOwed_tracking]
      have hafter := h.owing hnew
      rw [← howners] at hafter
      exact hafter

/-- Owed notices moved into free control entries, oldest first (R148). -/
theorem Part.moveOwedList_consistent (l : List Owed) :
    ∀ {p : Part}, p.tracking.Consistent → p.tracking.owners = l.map Owed.owner → (p.moveOwedList l).tracking.Consistent := by
  induction l with
  | nil => exact fun h _ => h
  | cons x xs ih =>
    intro p h hl
    have hstep : (((p.withExt { p.ext with owed := xs }).markOwed x.owner false).sendUrgent x.owner x.notice).tracking =
        { p.tracking with owners := xs.map Owed.owner, owes := Function.update p.tracking.owes x.owner false } := by
      rw [Part.sendUrgent_tracking, Part.markOwed_tracking]
      rfl
    unfold Part.moveOwedList
    split
    · refine ih ?_ (congrArg Tracking.owners hstep)
      rw [hstep]
      exact h.paid hl
    · exact h

theorem Part.moveOwed_consistent (h : p.tracking.Consistent) : p.moveOwed.tracking.Consistent :=
  Part.moveOwedList_consistent _ h rfl

/-! ### Finalisation and cuts (R137, R140 to R143) -/

theorem Part.placeReport_tracking (p : Part) (n : SlotNo) (ex : Exceedance) (r : Report) :
    (p.placeReport n ex r).tracking = { p.tracking.stand n .free with xrLength := p.tracking.xrLength + 1 } := by
  rw [Part.placeReport, Part.bump_tracking, Part.setHold_tracking]
  exact congrArg (fun len => { p.tracking.stand n .free with xrLength := len }) List.length_append

theorem Part.holdReport_tracking (p : Part) (n : SlotNo) (ex : Exceedance) (r : Report) :
    (p.holdReport n ex r).tracking =
      { p.tracking.stand n .pending with pendingList := p.tracking.pendingList ++ [n] } := by
  exact congrArg (fun x => { x with pendingList := p.tracking.pendingList ++ [n] }) (p.setHold_tracking n (.pending ex r))

/-- What a finalisation makes of its slot: free, free with a report in the XR queue, or PENDING where the XR queue is full. -/
theorem Part.finaliseEx_tracking (p : Part) (n : SlotNo) (ex : Exceedance) (c : Option CutFlag) :
    (∃ len, p.tracking.xrLength ≤ len ∧ (p.finaliseEx n ex c).tracking = { p.tracking.stand n .free with xrLength := len }) ∨
      (32 ≤ p.tracking.xrLength ∧ (p.finaliseEx n ex c).tracking =
        { p.tracking.stand n .pending with pendingList := p.tracking.pendingList ++ [n] }) := by
  unfold Part.finaliseEx
  dsimp only
  split
  · exact .inl ⟨_, Nat.le_refl _, (Part.bump_tracking _ _).trans (p.setHold_tracking n .free)⟩
  · split
    · exact .inl ⟨_, Nat.le_succ _, p.placeReport_tracking n _ _⟩
    · rename_i hfull
      exact .inr ⟨Nat.not_lt.1 hfull, p.holdReport_tracking n _ _⟩

/-- An active slot finalised. -/
theorem Part.finaliseEx_consistent (h : p.tracking.Consistent) {n : SlotNo} (hn : p.tracking.Active n) (ex : Exceedance)
    (c : Option CutFlag) : (p.finaliseEx n ex c).tracking.Consistent := by
  obtain ⟨len, hlen, he⟩ | ⟨hfull, he⟩ := p.finaliseEx_tracking n ex c
  · rw [he]
    exact h.freed hn hlen
  · rw [he]
    exact h.waits hn hfull

/-- A finalisation leaves its own slot inactive and the others as they stood. -/
theorem Part.active_of_finaliseEx {n m : SlotNo} {ex : Exceedance} {c : Option CutFlag}
    (hm : (p.finaliseEx n ex c).tracking.Active m) : m ≠ n ∧ p.tracking.Active m := by
  have hstands : ∀ s : Standing, (∀ q t, s ≠ .active q t) → (p.tracking.stand n s).Active m → m ≠ n ∧ p.tracking.Active m := by
    rintro s hs ⟨q, t, hq⟩
    by_cases hmn : m = n
    · rw [hmn, Tracking.stand_self] at hq
      exact absurd hq (hs q t)
    · exact ⟨hmn, q, t, (Tracking.stand_of_ne _ hmn _).symm.trans hq⟩
  obtain ⟨_, _, he⟩ | ⟨_, he⟩ := p.finaliseEx_tracking n ex c
  · rw [he] at hm
    exact hstands .free (by simp) hm
  · rw [he] at hm
    exact hstands .pending (by simp) hm

/-- A slot that holds an active exceedance stands active. -/
theorem Part.standing_of_hold {n : SlotNo} {ph : SlotPhase} {ex : Exceedance} (h : (p.ext.slots[n]).hold = .active ph ex) :
    p.tracking.standing n = .active ex.param ex.polarity := congrArg SlotHold.standing h

/-- A content that stands active is an exceedance in an active state. -/
theorem SlotHold.active_of_standing {x : SlotHold} {q : Param} {t : Polarity} (h : x.standing = .active q t) :
    ∃ ph ex, x = .active ph ex := by
  cases x with
  | active ph ex => exact ⟨ph, ex, rfl⟩
  | free => cases h
  | pending ex r => cases h

theorem Part.cutSlot_consistent (h : p.tracking.Consistent) (c : CutFlag) (n : SlotNo) :
    (p.cutSlot c n).tracking.Consistent := by
  unfold Part.cutSlot
  split
  · rename_i hn
    exact Part.finaliseEx_consistent h ⟨_, _, Part.standing_of_hold hn⟩ _ _
  · exact h

theorem Part.active_of_cutSlot {c : CutFlag} {n m : SlotNo} (hm : (p.cutSlot c n).tracking.Active m) :
    m ≠ n ∧ p.tracking.Active m := by
  unfold Part.cutSlot at hm
  split at hm
  · exact Part.active_of_finaliseEx hm
  · rename_i hn
    refine ⟨?_, hm⟩
    rintro rfl
    obtain ⟨q, t, hq⟩ := hm
    obtain ⟨ph, ex, hs⟩ := SlotHold.active_of_standing hq
    exact hn ph ex hs

/-- The slots of a list cut one after another: consistent, and active no more. -/
theorem Part.foldl_cutSlot_consistent (c : CutFlag) (l : List SlotNo) :
    ∀ {p : Part}, p.tracking.Consistent → (l.foldl (fun q n => q.cutSlot c n) p).tracking.Consistent := by
  induction l with
  | nil => exact id
  | cons n l ih => exact fun h => ih (Part.cutSlot_consistent h c n)

theorem Part.active_of_foldl_cutSlot {c : CutFlag} {m : SlotNo} (l : List SlotNo) :
    ∀ {p : Part}, (l.foldl (fun q n => q.cutSlot c n) p).tracking.Active m → m ∉ l ∧ p.tracking.Active m := by
  induction l with
  | nil => exact fun hm => ⟨List.not_mem_nil, hm⟩
  | cons n l ih =>
    intro p hm
    obtain ⟨hrest, hcut⟩ := ih hm
    obtain ⟨hne, hactive⟩ := Part.active_of_cutSlot hcut
    exact ⟨by simp [hne, hrest], hactive⟩

theorem Part.cut_tracking (p : Part) (c : CutFlag) : (p.cut c).tracking =
    { (p.ext.activeInOrder.foldl (fun q n => q.cutSlot c n) p).tracking with latched := fun _ => false } := by
  rw [Part.cut, Part.bump_tracking, Part.clearLatches_tracking]

/-- A cut (R137). -/
theorem Part.cut_consistent (h : p.tracking.Consistent) (c : CutFlag) : (p.cut c).tracking.Consistent := by
  rw [Part.cut_tracking]
  exact (Part.foldl_cutSlot_consistent c _ h).unlatched (by simp)

/-- A cut leaves no slot active and no latch set (R137). -/
theorem Part.cut_quiet (p : Part) (c : CutFlag) :
    (∀ n, ¬ (p.cut c).tracking.Active n) ∧ ∀ k, (p.cut c).tracking.latched k = false := by
  rw [Part.cut_tracking]
  refine ⟨fun n hn => ?_, fun _ => rfl⟩
  obtain ⟨hnot, hactive⟩ := Part.active_of_foldl_cutSlot p.ext.activeInOrder (p := p) hn
  exact hnot ((p.openingOrder_activeInOrder.2.1 n).2 ((p.active_iff n).1 hactive))

/-! ### Judging a record (R127 to R136) -/

/-- A slot that takes an inside record goes on active for its pair, or is finalised (R132). -/
theorem Part.insideStep_consistent (h : p.tracking.Consistent) {n : SlotNo} {ex : Exceedance}
    (hn : p.tracking.standing n = .active ex.param ex.polarity) (c : Nat) :
    (p.insideStep n ex c).tracking.Consistent := by
  unfold Part.insideStep
  split_ifs
  · rwa [Part.setHold_tracking_same _ hn]
  · exact Part.finaliseEx_consistent h ⟨_, _, hn⟩ _ _
  · rwa [Part.setHold_tracking_same _ hn]

/-- A HELD slot that no record merges goes on HELD, or is finalised (R133). -/
theorem Part.heldStep_consistent (h : p.tracking.Consistent) {n : SlotNo} {ex : Exceedance}
    (hn : p.tracking.standing n = .active ex.param ex.polarity) : (p.heldStep n ex).tracking.Consistent := by
  unfold Part.heldStep
  dsimp only
  split
  · exact Part.finaliseEx_consistent h ⟨_, _, hn⟩ _ _
  · rwa [Part.setHold_tracking_same _ hn]

/-- A contributing record leaves its slot active for its pair (R131). -/
theorem Part.contributeTo_consistent (h : p.tracking.Consistent) {n : SlotNo} {ex : Exceedance}
    (hn : p.tracking.standing n = .active ex.param ex.polarity) (k : Pair) (r : Emitted) (v : Int) (g : Nat) :
    (p.contributeTo n k ex r v g).tracking.Consistent := by
  have hput : (p.setHold n (.active .opened (ex.contribute r v g))).tracking.Consistent := by
    rwa [Part.setHold_tracking_same _ hn]
  unfold Part.contributeTo
  dsimp only
  split
  · exact Part.urgentDue_consistent hput _ _
  · exact hput

theorem Part.slotTakes_consistent (h : p.tracking.Consistent) {n : SlotNo} {ph : SlotPhase} {ex : Exceedance}
    (hn : (p.ext.slots[n]).hold = .active ph ex) (k : Pair) (r : Emitted) :
    (p.slotTakes n k ph ex r).tracking.Consistent := by
  have hstanding := Part.standing_of_hold hn
  unfold Part.slotTakes
  split
  · exact Part.finaliseEx_consistent h ⟨_, _, hstanding⟩ _ _
  · cases ph with
    | opened =>
      dsimp only
      split
      · exact Part.insideStep_consistent h hstanding _
      · exact Part.contributeTo_consistent h hstanding _ _ _ _
    | closing =>
      dsimp only
      split
      · exact Part.insideStep_consistent h hstanding _
      · exact Part.contributeTo_consistent h (by exact hstanding) _ _ _ _
    | held =>
      dsimp only
      split
      · exact Part.contributeTo_consistent h (by exact hstanding) _ _ _ _
      · exact Part.heldStep_consistent h hstanding

/-- A latch changed in its urgent raised mark alone leaves the tracking. -/
theorem Part.raisedLatch_tracking (p : Part) (k : Pair) :
    (p.onLatch k (fun l => { l with urgentRaised := true })).tracking = p.tracking := by
  rw [p.onLatch_tracking k (f := fun l => { l with urgentRaised := true }) fun _ => rfl]
  exact congrArg (fun f => { p.tracking with latched := f }) (Function.update_eq_self k p.tracking.latched)

theorem Part.latchOut_consistent (h : p.tracking.Consistent) (k : Pair) (r : Emitted) (v : Int) (g : Nat) :
    (p.latchOut k r v g).tracking.Consistent := by
  unfold Part.latchOut
  split
  · exact Part.urgentDue_consistent (by rwa [Part.raisedLatch_tracking]) _ _
  · exact h

/-- A latch cleared (R135). -/
theorem Part.clearedLatch_consistent (h : p.tracking.Consistent) (k : Pair) :
    (p.onLatch k Latch.cleared).tracking.Consistent := by
  rw [p.onLatch_tracking k (f := Latch.cleared) fun _ => rfl]
  refine h.unlatched fun j hj => ?_
  by_cases hjk : j = k
  · subst hjk
    simp [Latch.cleared] at hj
  · rwa [Function.update_of_ne hjk] at hj

theorem Part.latchTakes_consistent (h : p.tracking.Consistent) (k : Pair) (r : Emitted) :
    (p.latchTakes k r).1.tracking.Consistent := by
  unfold Part.latchTakes
  split
  · exact Part.clearedLatch_consistent h k
  · split_ifs
    · exact Part.latchOut_consistent h k r _ _
    · exact Part.clearedLatch_consistent h k
    · exact h

/-- A slot opened for a pair that has neither a slot nor its latch (R129). -/
theorem Part.openSlot_consistent (h : p.tracking.Consistent) (hr : p.tracking.recording = true) {n : SlotNo} {k : Pair}
    (hn : (p.ext.slots[n]).available = true) (hnone : ∀ m, ¬ p.tracking.Holds m k) (hlatch : p.tracking.latched k = false)
    (r : Emitted) (v : Int) (g : Nat) : (p.openSlot n k r v g).tracking.Consistent := by
  obtain ⟨hfree, hunmarked⟩ : (p.ext.slots[n]).hold = .free ∧ (p.ext.slots[n]).urgentOwed = false := by
    simpa [Slot.available] using hn
  have hopen := p.setSlot_tracking (.active .opened (r.opening k p.ext.nextSerial v g)) hunmarked
  have hafter := h.opened hr (congrArg SlotHold.standing hfree) hnone hlatch
  have hput : (((p.setSlot n ⟨.active .opened (r.opening k p.ext.nextSerial v g), false⟩).withExt
      { (p.setSlot n ⟨.active .opened (r.opening k p.ext.nextSerial v g), false⟩).ext with
        nextSerial := nextSerialAfter p.ext.nextSerial }).bump .opened).tracking.Consistent :=
    hopen.symm ▸ hafter
  unfold Part.openSlot
  dsimp only
  split
  · exact Part.urgentDue_consistent hput _ _
  · exact hput

/-- The latch of a pair without a slot set, where no slot can be had (R130). -/
theorem Part.setLatch_consistent (h : p.tracking.Consistent) (hr : p.tracking.recording = true) {k : Pair}
    (hnone : ∀ m, ¬ p.tracking.Holds m k) (r : Emitted) (v : Int) (g : Nat) :
    (p.setLatch k r v g).tracking.Consistent := by
  unfold Part.setLatch
  apply Part.latchOut_consistent
  rw [Part.raise_tracking, Part.bump_tracking,
    p.onLatch_tracking k (f := fun l => { l with isSet := true, urgentRaised := false }) fun _ => rfl]
  exact h.latchSet hr hnone

/-- The slot found for an opening is available (R129). -/
theorem Part.available_of_availableSlot {n : SlotNo} (h : p.availableSlot = some n) : (p.ext.slots[n]).available = true :=
  List.find?_some (p := fun n : SlotNo => (p.ext.slots[n]).available) h

theorem Part.mayOpen_consistent (h : p.tracking.Consistent) (hr : p.tracking.recording = true) {k : Pair}
    (hnone : ∀ m, ¬ p.tracking.Holds m k) (hlatch : p.tracking.latched k = false) (r : Emitted) :
    (p.mayOpen k r).1.tracking.Consistent := by
  unfold Part.mayOpen
  split
  · exact h
  · split
    · split
      · rename_i hn
        exact Part.openSlot_consistent h hr (Part.available_of_availableSlot hn) hnone hlatch r _ _
      · exact Part.setLatch_consistent h hr hnone r _ _
    · exact h

/-- A pair without an active slot. -/
theorem Part.not_holds_of_activeSlot_none {k : Pair} (h : p.activeSlot k = none) (m : SlotNo) : ¬ p.tracking.Holds m k := by
  rw [p.holds_iff]
  exact List.find?_eq_none.1 h m (List.mem_finRange m)

theorem Part.judgePair_consistent (h : p.tracking.Consistent) (hr : p.tracking.recording = true) (k : Pair) (r : Emitted) :
    (p.judgePair k r).1.tracking.Consistent := by
  unfold Part.judgePair
  split
  · split
    · rename_i hn
      exact Part.slotTakes_consistent h hn k r
    · exact h
  · rename_i hnone
    split
    · exact Part.latchTakes_consistent h k r
    · rename_i hlatch
      exact Part.mayOpen_consistent h hr (Part.not_holds_of_activeSlot_none hnone) (Bool.eq_false_iff.2 hlatch) r

theorem Part.judgePairs_consistent (r : Emitted) (ks : List Pair) :
    ∀ {p : Part}, p.tracking.Consistent → p.tracking.recording = true → (p.judgePairs r ks).1.tracking.Consistent := by
  induction ks with
  | nil => exact fun h _ => h
  | cons k ks ih =>
    intro p h hr
    exact ih (Part.judgePair_consistent h hr k r) (by simpa [Part.tracking_recording] using hr)

/-- All pairs take a record that is made within a run (R127). -/
theorem Part.judge_consistent (h : p.tracking.Consistent) (hr : p.tracking.recording = true) (r : Emitted) :
    (p.judge r).1.tracking.Consistent := Part.judgePairs_consistent r _ h hr

end

/-! ### Emission, flush and capture (R85 to R88, R95 to R98) -/

section
variable {p : Part}

theorem Part.withTru_tracking (p : Part) (t : Tru) : (p.withTru t).tracking =
    { p.tracking with window := t.window, nextEmit := t.nextEmit, segStart := t.segStart } := rfl

/-- An emission within a run (R95, R97). -/
theorem Part.emit_consistent (h : p.tracking.Consistent) (hr : p.tracking.recording = true) (e : TraceEntry) :
    (p.emit e).tracking.Consistent ∧ (p.emit e).tracking.recording = true := by
  refine ⟨?_, by simpa [Part.tracking_recording] using hr⟩
  have hjudged : ((p.bumpBy .parameterSaturations ((p.deriveAll e).toList.countP Derived.limited)).judge
      (p.emitted e)).1.tracking.Consistent :=
    Part.judge_consistent (by rwa [Part.bumpBy_tracking]) (by rwa [Part.bumpBy_tracking]) _
  unfold Part.emit
  rw [Part.bump_tracking, Part.withTru_tracking, Part.offerGr_tracking]
  exact hjudged.traced (by simpa [Part.tracking_recording] using hr) _ _ _

theorem Part.foldl_emit_consistent (l : List TraceEntry) :
    ∀ {p : Part}, p.tracking.Consistent → p.tracking.recording = true → (l.foldl Part.emit p).tracking.Consistent := by
  induction l with
  | nil => exact fun h _ => h
  | cons e l ih =>
    intro p h hr
    obtain ⟨hemit, hrec⟩ := Part.emit_consistent h hr e
    rw [List.foldl_cons]
    exact ih hemit hrec

/-- Outside a run nothing waits to be emitted. -/
theorem Part.waiting_of_not_recording (h : p.tracking.Consistent) (hr : p.tracking.recording = false) :
    p.tru.waiting = [] := by
  have hnext : p.tru.nextEmit = none := (h.untraced hr).2.1
  rw [Tru.waiting, hnext]

/-- A flush (R98). -/
theorem Part.flush_consistent (h : p.tracking.Consistent) : p.flush.tracking.Consistent := by
  have hemitted : (p.tru.waiting.foldl Part.emit p).tracking.Consistent := by
    cases hr : p.tracking.recording with
    | true => exact Part.foldl_emit_consistent _ h hr
    | false =>
      rw [Part.waiting_of_not_recording h hr]
      exact h
  exact hemitted.emptied

/-- A capture within a run with the emission that it causes (R85, R87, R88). -/
theorem Part.capture_consistent (h : p.tracking.Consistent) (hr : p.tracking.recording = true) (t : TickData) :
    (p.capture t).tracking.Consistent := by
  have hentry : (p.captureEntry t).tracking.Consistent := h.traced hr _ _ _
  have hrec : (p.captureEntry t).tracking.recording = true := hr
  unfold Part.capture Part.emitNext
  split
  · obtain ⟨hemit, hafter⟩ := Part.emit_consistent hentry hrec _
    rw [Part.retain, Part.withTru_tracking]
    exact hemit.traced hafter _ _ _
  · exact hentry

/-! ### Run control (R152 to R162) -/

theorem Part.startParkTimer_tracking (p : Part) (t : Time) : (p.startParkTimer t).tracking = p.tracking := rfl

/-- What Run Control does at a tick: a run in ARMED or PARKED goes on in MEASURING. -/
theorem Part.runTick_consistent (h : p.tracking.Consistent) (t : Time) : (p.runTick t).tracking.Consistent := by
  unfold Part.runTick
  split
  · exact h
  · exact h.recorded
  · exact h
  · rw [Part.startParkTimer_tracking, Part.freshWatchdogs, Part.withHlu_tracking, Part.raise_tracking]
    exact h.recorded

theorem Part.parkEvent_consistent (h : p.tracking.Consistent) : p.parkEvent.tracking.Consistent := by
  have hparked : p.enterParked.tracking = { p.tracking with recording := true } := by
    rw [Part.enterParked, Part.emptySpeed, Part.withOdu_tracking, Part.stopWatchdogs, Part.withHlu_tracking,
      Part.raise_tracking, Part.bump_tracking]
    rfl
  unfold Part.parkEvent
  split
  · rw [hparked]
    exact h.recorded
  · exact h

/-- The beginning of a run in HALTED: ARMED makes no records yet (R153). -/
theorem Part.beginRun_tracking (n : BitVec 16) (h : p.rnc.runState = .halted) : (p.beginRun n).tracking = p.tracking := by
  have hext : (p.beginRun n).ext = p.ext := by simp
  have hxr : (p.beginRun n).rlu.xr = p.rlu.xr := rfl
  have hrecording : (p.beginRun n).rnc.runState.recording = p.rnc.runState.recording := by
    rw [h]
    rfl
  have hwindow : (p.beginRun n).tru.window = p.tru.window := rfl
  have hnext : (p.beginRun n).tru.nextEmit = p.tru.nextEmit := rfl
  have hstart : (p.beginRun n).tru.segStart = p.tru.segStart := rfl
  simp only [Part.tracking, Ext.tracking, hext, hxr, hrecording, hwindow, hnext, hstart]

/-- The halt of a run (R161). -/
theorem Part.haltRun_tracking (p : Part) : p.haltRun.tracking = { p.tracking with recording := false } := by
  unfold Part.haltRun
  dsimp only
  split
  · exact (Part.withHlu_tracking _ _).trans (Part.raise_tracking _ _)
  · rfl

/-- The end of a run: all that waits emitted, every active slot finalised, every latch cleared (R161). -/
theorem Part.endRun_consistent (h : p.tracking.Consistent) : p.endRun.tracking.Consistent := by
  unfold Part.endRun
  split
  · exact h
  · obtain ⟨hactive, hlatched⟩ := p.flush.cut_quiet .stop
    have htrace : (p.flush.cut .stop).tracking.Untraced := by
      have htru : (p.flush.cut .stop).tru = p.flush.tru := by simp
      exact ⟨congrArg Tru.window htru, congrArg Tru.nextEmit htru, congrArg Tru.segStart htru⟩
    rw [Part.haltRun_tracking]
    exact (Part.cut_consistent (Part.flush_consistent h) .stop).halted htrace hactive hlatched

/-! ### Ticks, reversals and the slots' own events -/

theorem Part.tickOnce_consistent (h : p.tracking.Consistent) (found : Bool) : (p.tickOnce found).tracking.Consistent := by
  have hrun : (((p.speedTick (p.tickData found)).bump .ticks).runTick (p.tickData found).time).tracking.Consistent :=
    Part.runTick_consistent (by simpa using h) _
  unfold Part.tickOnce Part.deliverTick
  dsimp only
  split
  · rename_i hm
    refine Part.capture_consistent (by simpa using hrun) ?_ _
    rw [Part.tracking_recording, hm]
    rfl
  · simpa using hrun

theorem Part.switchTicks_consistent (found : Bool) (n : Nat) :
    ∀ {p : Part}, p.tracking.Consistent → (p.switchTicks found n).tracking.Consistent := by
  induction n with
  | zero => exact id
  | succ n ih =>
    intro p h
    unfold Part.switchTicks
    split
    · exact ih (Part.tickOnce_consistent (p := p.nextBoundary) h found)
    · exact h

theorem Part.tickEvent_consistent (h : p.tracking.Consistent) : p.tickEvent.tracking.Consistent := by
  have hcompared : p.nextBoundary.comparison.1.tracking.Consistent := by
    rw [Part.comparison_tracking]
    exact h
  unfold Part.tickEvent
  split
  · exact Part.switchTicks_consistent _ _ (Part.tickOnce_consistent hcompared _)
  · exact h

theorem Part.watchEvent_consistent (h : p.tracking.Consistent) : p.watchEvent.tracking.Consistent := by
  have hcompared : (p.comparison.1.carrySlip p.comparison.2).tracking.Consistent := by
    rw [Part.carrySlip, Part.withOdu_tracking, Part.comparison_tracking]
    exact h
  unfold Part.watchEvent
  split
  · exact Part.switchTicks_consistent _ _ hcompared
  · exact h

theorem Part.reversalEvent_consistent (h : p.tracking.Consistent) : p.reversalEvent.tracking.Consistent := by
  have hflush : ∀ {q : Part}, q.tracking.Consistent → q.reversalFlush.tracking.Consistent := fun {q} hq => by
    unfold Part.reversalFlush
    split
    · exact Part.flush_consistent hq
    · exact Part.flush_consistent hq
    · exact hq
  have hlost : ∀ q : Part, q.loseLists.tracking = q.tracking := fun q => by simp [Part.tracking]
  unfold Part.reversalEvent
  split
  · exact Part.cut_consistent (hflush (by simpa [hlost] using h)) _
  · exact h

/-- An encoder step, the motion events that are due taken first. -/
theorem Part.encoderStep_consistent (h : p.tracking.Consistent) (c : Encoder) (a b : Bool) :
    (p.settleMotion.phaseChange c a b).tracking.Consistent := by
  rw [Part.phaseChange_tracking]
  exact Part.watchEvent_consistent (Part.tickEvent_consistent (Part.reversalEvent_consistent h))

theorem Part.closeEvent_consistent (h : p.tracking.Consistent) (n : SlotNo) : (p.closeEvent n).tracking.Consistent := by
  unfold Part.closeEvent
  split
  · rename_i hn
    split_ifs
    · exact h
    · exact Part.insideStep_consistent h (Part.standing_of_hold hn) _
    · exact h
  · exact h

theorem Part.gapEvent_consistent (h : p.tracking.Consistent) (n : SlotNo) : (p.gapEvent n).tracking.Consistent := by
  unfold Part.gapEvent
  split
  · rename_i hn
    split_ifs
    · exact h
    · exact Part.heldStep_consistent h (Part.standing_of_hold hn)
    · exact h
  · exact h

/-! ### The leaving of a frame (R143, R170) -/

/-- A content that stands PENDING waits with its report. -/
theorem SlotHold.pending_of_standing {x : SlotHold} (h : x.standing = .pending) : ∃ ex r, x = .pending ex r := by
  cases x with
  | pending ex r => exact ⟨ex, r, rfl⟩
  | free => cases h
  | active ph ex => cases h

/-- With nothing pending no report is promoted. -/
theorem Part.promotePending_nil (h : p.ext.pendingList = []) : p.promotePending = p := by
  rw [Part.promotePending, h]

/-- The head of the pending list promoted (R143). -/
theorem Part.promotePending_cons {n : SlotNo} {rest : List SlotNo} {ex : Exceedance} {r : Report}
    (hl : p.ext.pendingList = n :: rest) (hn : (p.ext.slots[n]).hold = .pending ex r) :
    p.promotePending = (p.withExt { p.ext with pendingList := rest }).placeReport n ex r := by
  unfold Part.promotePending
  simp only [hl]
  rw [hn]

/-- A promotion frees the slot at the head of the pending list, its report in the XR queue (R143). -/
theorem Part.promotePending_tracking {n : SlotNo} {rest : List SlotNo} (hl : p.tracking.pendingList = n :: rest)
    (hn : p.tracking.standing n = .pending) : p.promotePending.tracking =
      { p.tracking.stand n .free with pendingList := rest, xrLength := p.tracking.xrLength + 1 } := by
  obtain ⟨ex, r, hhold⟩ := SlotHold.pending_of_standing hn
  rw [Part.promotePending_cons hl hhold, Part.placeReport_tracking]
  rfl

/-- An XR has left its queue: the head of the pending list, if there is one, takes its place (R143). -/
theorem Part.xrLeft_consistent (h : p.tracking.Consistent) :
    ((p.withRlu { p.rlu with xr := p.rlu.xr.drop 1 }).promotePending).tracking.Consistent := by
  cases hl : p.tracking.pendingList with
  | nil =>
    rw [Part.promotePending_nil (p := p.withRlu { p.rlu with xr := p.rlu.xr.drop 1 }) hl]
    exact h.resized hl (p.rlu.xr.drop 1).length
  | cons n rest =>
    have hfull : 32 ≤ p.rlu.xr.length := h.pendingFull (by simp [hl])
    have hlen : (p.rlu.xr.drop 1).length + 1 = p.tracking.xrLength := by
      rw [List.length_drop]
      exact Nat.sub_add_cancel (Nat.le_trans (by decide) hfull)
    have hn : p.tracking.standing n = .pending := (h.pendingListed n).1 (by simp [hl])
    rw [Part.promotePending_tracking (p := p.withRlu { p.rlu with xr := p.rlu.xr.drop 1 }) hl hn]
    show Tracking.Consistent { p.tracking.stand n .free with pendingList := rest, xrLength := (p.rlu.xr.drop 1).length + 1 }
    rw [hlen]
    exact h.promoted hl

theorem Part.leavingWith_consistent (h : p.tracking.Consistent) (owedFirst : Bool) :
    (p.leavingWith owedFirst).tracking.Consistent := by
  have hleft : p.leavingEvent.tracking.Consistent := by
    unfold Part.leavingEvent
    split
    · exact h
    · rename_i t _
      dsimp only
      split
      · exact h
      · unfold Part.leaveQueue
        cases t.queue with
        | xr => exact Part.xrLeft_consistent (p := p.withRlu { p.rlu with tx := none }) h
        | control => exact h
        | gr => exact h
        | mirror => exact h
  unfold Part.leavingWith
  split
  · exact hleft
  · exact Part.moveOwed_consistent hleft

end

/-! ### Resets -/

/-- A reset leaves nothing tracked. -/
theorem reset_consistent : (Ext.reset.tracking [] .halted Tru.reset).Consistent := by
  have hfree : ∀ n, (Ext.reset.tracking [] .halted Tru.reset).standing n = .free := fun n => by
    simp [Ext.tracking, Ext.reset]
    rfl
  have hlatch : ∀ k, (Ext.reset.tracking [] .halted Tru.reset).latched k = false := fun k => by
    simp [Ext.tracking, Ext.reset, Latch.reset]
  have howes : ∀ o, (Ext.reset.tracking [] .halted Tru.reset).owes o = false := fun o => by
    cases o <;> simp [Ext.tracking, Ext.reset, Latch.reset, Slot.reset]
  have hactive : ∀ n, ¬ (Ext.reset.tracking [] .halted Tru.reset).Active n := by simp [Tracking.Active, hfree]
  exact {
    oneSlot := fun k m n hm => absurd ⟨_, _, hm⟩ (hactive m)
    latchAlone := fun k hk => by simp [hlatch] at hk
    pendingOnce := .nil
    pendingListed := fun n => (iff_of_false List.not_mem_nil (by simp [hfree]))
    pendingFull := fun hne => absurd rfl hne
    owedOnce := .nil
    owedMarked := fun o => iff_of_false List.not_mem_nil (by simp [howes])
    untraced := fun _ => ⟨rfl, rfl, rfl⟩
    noneActive := fun _ => hactive
    noneLatched := fun _ => hlatch }

theorem Part.hardReset_consistent (p : Part) (held : Bool) : (p.hardReset held).tracking.Consistent := reset_consistent

theorem Part.restarted_consistent (p : Part) : p.restarted.tracking.Consistent := reset_consistent

theorem Part.resetBy_consistent {p : Part} (h : p.tracking.Consistent) (c : ResetCause) :
    (p.resetBy c).tracking.Consistent := by
  cases c with
  | powerOn => exact p.hardReset_consistent false
  | heldLow => exact p.hardReset_consistent true
  | pulse ns =>
    unfold Part.resetBy
    dsimp only
    split
    · exact p.hardReset_consistent false
    · exact h

/-! ### Orders -/

/-- What every order does around its owner keeps a property of the part: the taking, the refusal of a wrong length, the reply. -/
structure KeptAroundOrders (Inv : Part → Prop) : Prop where
  taken : ∀ {p}, Inv p → Inv p.taken
  bumped : ∀ {p} c, Inv p → Inv (p.bump c)
  replied : ∀ {p} f, Inv p → Inv (p.fillReservation f)

section
variable {Inv : Part → Prop} {p : Part}

/-- An order row keeps what its order keeps. -/
theorem KeptAroundOrders.orderRow (hinv : KeptAroundOrders Inv) (h : Inv p) (code : Nat) (sel : List Byte → Bool)
    {carry : Part → List Byte → Part} (hcarry : ∀ {q} body, Inv q → Inv (carry q body)) :
    Inv (p.orderRow code sel carry) := by
  unfold Part.orderRow
  split
  · split
    · unfold Part.carryOut
      split
      · exact hcarry _ (hinv.taken h)
      · exact hinv.replied _ (hinv.bumped _ (hinv.taken h))
    · exact h
  · exact h

/-- An order row answered within its taking keeps what its owner keeps. -/
theorem KeptAroundOrders.answered (hinv : KeptAroundOrders Inv) (h : Inv p) (code : Nat) (sel : List Byte → Bool)
    {owner : Part → List Byte → Answer} (howner : ∀ {q} ps, Inv q → Inv (owner q ps).part) :
    Inv (p.orderRow code sel (answered owner)) :=
  hinv.orderRow h code sel fun _ hq => hinv.replied _ (howner _ hq)

/-- An order whose code names none keeps what the taking and the reply keep. -/
theorem KeptAroundOrders.unknownRow (hinv : KeptAroundOrders Inv) (h : Inv p) : Inv p.unknownRow := by
  unfold Part.unknownRow
  split
  · split
    · exact hinv.replied _ (hinv.bumped _ (hinv.taken h))
    · exact h
  · exact h

/-- A command keeps what its effect and the moving of owed notices keep (R148). -/
theorem live_keeps {s t : State} {f : Part → Part} (hmoved : ∀ {q}, Inv q → Inv q.moveOwed) (h : Inv s.part)
    (hf : Inv (f s.part)) (ht : live s f = .next t) : Inv t.part := by
  unfold live unheld at ht
  split at ht
  · cases ht
    exact h
  · cases ht
    exact hmoved hf

/-- A step keeps what every command, the moving of owed notices and the passing of time keep. -/
theorem stepKeeps_of_exec (hexec : ∀ i s t, Inv s.part → exec i s = .next t → Inv t.part)
    (hmoved : ∀ {q}, Inv q → Inv q.moveOwed) (helapse : ∀ {q}, Inv q → Inv q.elapse) : StepKeeps Inv := by
  intro s t h ht
  cases hs : s.pending with
  | cons c rest =>
    rw [step_cons s c rest hs] at ht
    exact hexec c { s with pending := rest } t h ht
  | nil =>
    rw [step_nil s hs, idle] at ht
    split_ifs at ht
    · cases ht
      exact h
    · cases ht
      exact hmoved h
    · split at ht
      · exact hexec _ s t h ht
      · cases ht
        exact helapse h

end

/-- Consistency is kept around every order. -/
theorem keptAroundOrders_consistent : KeptAroundOrders fun p => p.tracking.Consistent :=
  ⟨fun h => h, fun _ h => h, fun _ h => h⟩

/-- An owner that leaves the tracking. -/
def LeavesTracking (owner : Part → List Byte → Answer) : Prop := ∀ p ps, (owner p ps).part.tracking = p.tracking

theorem setOrder_leavesTracking : LeavesTracking Part.setOrder := by
  intro p ps
  have hwrite : ∀ n a, (p.withSettings (p.oru.settings.write n a (fieldNat ps 2 4))).tracking = p.tracking :=
    fun _ _ => rfl
  have heffect : ∀ (q : Part) n a, (q.settingEffect n a).tracking = q.tracking := fun q n a => by simp [Part.tracking]
  unfold Part.setOrder
  dsimp only
  split
  · rfl
  · rfl
  · exact (heffect _ _ _).trans (hwrite _ _)

theorem getOrder_leavesTracking : LeavesTracking Part.getOrder := by
  intro p ps
  unfold Part.getOrder
  dsimp only
  split <;> rfl

theorem appendRouteOrder_leavesTracking : LeavesTracking Part.appendRouteOrder := by
  intro p ps
  unfold Part.appendRouteOrder
  dsimp only
  split
  · rfl
  · simp [Part.tracking]

theorem appendSectionsOrder_leavesTracking : LeavesTracking Part.appendSectionsOrder := by
  intro p ps
  unfold Part.appendSectionsOrder
  dsimp only
  split
  · rfl
  · simp [Part.tracking]

theorem clearOrder_leavesTracking : LeavesTracking Part.clearOrder := by
  intro p ps
  unfold Part.clearOrder
  dsimp only
  split_ifs <;> rfl

theorem writeLimitsOrder_leavesTracking : LeavesTracking Part.writeLimitsOrder := by
  intro p ps
  unfold Part.writeLimitsOrder
  dsimp only
  split <;> rfl

theorem readLimitsOrder_leavesTracking : LeavesTracking Part.readLimitsOrder := by
  intro p ps
  unfold Part.readLimitsOrder
  dsimp only
  split <;> rfl

theorem writeMapOrder_leavesTracking : LeavesTracking Part.writeMapOrder := by
  intro p ps
  unfold Part.writeMapOrder
  dsimp only
  split_ifs <;> rfl

theorem readMapOrder_leavesTracking : LeavesTracking Part.readMapOrder := by
  intro p ps
  unfold Part.readMapOrder
  dsimp only
  split <;> rfl

theorem readStateOrder_leavesTracking : LeavesTracking Part.readStateOrder := by
  intro p ps
  unfold Part.readStateOrder
  split <;> rfl

theorem readCountersOrder_leavesTracking : LeavesTracking Part.readCountersOrder := by
  intro p ps
  unfold Part.readCountersOrder
  dsimp only
  split
  · dsimp only
    split
    · rfl
    · simp [Part.tracking]
  · rfl

theorem restoreOrder_leavesTracking : LeavesTracking Part.restoreOrder := by
  intro p ps
  unfold Part.restoreOrder
  split
  · rfl
  · dsimp only
    split <;> simp

section
variable {p : Part}

theorem Part.startOrder_consistent (h : p.tracking.Consistent) (ps : List Byte) :
    (p.startOrder ps).part.tracking.Consistent := by
  unfold Part.startOrder
  split
  · exact h
  · rename_i hnone
    have hhalted : p.rnc.runState = .halted := by
      by_contra hr
      simp [Part.startRefusal, hr] at hnone
    rwa [Part.beginRun_tracking _ hhalted]

/-- SET POSITION within a run cuts (R79, R137). -/
theorem Part.positionOrder_consistent (h : p.tracking.Consistent) (ps : List Byte) :
    (p.positionOrder ps).part.tracking.Consistent := by
  have hturned : ∀ d, (p.turnTo d).tracking = p.tracking := fun d => by simp [Part.tracking]
  unfold Part.positionOrder
  split
  · exact h
  · split
    · exact h
    · unfold Part.setPositionTo
      dsimp only
      split
      · exact Part.cut_consistent (by simpa [hturned] using h) _
      · simpa [hturned] using h

theorem Part.headOrder_tracking (p : Part) (body : List Byte) : (p.headOrder body).tracking = p.tracking := by
  unfold Part.headOrder
  split <;> rfl

end

/-! ### Commands and steps -/

/-- A command whose effect leaves the tracking consistent. -/
theorem live_consistent {s t : State} {f : Part → Part} (h : s.part.tracking.Consistent)
    (hf : (f s.part).tracking.Consistent) (ht : live s f = .next t) : t.part.tracking.Consistent :=
  live_keeps (Inv := fun p => p.tracking.Consistent) Part.moveOwed_consistent h hf ht

/-- A command whose effect leaves the tracking as it was. -/
theorem live_consistent_of_leaves {s t : State} {f : Part → Part} (h : s.part.tracking.Consistent)
    (hf : ∀ p, (f p).tracking = p.tracking) (ht : live s f = .next t) : t.part.tracking.Consistent :=
  live_consistent h (by rwa [hf]) ht

/-- An order whose owner keeps the tracking consistent. -/
theorem order_consistent {s t : State} {code : Nat} {owner : Part → List Byte → Answer} (h : s.part.tracking.Consistent)
    (howner : ∀ {q : Part} ps, q.tracking.Consistent → (owner q ps).part.tracking.Consistent)
    (ht : live s (Part.answeredRow code owner) = .next t) : t.part.tracking.Consistent :=
  live_consistent h (keptAroundOrders_consistent.answered h code _ howner) ht

/-- An order whose owner leaves the tracking. -/
theorem order_consistent_of_leaves {s t : State} {code : Nat} {owner : Part → List Byte → Answer}
    (h : s.part.tracking.Consistent) (howner : LeavesTracking owner)
    (ht : live s (Part.answeredRow code owner) = .next t) : t.part.tracking.Consistent :=
  order_consistent h (fun ps hq => by rwa [howner]) ht

/-- A SET row of one setting number. -/
theorem setRow_consistent {s t : State} {n : Nat} (h : s.part.tracking.Consistent)
    (ht : live s (Part.setRow n) = .next t) : t.part.tracking.Consistent :=
  live_consistent h (keptAroundOrders_consistent.answered h 2 _ fun ps hq => by rwa [setOrder_leavesTracking]) ht

/-- Every command keeps the tracker consistent. -/
theorem exec_consistent (i : Instr) (s t : State) (h : s.part.tracking.Consistent) (ht : exec i s = .next t) :
    t.part.tracking.Consistent := by
  cases i with
  | hardReset c =>
    cases ht
    exact Part.moveOwed_consistent (Part.resetBy_consistent h c)
  | resetNRisingEdge =>
    simp only [exec, execResetNRisingEdge] at ht
    split at ht
    · cases ht
      exact s.part.hardReset_consistent false
    · exact live_consistent h h ht
  | headLinkCharacter line => exact live_consistent_of_leaves h (fun p => p.headChar_tracking _) ht
  | sampleFrame chars => exact live_consistent_of_leaves h (fun p => p.headFrame_tracking chars) ht
  | markerFrame chars => exact live_consistent_of_leaves h (fun p => p.headFrame_tracking chars) ht
  | statusFrame chars => exact live_consistent_of_leaves h (fun p => p.headFrame_tracking chars) ht
  | replyFrame chars => exact live_consistent_of_leaves h (fun p => p.headFrame_tracking chars) ht
  | headLinkLossOfSignal => exact live_consistent_of_leaves h Part.headLoss_tracking ht
  | headLinkLock => exact live_consistent_of_leaves h Part.lockEvent_tracking ht
  | watchdogExpiry g => exact live_consistent_of_leaves h (fun p => p.watchdogEvent_tracking g) ht
  | freshnessDeadline g => exact live_consistent_of_leaves (f := fun p => p.freshnessEvent g) h (fun p => by simp [Part.tracking]) ht
  | relayFrameSent => exact live_consistent_of_leaves h (fun p => by simp [Part.tracking]) ht
  | relayTimeout => exact live_consistent_of_leaves h Part.relayTimeoutEvent_tracking ht
  | encoderStep c a b =>
    simp only [exec, execEncoderStep] at ht
    split at ht
    · cases ht
      exact h
    · exact live_consistent h (Part.encoderStep_consistent h c a b) ht
  | tick => exact live_consistent h (Part.tickEvent_consistent h) ht
  | watchPoint => exact live_consistent h (Part.watchEvent_consistent h) ht
  | reversal => exact live_consistent h (Part.reversalEvent_consistent h) ht
  | closeLengthReached n => exact live_consistent (f := fun p => p.closeEvent n) h (Part.closeEvent_consistent h n) ht
  | mergeGapExceeded n => exact live_consistent (f := fun p => p.gapEvent n) h (Part.gapEvent_consistent h n) ht
  | historyExpiry => exact live_consistent_of_leaves h (fun p => by simp [Part.tracking]) ht
  | fixValidityExceeded => exact live_consistent_of_leaves h (fun p => by simp [Part.tracking]) ht
  | parkTimerExpiry => exact live_consistent h (Part.parkEvent_consistent h) ht
  | recorderLinkCharacter line => exact live_consistent_of_leaves h (fun p => p.recorderChar_tracking _) ht
  | orderFrame chars => exact live_consistent_of_leaves h (fun p => p.recorderFrame_tracking chars) ht
  | creditFrame chars => exact live_consistent_of_leaves h (fun p => p.recorderFrame_tracking chars) ht
  | unknownKind chars => exact live_consistent_of_leaves h (fun p => p.recorderFrame_tracking chars) ht
  | recorderLossOfSignal => exact live_consistent_of_leaves h Part.recorderLoss_tracking ht
  | recorderLinkUp => exact live_consistent_of_leaves h Part.linkUpEvent_tracking ht
  | arbiterStart => exact live_consistent_of_leaves h Part.arbiterEvent_tracking ht
  | frameLeaving b =>
    simp only [exec, execFrameLeaving, unheld] at ht
    split at ht
    · cases ht
      exact h
    · cases ht
      exact Part.leavingWith_consistent h b
  | unknownOrder => exact live_consistent h (keptAroundOrders_consistent.unknownRow h) ht
  | set => exact order_consistent_of_leaves h setOrder_leavesTracking ht
  | setRecordSpacing => exact setRow_consistent h ht
  | setHeadShape => exact setRow_consistent h ht
  | setLeadEncoder => exact setRow_consistent h ht
  | setFixValidityDistance => exact setRow_consistent h ht
  | setRouteLowWater => exact setRow_consistent h ht
  | setSectionLowWater => exact setRow_consistent h ht
  | startRun => exact order_consistent h (fun ps hq => Part.startOrder_consistent hq ps) ht
  | stopRun => exact order_consistent h (owner := Part.stopOrder) (fun _ hq => Part.endRun_consistent hq) ht
  | setPosition => exact order_consistent h (fun ps hq => Part.positionOrder_consistent hq ps) ht
  | appendRoute => exact order_consistent_of_leaves h appendRouteOrder_leavesTracking ht
  | appendSections => exact order_consistent_of_leaves h appendSectionsOrder_leavesTracking ht
  | clearLists => exact order_consistent_of_leaves h clearOrder_leavesTracking ht
  | identify => exact order_consistent_of_leaves h (owner := Part.identifyOrder) (fun _ _ => rfl) ht
  | get => exact order_consistent_of_leaves h getOrder_leavesTracking ht
  | writeLimits => exact order_consistent_of_leaves h writeLimitsOrder_leavesTracking ht
  | readLimits => exact order_consistent_of_leaves h readLimitsOrder_leavesTracking ht
  | writeInputMap => exact order_consistent_of_leaves h writeMapOrder_leavesTracking ht
  | readInputMap => exact order_consistent_of_leaves h readMapOrder_leavesTracking ht
  | readState => exact order_consistent_of_leaves h readStateOrder_leavesTracking ht
  | readCounters => exact order_consistent_of_leaves h readCountersOrder_leavesTracking ht
  | readEvents => exact order_consistent_of_leaves h (owner := Part.readEventsOrder) (fun _ _ => rfl) ht
  | setNoticeMask => exact order_consistent_of_leaves h (owner := Part.noticeMaskOrder) (fun _ _ => rfl) ht
  | restoreHead => exact order_consistent_of_leaves h restoreOrder_leavesTracking ht
  | headOrder =>
    exact live_consistent h
      (keptAroundOrders_consistent.orderRow h 19 _ fun body hq => by rwa [Part.headOrder_tracking]) ht
  | restart =>
    exact live_consistent h
      (keptAroundOrders_consistent.orderRow h 20 _ fun {q} _ _ => q.restarted_consistent) ht

/-- Settles O59: every operation leaves the tracking, or makes one of the changes that keep it consistent. -/
theorem trackerStaysConsistent : Obligations.TrackerStaysConsistent := by
  have hkeeps : StepKeeps fun p => p.tracking.Consistent :=
    stepKeeps_of_exec exec_consistent Part.moveOwed_consistent fun h => h
  unfold Obligations.TrackerStaysConsistent
  intro s t h ht
  rw [← Part.tracking_consistent_iff] at h ⊢
  exact hkeeps s t h ht

/-! ## The leaving of a frame (R143, R148, R170, R171, R177) -/

section
variable {p : Part} {t : Transmission}

/-- With no frame in transmission nothing leaves. -/
theorem Part.leavingEvent_none (h : p.rlu.tx = none) : p.leavingEvent = p := by
  rw [Part.leavingEvent, h]

/-- A frame that a RESTART has forgotten frees nothing (R177). -/
theorem Part.leavingEvent_forgotten (h : p.rlu.tx = some t) (hf : t.forgotten = true) :
    p.leavingEvent = p.withRlu { p.rlu with tx := none } := by
  rw [Part.leavingEvent, h]
  exact if_pos hf

/-- A frame that leaves frees the entry of its queue (R170). -/
theorem Part.leavingEvent_queue (h : p.rlu.tx = some t) (hf : t.forgotten = false) :
    p.leavingEvent = (p.withRlu { p.rlu with tx := none }).leaveQueue t.queue := by
  rw [Part.leavingEvent, h]
  exact if_neg (by simp [hf])

/-- A report placed in the XR queue, its slot free (R142, R172). -/
theorem Part.placeReport_eq (p : Part) (n : SlotNo) (ex : Exceedance) (r : Report) :
    p.placeReport n ex r = Part.bump { p with
      rlu := { p.rlu with xr := p.rlu.xr ++ [{ r with flags := { r.flags with urgentSent := ex.flags.urgentSent } }] }
      ext := { p.ext with slots := p.ext.slots.set n ⟨.free, (p.ext.slots[n]).urgentOwed⟩ } } .reportsPlaced := rfl

/-- The leaving of an XR promotes the head of the pending list (R143). -/
theorem Part.leaveQueue_xr_promotes {n : SlotNo} {rest : List SlotNo} {ex : Exceedance} {r : Report}
    (hl : p.ext.pendingList = n :: rest) (hn : (p.ext.slots[n]).hold = .pending ex r) :
    (p.withRlu { p.rlu with tx := none }).leaveQueue .xr = Part.bump { p with
      rlu := { p.rlu with
        tx := none
        xr := p.rlu.xr.drop 1 ++ [{ r with flags := { r.flags with urgentSent := ex.flags.urgentSent } }] }
      ext := { p.ext with
        slots := p.ext.slots.set n ⟨.free, (p.ext.slots[n]).urgentOwed⟩
        pendingList := rest } } .reportsPlaced := by
  refine (Part.promotePending_cons (p := (p.withRlu { p.rlu with tx := none }).withRlu
    { p.rlu with tx := none, xr := p.rlu.xr.drop 1 }) hl hn).trans ?_
  rw [Part.placeReport_eq]
  rfl

/-- Whether the frame in transmission is a control frame that is not forgotten. -/
theorem Part.sendingControl_eq (h : p.rlu.tx = some t) : p.sendingControl = (!t.forgotten && t.queue == .control) := by
  rw [Part.sendingControl, h]

end

section
variable {s : State} {q : Part} {owedFirst : Bool}

/-- A leaving after which owed notices move at once (R148). -/
theorem frameLeaving_nextWith (h : s.part.resetHeld = false) (hq : s.part.leavingEvent = q)
    (hc : owedFirst = false → s.part.sendingControl = true → q.rlu.admitsNonUrgent = false) :
    exec (.frameLeaving owedFirst) s = nextWith s q := by
  have hmoves : s.part.leavingWith owedFirst = q.moveOwed := by
    rw [Part.leavingWith, hq]
    refine if_neg fun hall => ?_
    simp only [Bool.and_eq_true, Bool.not_eq_true'] at hall
    obtain ⟨⟨hfirst, hcontrol⟩, hadmits⟩ := hall
    exact Bool.eq_false_iff.1 (hc hfirst hcontrol) hadmits
  rw [nextWith, ← Part.moveOwed_eq, ← hmoves]
  exact if_neg (by simp [h])

/-- A leaving that lets a reservation or a status notice come first (R171; log 17). -/
theorem frameLeaving_nextAs (h : s.part.resetHeld = false) (hq : s.part.leavingEvent = q)
    (hcontrol : s.part.sendingControl = true) (hadmits : q.rlu.admitsNonUrgent = true) :
    exec (.frameLeaving false) s = nextAs s q := by
  have hwaits : s.part.leavingWith false = q := by
    rw [Part.leavingWith, hq]
    exact if_pos (by simp [hcontrol, hadmits])
  rw [nextAs, ← hwaits]
  exact if_neg (by simp [h])

/-- A leaving from another queue than the control queue moves owed notices at once. -/
theorem frameLeaving_other (h : s.part.resetHeld = false) (hq : s.part.leavingEvent = q)
    (hc : s.part.sendingControl = false) : exec (.frameLeaving owedFirst) s = nextWith s q :=
  frameLeaving_nextWith h hq fun _ hcontrol => absurd hcontrol (Bool.eq_false_iff.1 hc)

end

/-- Settles O33: the leaving of each queue's frame, and for a control entry who comes first. -/
theorem frameLeaves : Obligations.FrameLeaves := by
  unfold Obligations.FrameLeaves
  intro s owedFirst h p
  refine ⟨fun hnone => ?_, fun t ht => ?_⟩
  · exact frameLeaving_other h (Part.leavingEvent_none hnone) (by rw [Part.sendingControl, hnone])
  have hcontrol : s.part.sendingControl = (!t.forgotten && t.queue == .control) := Part.sendingControl_eq ht
  have hother : t.queue ≠ .control → s.part.sendingControl = false := fun hq => by simp [hcontrol, hq]
  have hleaves : t.forgotten = false → s.part.leavingEvent = (p.withRlu { p.rlu with tx := none }).leaveQueue t.queue :=
    Part.leavingEvent_queue ht
  refine ⟨fun hf => ?_, fun hf hq => ?_, fun hf hq => ?_, fun hf hq hl => ?_, fun n rest ex r hf hq hl hn => ?_,
    fun hf hq => ?_⟩
  · exact frameLeaving_other h (Part.leavingEvent_forgotten ht hf) (by simp [hcontrol, hf])
  · refine frameLeaving_other h ((hleaves hf).trans ?_) (hother (by simp [hq]))
    rw [hq]
    rfl
  · refine frameLeaving_other h ((hleaves hf).trans ?_) (hother (by simp [hq]))
    rw [hq]
    rfl
  · refine frameLeaving_other h ((hleaves hf).trans ?_) (hother (by simp [hq]))
    rw [hq]
    exact Part.promotePending_nil hl
  · refine frameLeaving_other h ((hleaves hf).trans ?_) (hother (by simp [hq]))
    rw [hq]
    exact Part.leaveQueue_xr_promotes hl hn
  · intro freed room
    have hfreed : s.part.leavingEvent = freed := by
      rw [hleaves hf, hq]
      rfl
    have hroom : freed.rlu.admitsNonUrgent = true ↔ room := Rlu.admits_iff _
    refine ⟨fun hfirst => frameLeaving_nextWith h hfreed fun hlet _ => ?_, fun hlet hr => ?_⟩
    · rw [Bool.eq_false_iff, Ne, hroom]
      exact hfirst.resolve_left (by simp [hlet])
    · rw [hlet]
      exact frameLeaving_nextAs h hfreed (by simp [hcontrol, hf, hq]) (hroom.2 hr)

/-! ## The step on an empty queue (R148; log 2, log 17) -/

/-- An owed notice waits beside a free control entry. -/
theorem Part.owedWaits_iff (p : Part) :
    p.owedWaits = true ↔ p.ext.owed ≠ [] ∧ p.rlu.control.length + p.rlu.reservations < 16 := by
  have hfree : 1 ≤ p.rlu.freeEntries ↔ p.rlu.control.length + p.rlu.reservations < 16 := by
    unfold Rlu.freeEntries Config.controlCapacity
    omega
  rw [Part.owedWaits, Bool.and_eq_true, decide_eq_true_iff, hfree]
  simp

/-- Settles O2, case by case: held, owed notices that wait, the first event that is due, the passing of time. -/
theorem emptyQueueStep : Obligations.EmptyQueueStep := by
  unfold Obligations.EmptyQueueStep
  intro s hs waits
  have hwaits : s.part.owedWaits = true ↔ waits := s.part.owedWaits_iff
  rw [step_nil s hs, idle]
  refine ⟨fun hheld => if_pos hheld, fun hfree hw => ?_, fun hfree hw => ?_⟩
  · rw [if_neg (by simp [hfree]), if_pos (hwaits.2 hw), Part.moveOwed_eq]
    rfl
  · rw [if_neg (by simp [hfree]), if_neg (fun h => hw (hwaits.1 h))]
    refine ⟨fun i hi => by rw [hi], fun hnone => ?_⟩
    rw [hnone]
    rfl

/-! ## GET (R182, R183) -/

/-- The settings by number, and the heads that an address of one names. -/
theorem settingNamed_iff (n a : Nat) :
    settingNamed n a = true ↔ 1 ≤ n ∧ n ≤ 31 ∧ (if n = 12 ∨ n = 13 then 1 ≤ a ∧ a ≤ 8 else a = 0) := by
  unfold settingNamed perHeadSetting
  by_cases h : n = 12 ∨ n = 13
  · simp [h, and_assoc]
  · simp [h, and_assoc]

/-- GET of a named setting gives its value (R183). -/
theorem Part.getOrder_named (p : Part) {ps : List Byte} (h : settingNamed (fieldNat ps 0 1) (fieldNat ps 1 1) = true) :
    p.getOrder ps = ⟨p, .done, settingData p.oru.settings (fieldNat ps 0 1) (fieldNat ps 1 1)⟩ := if_pos h

/-- GET of what names no setting is refused (R182). -/
theorem Part.getOrder_unnamed (p : Part) {ps : List Byte} (h : ¬ settingNamed (fieldNat ps 0 1) (fieldNat ps 1 1) = true) :
    p.getOrder ps = ⟨p, .badValue, []⟩ := if_neg h

/-- Settles O35: both answers within the taking, the part unchanged. -/
theorem getAnswers : Obligations.GetAnswers := by
  unfold Obligations.GetAnswers
  intro s body h n a named
  have hnamed : settingNamed n a = true ↔ named := settingNamed_iff n a
  exact ⟨fun hn => answeredRow_of_unchanged h (s.part.taken.getOrder_named (hnamed.2 hn)),
    fun hn => answeredRow_of_unchanged h (s.part.taken.getOrder_unnamed fun hs => hn (hnamed.1 hs))⟩

/-! ## What a pair makes of a record (R127 to R135, R144 to R147) -/

/-! ### The slot of a pair (R125, R129) -/

section
variable {p : Part} {k : Pair}

/-- A pair for which no slot is active. -/
theorem Part.activeSlot_none (h : ∀ n : SlotNo, (p.ext.slots[n]).hold.activeFor k = false) : p.activeSlot k = none :=
  List.find?_eq_none.2 fun n _ => Bool.eq_false_iff.1 (h n)

/-- The active slot of a pair, where a pair has at most one (R125). -/
theorem Part.activeSlot_some (hone : p.OneSlotPerPair) {n : SlotNo} {ph : SlotPhase} {ex : Exceedance}
    (hn : (p.ext.slots[n]).hold = .active ph ex) (hparam : ex.param = pairParam k) (hpolarity : ex.polarity = pairPolarity k) :
    p.activeSlot k = some n := by
  have hactive : (p.ext.slots[n]).hold.activeFor k = true := by
    rw [SlotHold.activeFor_iff, hn, SlotHold.standing, hparam, hpolarity]
  cases hfound : p.activeSlot k with
  | none => exact absurd hactive (List.find?_eq_none.1 hfound n (List.mem_finRange n))
  | some m =>
    have hm : (p.ext.slots[m]).hold.activeFor k = true :=
      List.find?_some (p := fun n : SlotNo => (p.ext.slots[n]).hold.activeFor k) hfound
    rw [(hone k).1 m n hm hactive]

/-- A slot is available where it is free with its urgent owed mark clear (R129). -/
theorem Slot.available_iff (x : Slot) : x.available = true ↔ x = ⟨.free, false⟩ := by
  obtain ⟨hold, owed⟩ := x
  simp [Slot.available]

/-- The lowest available slot (R129). -/
theorem Part.availableSlot_some {n : SlotNo} (hn : p.ext.slots[n] = ⟨.free, false⟩)
    (hlower : ∀ m : SlotNo, m < n → p.ext.slots[m] ≠ ⟨.free, false⟩) : p.availableSlot = some n := by
  refine List.find?_eq_some_iff_getElem.2 ⟨(Slot.available_iff _).2 hn, n.val, by simp, by simp, fun j hj => ?_⟩
  rw [Bool.not_eq_true', Bool.eq_false_iff, List.getElem_finRange]
  exact fun h => hlower _ hj ((Slot.available_iff _).1 h)

/-- No slot is available. -/
theorem Part.availableSlot_none (h : ∀ n : SlotNo, p.ext.slots[n] ≠ ⟨.free, false⟩) : p.availableSlot = none :=
  List.find?_eq_none.2 fun n _ ha => h n ((Slot.available_iff _).1 ha)

end

/-! ### Slots, latches and exceedances in plain values (R129, R131, R132, R135, R146) -/

section
variable (p : Part)

/-- A latch changed. -/
theorem Part.onLatch_eq (k : Pair) (f : Latch → Latch) : p.onLatch k f =
    { p with ext := { p.ext with latches := p.ext.latches.set k (f p.ext.latches[k]) } } := rfl

/-- The flags that a contributing record sets (R131). -/
theorem ExFlags.contribute_eq (f : ExFlags) (startClass : Fin 8) (r : Emitted) : f.contribute startClass r =
    { f with
      sourceMixed := f.sourceMixed || r.sourceSwitch
      suspectSource := f.suspectSource || r.suspectSource
      positionDoubtful := f.positionDoubtful || decide (r.position = .uncertain ∨ r.position = .lost)
      classChanged := f.classChanged || decide (r.cls ≠ startClass) } := by
  have hdoubt : (r.position == .uncertain || r.position == .lost) =
      decide (r.position = .uncertain ∨ r.position = .lost) := by
    rw [Bool.eq_iff_iff]
    simp
  have hclass : (r.cls != startClass) = decide (r.cls ≠ startClass) := by
    rw [Bool.eq_iff_iff]
    simp
  rw [ExFlags.contribute, Bool.or_assoc, hdoubt, hclass]

/-- The exceedance that a record opens, field by field (R129). -/
theorem Emitted.opening_eq (r : Emitted) (k : Pair) (serial : Nat) (v : Int) (g : Nat) : r.opening k serial v g = {
    serial := serial, param := pairParam k, polarity := pairPolarity k
    startSeq := r.seq, startRoute := r.route, startClass := r.cls, startLabel := r.sectionLabel
    endSeq := r.seq, endRoute := r.route
    peak := { value := v, seq := r.seq, route := r.route, label := r.label, position := r.position, cls := r.cls }
    grade := g, merges := 0, clearCount := 0, sinceEnd := 0, correction := 0
    flags := {
      cutInput := false, cutSuppress := false, cutReversal := false, cutStop := false, cutJump := false
      classChanged := false, sourceMixed := r.sourceSwitch, suspectSource := r.suspectSource
      positionDoubtful := decide (r.position = .uncertain ∨ r.position = .lost), urgentSent := false } } := by
  rw [Emitted.opening, ExFlags.contribute_eq]
  simp [ExFlags.clear, Emitted.peak]

/-- A slot OPEN with its exceedance after a contributing record, and the urgent notice of one that first reaches grade 3 (R131, R144). -/
theorem Part.contributeTo_eq (n : SlotNo) (k : Pair) (ex : Exceedance) (r : Emitted) (v : Int) (g : Nat) :
    p.contributeTo n k ex r v g =
      if ex.grade < 3 ∧ 3 ≤ g then
        (p.setHold n (.active .opened (ex.contribute r v g))).urgentOffered (.slot n) (r.notice k v g (some ex.serial))
      else p.setHold n (.active .opened (ex.contribute r v g)) := by
  rw [← Part.urgentDue_eq]
  rfl

/-- A slot that has counted `c` inside records in a row (R132). -/
theorem Part.insideStep_eq (n : SlotNo) (ex : Exceedance) (c : Nat) :
    p.insideStep n ex c =
      if c < p.oru.settings.closeLength then p.setHold n (.active .closing { ex with clearCount := c })
      else if c ≤ p.oru.settings.mergeGap then p.setHold n (.active .held { ex with clearCount := c, sinceEnd := c })
      else p.finalisedIn n { ex with clearCount := c, sinceEnd := c } := by
  split_ifs with hclose hgap
  · exact if_pos hclose
  · exact p.insideStep_held n ex (Nat.not_lt.1 hclose) hgap
  · exact p.insideStep_finalised n ex (Nat.not_lt.1 hclose) (Nat.not_le.1 hgap)

/-- A HELD slot goes on HELD while its records since end are within the merge gap (R133). -/
theorem Part.heldStep_kept (n : SlotNo) (ex : Exceedance) (hg : ex.sinceEnd + 1 ≤ p.oru.settings.mergeGap) :
    p.heldStep n ex = p.setHold n (.active .held { ex with sinceEnd := ex.sinceEnd + 1 }) := if_neg (Nat.not_lt.2 hg)

/-- A record of grade 1 or more at a set latch: one urgent notice at the first grade 3 (R135, R145). -/
theorem Part.latchOut_eq (k : Pair) (r : Emitted) (v : Int) (g : Nat) : p.latchOut k r v g =
    if 3 ≤ g ∧ (p.ext.latches[k]).urgentRaised = false then
      (p.onLatch k (fun l => { l with urgentRaised := true })).urgentOffered (.latch k) (r.notice k v g none)
    else p := by
  rw [← Part.urgentDue_eq]
  rfl

/-- A latch set makes one urgent notice at grade 3, after SLOT_OVERFLOW (R130, R145; log 16). -/
theorem Part.setLatch_eq (k : Pair) (r : Emitted) (v : Int) (g : Nat) :
    let q := ((p.onLatch k (fun l => { l with isSet := true, urgentRaised := false })).bump .slotOverflows).raise .slotOverflow
    p.setLatch k r v g =
      if 3 ≤ g then (q.onLatch k (fun l => { l with urgentRaised := true })).urgentOffered (.latch k) (r.notice k v g none)
      else q := by
  intro q
  have hraised : (q.ext.latches[k]).urgentRaised = false := by simp [q, Part.onLatch_eq]
  refine (q.latchOut_eq k r v g).trans (if_congr ?_ rfl rfl)
  simp only [hraised, and_true]

/-- A slot opened, and the urgent notice of a record of grade 3 (R129, R144). -/
theorem Part.openSlot_eq (n : SlotNo) (k : Pair) (r : Emitted) (v : Int) (g : Nat) :
    let q := Part.bump { p with ext := { p.ext with
      slots := p.ext.slots.set n ⟨.active .opened (r.opening k p.ext.nextSerial v g), false⟩
      nextSerial := if p.ext.nextSerial = 4294967295 then 1 else p.ext.nextSerial + 1 } } .opened
    p.openSlot n k r v g =
      if 3 ≤ g then q.urgentOffered (.slot n) (r.notice k v g (some p.ext.nextSerial)) else q := by
  intro q
  rw [← Part.urgentDue_eq]
  rfl

end

/-! ### The record at a slot, at a latch, and at neither -/

section
variable {p : Part} {k : Pair} {r : Emitted}

/-- A pair's own slot takes the record. -/
theorem Part.judgePair_slot {n : SlotNo} {ph : SlotPhase} {ex : Exceedance} (h : p.activeSlot k = some n)
    (hn : (p.ext.slots[n]).hold = .active ph ex) : p.judgePair k r = (p.slotTakes n k ph ex r, false) := by
  simp only [Part.judgePair, h]
  rw [hn]

/-- A set latch takes the record of a pair without a slot. -/
theorem Part.judgePair_latch (h : p.activeSlot k = none) (hl : (p.ext.latches[k]).isSet = true) :
    p.judgePair k r = p.latchTakes k r := by
  simp only [Part.judgePair, h]
  exact if_pos hl

/-- A pair with neither may open a slot. -/
theorem Part.judgePair_neither (h : p.activeSlot k = none) (hl : (p.ext.latches[k]).isSet = false) :
    p.judgePair k r = p.mayOpen k r := by
  simp only [Part.judgePair, h]
  exact if_neg (Bool.eq_false_iff.1 hl)

section
variable {cause : AbsenceCause} (hv : r.values[pairParam k] = .absent cause)
include hv

/-- A slot at an absent value is finalised, with the cut flag of the cause unless it is HELD (R134). -/
theorem Part.slotTakes_absent (n : SlotNo) (ph : SlotPhase) (ex : Exceedance) :
    p.slotTakes n k ph ex r = p.finalisedIn n { ex with flags := ex.flags.withCut (cutFor ph cause.cut) } := by
  rw [← Part.finaliseEx_eq, Part.slotTakes, hv]

theorem Part.latchTakes_absent : p.latchTakes k r = (p.onLatch k Latch.cleared, false) := by
  rw [Part.latchTakes, hv]

theorem Part.mayOpen_absent : p.mayOpen k r = (p, false) := by
  rw [Part.mayOpen, hv]

end

section
variable {v : Int} {g : Nat} (hv : r.values[pairParam k] = .present v g)
include hv

/-- An OPEN slot (R131, R132). -/
theorem Part.slotTakes_opened (n : SlotNo) (ex : Exceedance) : p.slotTakes n k .opened ex r =
    if p.isInside r.cls k v then p.insideStep n ex 1 else p.contributeTo n k ex r v g := by
  rw [Part.slotTakes, hv]

/-- A CLOSING slot (R131, R132). -/
theorem Part.slotTakes_closing (n : SlotNo) (ex : Exceedance) : p.slotTakes n k .closing ex r =
    if p.isInside r.cls k v then p.insideStep n ex (ex.clearCount + 1)
    else p.contributeTo n k { ex with clearCount := 0 } r v g := by
  rw [Part.slotTakes, hv]

/-- A HELD slot (R133). -/
theorem Part.slotTakes_held (n : SlotNo) (ex : Exceedance) : p.slotTakes n k .held ex r =
    if 1 ≤ g ∧ polarityOf v = some (pairPolarity k) then
      p.contributeTo n k { ex with merges := min (ex.merges + 1) 65535, clearCount := 0, sinceEnd := 0 } r v g
    else p.heldStep n ex := by
  rw [Part.slotTakes, hv]

/-- A set latch (R135). -/
theorem Part.latchTakes_present : p.latchTakes k r =
    if polarityOf v = some (pairPolarity k) ∧ 1 ≤ g then (p.latchOut k r v g, true)
    else if p.isInside r.cls k v then (p.onLatch k Latch.cleared, false)
    else (p, false) := by
  rw [Part.latchTakes, hv]

/-- A record that opens nothing (R128, R129). -/
theorem Part.mayOpen_nothing (h : ¬ (polarityOf v = some (pairPolarity k) ∧ 1 ≤ g)) : p.mayOpen k r = (p, false) := by
  rw [Part.mayOpen, hv]
  exact if_neg h

/-- The lowest available slot opened (R129). -/
theorem Part.mayOpen_slot (h : polarityOf v = some (pairPolarity k) ∧ 1 ≤ g) {n : SlotNo} (hn : p.availableSlot = some n) :
    p.mayOpen k r = (p.openSlot n k r v g, false) := by
  rw [Part.mayOpen, hv]
  simp only [if_pos h, hn]

/-- No slot available: the latch set, the record UNTRACKED (R130, R135). -/
theorem Part.mayOpen_latch (h : polarityOf v = some (pairPolarity k) ∧ 1 ≤ g) (hn : p.availableSlot = none) :
    p.mayOpen k r = (p.setLatch k r v g, true) := by
  rw [Part.mayOpen, hv]
  simp only [if_pos h, hn]

end

end

/-- Settles O27: the pair's slot, its latch, or neither, each case by its own equation. -/
theorem pairTakesRecord : Obligations.PairTakesRecord := by
  unfold Obligations.PairTakesRecord
  intro p k r q marked put latched cleared unheld
  have hgives : ∀ {x : Part × Bool}, p.judgePair k r = x → marked = x.2 ∧ q = x.1 := fun h =>
    ⟨congrArg Prod.snd h, congrArg Prod.fst h⟩
  have hnone : unheld → p.activeSlot k = none := Part.activeSlot_none
  refine ⟨⟨rfl, rfl⟩, r.opening_eq k, fun _ _ _ => rfl, fun cause hv => ⟨fun n ph ex hone hn hparam hpolarity => ?_,
    fun hu => ?_⟩, fun v g hv => ?_⟩
  · have hslot := hgives (Part.judgePair_slot (r := r) (Part.activeSlot_some hone hn hparam hpolarity) hn)
    rw [Part.slotTakes_absent hv] at hslot
    cases ph <;> cases cause <;> exact hslot
  · cases hl : (p.ext.latches[k]).isSet with
    | true => exact hgives ((Part.judgePair_latch (hnone hu) hl).trans (Part.latchTakes_absent hv))
    | false => exact hgives ((Part.judgePair_neither (hnone hu) hl).trans (Part.mayOpen_absent hv))
  · intro own inside
    have hown : polarityOf v = some (pairPolarity k) ↔ own := polarityOf_eq_some_iff v _
    have hinside : p.isInside r.cls k v = true ↔ inside := (p.isInside_iff r.cls k v).trans (or_congr_left hown.not)
    have hcontributing : polarityOf v = some (pairPolarity k) ∧ 1 ≤ g ↔ own ∧ 1 ≤ g := and_congr_left' hown
    have hnothing : ¬ own ∨ g = 0 → ¬ (polarityOf v = some (pairPolarity k) ∧ 1 ≤ g) := fun h ⟨ho, hg⟩ =>
      h.elim (fun hn => hn (hown.1 ho)) (by omega)
    refine ⟨fun n ph ex hone hn hparam hpolarity => ?_, fun hu hl => ?_, fun hu hl => ?_⟩
    · intro closes contributes
      obtain ⟨hmarked, hq⟩ := hgives (Part.judgePair_slot (r := r) (Part.activeSlot_some hone hn hparam hpolarity) hn)
      have hcloses : ∀ c, p.insideStep n ex c = closes c := p.insideStep_eq n ex
      have hcontributes : ∀ x, p.contributeTo n k x r v g = contributes x := fun x => by
        rw [Part.contributeTo_eq, Exceedance.contribute, ExFlags.contribute_eq]
        rfl
      refine ⟨hmarked, ?_, ?_, ?_, ?_, ?_, ?_, ?_⟩
      · rintro rfl hin
        exact hq.trans ((Part.slotTakes_opened hv n ex).trans ((if_pos (hinside.2 hin)).trans (hcloses _)))
      · rintro rfl hout
        exact hq.trans ((Part.slotTakes_opened hv n ex).trans ((if_neg (hinside.not.2 hout)).trans (hcontributes _)))
      · rintro rfl hin
        exact hq.trans ((Part.slotTakes_closing hv n ex).trans ((if_pos (hinside.2 hin)).trans (hcloses _)))
      · rintro rfl hout
        exact hq.trans ((Part.slotTakes_closing hv n ex).trans ((if_neg (hinside.not.2 hout)).trans (hcontributes _)))
      · rintro rfl ho hg
        exact hq.trans ((Part.slotTakes_held hv n ex).trans ((if_pos ⟨hg, hown.2 ho⟩).trans (hcontributes _)))
      · rintro rfl hn hg
        refine hq.trans ((Part.slotTakes_held hv n ex).trans ((if_neg fun h => hnothing hn h.symm).trans ?_))
        exact p.heldStep_kept n ex hg
      · rintro rfl hn hg
        refine hq.trans ((Part.slotTakes_held hv n ex).trans ((if_neg fun h => hnothing hn h.symm).trans ?_))
        exact p.heldStep_finalised n ex hg
    · have hlatch := hgives ((Part.judgePair_latch (hnone hu) hl).trans (Part.latchTakes_present hv))
      refine ⟨fun ho hg => ?_, fun hn => ?_⟩
      · rw [if_pos ⟨hown.2 ho, hg⟩] at hlatch
        exact ⟨hlatch.1, hlatch.2.trans (p.latchOut_eq k r v g)⟩
      · rw [if_neg (hnothing hn)] at hlatch
        by_cases hin : inside
        · rw [if_pos (hinside.2 hin)] at hlatch
          exact ⟨hlatch.1, fun _ => hlatch.2, fun hout => absurd hin hout⟩
        · rw [if_neg (hinside.not.2 hin)] at hlatch
          exact ⟨hlatch.1, fun h => absurd h hin, fun _ => hlatch.2⟩
    · have hneither := fun {x} => (Part.judgePair_neither (r := r) (hnone hu) hl).trans (c := x)
      refine ⟨fun hn => ?_, fun n ho hg hn hlower => ?_, fun ho hg hall => ?_⟩
      · exact hgives (hneither (Part.mayOpen_nothing hv (hnothing hn)))
      · have hopened := hgives (hneither (Part.mayOpen_slot hv ⟨hown.2 ho, hg⟩ (Part.availableSlot_some hn hlower)))
        exact ⟨hopened.1, hopened.2.trans (p.openSlot_eq n k r v g)⟩
      · have hset := hgives (hneither (Part.mayOpen_latch hv ⟨hown.2 ho, hg⟩ (Part.availableSlot_none hall)))
        exact ⟨hset.1, hset.2.trans (p.setLatch_eq k r v g)⟩

end Sys2Proof.Machine

/-! SUPPORT. Every command answers a next state, and START RUN: that each meaning goes on with a part and the same waiting commands, and what each check of R152 answers. -/

namespace Sys2Proof.Machine

/-! ## Every command answers a next state (R155; log 30) -/

/-- A command that RESET_N low holds back goes on, held or not. -/
theorem unheld_nextAs (s : State) (f : Part → Part) : ∃ q, unheld s f = nextAs s q := by
  unfold unheld
  split
  · exact ⟨s.part, rfl⟩
  · exact ⟨f s.part, rfl⟩

/-- So does one at whose end owed notices move (R148). -/
theorem live_nextAs (s : State) (f : Part → Part) : ∃ q, live s f = nextAs s q := unheld_nextAs s _

/-- Every command goes on with some part and the same waiting commands. Four are not `live`: the two edges of a hard reset, an encoder step, whose pins move while RESET_N is low, and a leaving, which may let owed notices wait (log 17). -/
theorem exec_nextAs (c : Instr) (s : State) : ∃ q, exec c s = nextAs s q := by
  cases c with
  | hardReset cause => exact ⟨(s.part.resetBy cause).moveOwed, rfl⟩
  | resetNRisingEdge =>
    simp only [exec, execResetNRisingEdge]
    split
    · exact ⟨s.part.hardReset false, rfl⟩
    · exact live_nextAs s _
  | encoderStep channel phaseA phaseB =>
    simp only [exec, execEncoderStep]
    split
    · exact ⟨s.part.setPhases channel phaseA phaseB, rfl⟩
    · exact live_nextAs s _
  | frameLeaving owedFirst => exact unheld_nextAs s fun p => p.leavingWith owedFirst
  | _ =>
    unfold exec
    exact live_nextAs s _

/-- A step on an empty queue goes on with some part. -/
theorem idle_nextAs (s : State) : ∃ q, idle s = nextAs s q := by
  unfold idle
  split_ifs with hheld howed
  · exact ⟨s.part, rfl⟩
  · exact ⟨s.part.moveOwed, rfl⟩
  · split
    · exact exec_nextAs _ s
    · exact ⟨s.part.elapse, rfl⟩

/-- A step goes on with some part and the queue less its front command. -/
theorem step_nextAs (s : State) : ∃ q, step s = nextAs { s with pending := s.pending.drop 1 } q := by
  cases hs : s.pending with
  | cons c rest =>
    rw [step_cons s c rest hs]
    exact exec_nextAs c { s with pending := rest }
  | nil =>
    obtain ⟨q, hq⟩ := idle_nextAs s
    rw [step_nil s hs, hq]
    exact ⟨q, by simp only [nextAs, hs, List.drop_nil]⟩

/-- Settles O3: each meaning ends in a next state, and only a step takes from the queue. -/
theorem everyCommandAnswersNext : Obligations.EveryCommandAnswersNext := by
  unfold Obligations.EveryCommandAnswersNext
  refine ⟨exec_nextAs, fun s => ?_⟩
  obtain ⟨q, hq⟩ := step_nextAs s
  exact ⟨_, hq, rfl⟩

/-! ## START RUN (R152, R153) -/

section
variable {p : Part}

/-- In a run: BAD_STATE. -/
theorem Part.startRefusal_inRun (h : p.rnc.runState ≠ .halted) : p.startRefusal = some .badState :=
  if_pos (bne_iff_ne.2 h)

/-- In HALTED the position is looked at next. -/
theorem Part.startRefusal_halted (h : p.rnc.runState = .halted) : p.startRefusal =
    if p.pfu.position == .unset then some .badState else if !p.ext.pendingList.isEmpty then some .busy else none :=
  if_neg (by simp [h])

/-- Without a position: BAD_STATE. -/
theorem Part.startRefusal_unset (h : p.rnc.runState = .halted) (hpos : p.pfu.position = .unset) :
    p.startRefusal = some .badState :=
  (Part.startRefusal_halted h).trans (if_pos (beq_iff_eq.2 hpos))

/-- With a position the pending list is looked at last. -/
theorem Part.startRefusal_placed (h : p.rnc.runState = .halted) (hpos : p.pfu.position ≠ .unset) :
    p.startRefusal = if !p.ext.pendingList.isEmpty then some .busy else none :=
  (Part.startRefusal_halted h).trans (if_neg (mt beq_iff_eq.1 hpos))

/-- With reports that wait: BUSY. -/
theorem Part.startRefusal_pending (h : p.rnc.runState = .halted) (hpos : p.pfu.position ≠ .unset)
    (hlist : p.ext.pendingList ≠ []) : p.startRefusal = some .busy :=
  (Part.startRefusal_placed h hpos).trans (if_pos (by simp [hlist]))

/-- With nothing that waits it is accepted. -/
theorem Part.startRefusal_none (h : p.rnc.runState = .halted) (hpos : p.pfu.position ≠ .unset)
    (hlist : p.ext.pendingList = []) : p.startRefusal = none :=
  (Part.startRefusal_placed h hpos).trans (if_neg (by simp [hlist]))

/-- A refused START RUN answers with the run number in force. -/
theorem Part.startOrder_refused {r : Result} (h : p.startRefusal = some r) (ps : List Byte) :
    p.startOrder ps = ⟨p, r, bytesOfNat 2 p.rnc.runNumber.toNat⟩ := by
  rw [Part.startOrder, h]

/-- An accepted START RUN answers with the run number it has stored. -/
theorem Part.startOrder_accepted (h : p.startRefusal = none) (ps : List Byte) :
    p.startOrder ps = ⟨p.beginRun (BitVec.ofNat 16 (fieldNat ps 0 2)), .done, bytesOfNat 2 (fieldNat ps 0 2)⟩ := by
  rw [Part.startOrder, h]

end

/-- A refused START RUN leaves its reply alone. -/
theorem startRun_refused {s : State} {body : List Byte} {r : Result} (h : s.part.Ready 4 body)
    (hr : s.part.taken.startRefusal = some r) :
    exec .startRun s = nextWith s (s.part.afterOrder body r (bytesOfNat 2 s.part.rnc.runNumber.toNat)) :=
  answeredRow_of_unchanged h (Part.startOrder_refused hr (orderParams body))

/-- What R153 sets at an accepted START RUN, but for the count of starts. -/
def Part.runArmed (p : Part) (number : BitVec 16) : Part :=
  { p with
    rnc := { p.rnc with runState := .armed, runNumber := number, runIndex := p.rnc.runIndex + 1 }
    tru := { p.tru with nextSeq := 0 }
    rlu := { p.rlu with grDropped := 0 }
    odu := { p.odu with history := [], lastSpeed := none }
    pfu := { p.pfu with pendingCorrection := none } }

/-- The run of an accepted START RUN begun: the taking comes before what R153 sets, the reply after it. -/
theorem Part.taken_beginRun_answered (p : Part) (number : BitVec 16) (body : List Byte) (r : Result) (data : List Byte) :
    (p.taken.beginRun number).fillReservation (replyTo body r data) =
      ((p.runArmed number).afterOrder body r data).bump .runsStarted := by
  cases p
  rfl

/-- An accepted START RUN begins the run and answers with its number. -/
theorem startRun_accepted {s : State} {body : List Byte} (h : s.part.Ready 4 body)
    (hr : s.part.taken.startRefusal = none) :
    let number := fieldNat (orderParams body) 0 2
    exec .startRun s = nextWith s
      (((s.part.runArmed (BitVec.ofNat 16 number)).afterOrder body .done (bytesOfNat 2 number)).bump .runsStarted) := by
  intro number
  have hanswer := answeredRow_of_answer h (Part.startOrder_accepted hr (orderParams body))
  rw [Part.taken_beginRun_answered] at hanswer
  exact hanswer

/-- Settles O41, check by check in the order of R152; the taking leaves what the checks read. -/
theorem startRunTaken : Obligations.StartRunTaken := by
  unfold Obligations.StartRunTaken
  intro s body h p number old
  refine ⟨fun hrun => ?_, fun hhalted hunset => ?_, fun hhalted hpos hlist => ?_, fun hhalted hpos hlist => ?_⟩
  · exact startRun_refused h (Part.startRefusal_inRun hrun)
  · exact startRun_refused h (Part.startRefusal_unset hhalted hunset)
  · exact startRun_refused h (Part.startRefusal_pending hhalted hpos hlist)
  · exact startRun_accepted h (Part.startRefusal_none hhalted hpos hlist)

end Sys2Proof.Machine

/-! SUPPORT. The Recorder Link Unit: what every operation makes of its queues, its credits, its receiver and the order buffer, the statement that every step keeps them within their sizes, and those on the GR queue, the link states, the inbound frames and the outbound arbiter. -/

namespace Sys2Proof.Machine

/-! ## What the statement on the queues speaks of -/

/-- All that the invariant of the queues speaks of: the Recorder Link Unit, how many orders wait in the inbound buffer, and whether a head order's reservation and its relay stand. -/
structure Traffic where
  rlu : Rlu
  orders : Nat
  reserved : Bool
  relayed : Bool

/-- The traffic of the part as it stands. -/
def Part.traffic (p : Part) : Traffic :=
  ⟨p.rlu, p.oru.buffer.length, p.oru.headReservation.isSome, p.hlu.relay.isSome⟩

/-- The invariant of the statement in one predicate, with `k` reservations beside that of a head order: one while an order is carried out, none between two commands (R179, R187). -/
structure Traffic.Bounded (k : Nat) (x : Traffic) : Prop where
  reservations : x.rlu.reservations = k + x.reserved.toNat
  relayed : x.relayed = x.reserved
  control : x.rlu.control.length + x.rlu.reservations ≤ 16
  nonUrgent : x.rlu.nonUrgent + x.rlu.reservations ≤ 12
  xr : x.rlu.xr.length ≤ 32
  gr : x.rlu.gr.length ≤ 64
  mirror : x.rlu.mirror.length ≤ 8
  credits : x.rlu.credits ≤ 255
  orders : x.orders ≤ 4
  downIdle : x.rlu.link ≠ .up → x.rlu.linkErrors = 0 ∧ x.rlu.credits = 0 ∧ x.rlu.tx = none ∧ x.rlu.rx = none

/-- The invariant of the statement in the statement's words. -/
theorem Part.traffic_bounded_iff (p : Part) : p.traffic.Bounded 0 ↔ p.QueuesBounded ∧ p.LinkDownIdle := by
  have hone : (if p.oru.headReservation.isSome then 1 else 0) = 0 + p.oru.headReservation.isSome.toNat := by
    cases p.oru.headReservation <;> rfl
  unfold Part.QueuesBounded Part.ReservationsMatch
  rw [hone]
  constructor
  · intro h
    exact ⟨⟨⟨h.reservations, h.relayed⟩, h.control, h.nonUrgent, h.xr, h.gr, h.mirror, h.credits, h.orders⟩, h.downIdle⟩
  · rintro ⟨⟨⟨hreservations, hrelayed⟩, hcontrol, hnonUrgent, hxr, hgr, hmirror, hcredits, horders⟩, hidle⟩
    exact ⟨hreservations, hrelayed, hcontrol, hnonUrgent, hxr, hgr, hmirror, hcredits, horders, hidle⟩

/-! ## What keeps the traffic within its bounds -/

/-- Filled non-urgent entries after one more frame at the tail. -/
theorem Rlu.nonUrgent_placeControl (r : Rlu) (f : ControlFrame) :
    (r.placeControl f).nonUrgent = r.nonUrgent + (!f.isUrgent).toNat := by
  unfold Rlu.nonUrgent Rlu.placeControl
  cases hf : f.isUrgent <;> simp [hf]

/-- Filled entries after one more frame at the tail. -/
theorem Rlu.control_placeControl (r : Rlu) (f : ControlFrame) :
    (r.placeControl f).control.length = r.control.length + 1 := List.length_append

section
variable {k : Nat} {x : Traffic}

/-- A control frame placed where an entry is free and, for a non-urgent one, the non-urgent mark not passed (R171). -/
theorem Traffic.Bounded.placed (h : x.Bounded k) {f : ControlFrame} (hroom : x.rlu.control.length + x.rlu.reservations < 16)
    (hmark : x.rlu.nonUrgent + (!f.isUrgent).toNat + x.rlu.reservations ≤ 12) :
    Traffic.Bounded k { x with rlu := x.rlu.placeControl f } :=
  { h with
    control := by
      have hlen := x.rlu.control_placeControl f
      show (x.rlu.placeControl f).control.length + x.rlu.reservations ≤ 16
      omega
    nonUrgent := by
      show (x.rlu.placeControl f).nonUrgent + x.rlu.reservations ≤ 12
      rwa [Rlu.nonUrgent_placeControl] }

/-- An urgent notice placed in a free entry (R171). -/
theorem Traffic.Bounded.urgent (h : x.Bounded k) (hfree : 1 ≤ x.rlu.freeEntries) (u : UrgentNotice) :
    Traffic.Bounded k { x with rlu := x.rlu.placeControl (.urgent u) } := by
  unfold Rlu.freeEntries Config.controlCapacity at hfree
  exact h.placed (by omega) h.nonUrgent

/-- A status notice placed where R171 admits it. -/
theorem Traffic.Bounded.notice (h : x.Bounded k) (hroom : x.rlu.admitsNonUrgent = true) (c : Nat) (f : BitVec 20) (n : Seq)
    (r : Int) : Traffic.Bounded k { x with rlu := x.rlu.placeControl (.status c f n r) } := by
  obtain ⟨hmark, hfree⟩ := (Rlu.admits_iff _).1 hroom
  refine h.placed hfree ?_
  show x.rlu.nonUrgent + 1 + x.rlu.reservations ≤ 12
  omega

/-- A reservation made where R171 admits it, with an order gone from the buffer (R179). -/
theorem Traffic.Bounded.taken (h : x.Bounded 0) (hroom : x.rlu.admitsNonUrgent = true) {n : Nat} (hn : n ≤ x.orders) :
    Traffic.Bounded 1 { x with rlu := { x.rlu with reservations := x.rlu.reservations + 1 }, orders := n } := by
  obtain ⟨hmark, hfree⟩ := (Rlu.admits_iff _).1 hroom
  have hres := h.reservations
  exact { h with
    reservations := by
      show x.rlu.reservations + 1 = 1 + x.reserved.toNat
      omega
    control := by
      show x.rlu.control.length + (x.rlu.reservations + 1) ≤ 16
      omega
    nonUrgent := by
      show x.rlu.nonUrgent + (x.rlu.reservations + 1) ≤ 12
      omega
    orders := hn.trans h.orders }

/-- A reservation filled by a non-urgent frame, with the reservation of a head order changed or not (R171, R181, R187). -/
theorem Traffic.Bounded.filled {j : Nat} (h : x.Bounded k) {b : Bool} (hb : x.rlu.reservations = j + b.toNat + 1)
    (f : ControlFrame) : Traffic.Bounded j { x with
      rlu := { x.rlu.placeControl f with reservations := x.rlu.reservations - 1 }, reserved := b, relayed := b } := by
  have hcontrol := h.control
  have hnonUrgent := h.nonUrgent
  have hlen := x.rlu.control_placeControl f
  have hmark := x.rlu.nonUrgent_placeControl f
  have hone := Bool.toNat_le (!f.isUrgent)
  exact { h with
    reservations := by
      show x.rlu.reservations - 1 = j + b.toNat
      omega
    relayed := rfl
    control := by
      show (x.rlu.placeControl f).control.length + (x.rlu.reservations - 1) ≤ 16
      omega
    nonUrgent := by
      show (x.rlu.placeControl f).nonUrgent + (x.rlu.reservations - 1) ≤ 12
      omega }

/-- The head of the control queue gone. -/
theorem Traffic.Bounded.controlLeft (h : x.Bounded k) :
    Traffic.Bounded k { x with rlu := { x.rlu with control := x.rlu.control.drop 1 } } := by
  have hsub : (x.rlu.control.drop 1).Sublist x.rlu.control := List.drop_sublist 1 _
  exact { h with
    control := (Nat.add_le_add_right hsub.length_le _).trans h.control
    nonUrgent := (Nat.add_le_add_right (hsub.filter _).length_le _).trans h.nonUrgent }

/-- Another XR queue of at most 32 reports (R172). -/
theorem Traffic.Bounded.withXr (h : x.Bounded k) {l : List Report} (hl : l.length ≤ 32) :
    Traffic.Bounded k { x with rlu := { x.rlu with xr := l } } := { h with xr := hl }

/-- Another GR queue of at most 64 records (R173). -/
theorem Traffic.Bounded.withGr (h : x.Bounded k) {l : List GeometryRecord} (hl : l.length ≤ 64) :
    Traffic.Bounded k { x with rlu := { x.rlu with gr := l } } := { h with gr := hl }

/-- Another mirror queue of at most 8 frames (R174). -/
theorem Traffic.Bounded.withMirror (h : x.Bounded k) {l : List MirrorFrame} (hl : l.length ≤ 8) :
    Traffic.Bounded k { x with rlu := { x.rlu with mirror := l } } := { h with mirror := hl }

end

/-! ## Operations that leave the traffic -/

section
variable (p : Part)

/-- The traffic lies in the Recorder Link Unit, the Order Unit and the relay slot. -/
theorem Part.traffic_eq_of_blocks {p q : Part} (hhlu : q.hlu = p.hlu) (horu : q.oru = p.oru) :
    q.traffic = { p.traffic with rlu := q.rlu } := by
  simp only [Part.traffic, hhlu, horu]

@[simp] theorem Part.withTru_traffic (x : Tru) : (p.withTru x).traffic = p.traffic := rfl
@[simp] theorem Part.withRnc_traffic (x : Rnc) : (p.withRnc x).traffic = p.traffic := rfl
@[simp] theorem Part.bump_traffic (c : Counter) : (p.bump c).traffic = p.traffic := rfl
@[simp] theorem Part.bumpBy_traffic (c : Counter) (n : Nat) : (p.bumpBy c n).traffic = p.traffic := rfl
@[simp] theorem Part.setRunState_traffic (x : RunState) : (p.setRunState x).traffic = p.traffic := rfl
@[simp] theorem Part.stopParkTimer_traffic : p.stopParkTimer.traffic = p.traffic := rfl
@[simp] theorem Part.freshWatchdogs_traffic : p.freshWatchdogs.traffic = p.traffic := rfl
@[simp] theorem Part.clearLatches_traffic : p.clearLatches.traffic = p.traffic := rfl
@[simp] theorem Part.setRx_traffic (x : HeadRx) : (p.setRx x).traffic = p.traffic := rfl

@[simp] theorem Part.markOwed_traffic (o : Owner) (b : Bool) : (p.markOwed o b).traffic = p.traffic := by
  cases o <;> rfl

@[simp] theorem Part.markSent_traffic (o : Owner) : (p.markSent o).traffic = p.traffic := by cases o <;> rfl

@[simp] theorem Part.postPassed_traffic (x : Post) : (p.postPassed x).traffic = p.traffic := by simp [Part.traffic]

@[simp] theorem Part.fixedAt_traffic (m : Int) : (p.fixedAt m).traffic = p.traffic := by simp [Part.traffic]

@[simp] theorem Part.zeroUpdates_traffic : p.zeroUpdates.traffic = p.traffic := by simp [Part.traffic]

@[simp] theorem Part.switchChannel_traffic : p.switchChannel.traffic = p.traffic := by simp [Part.traffic]

@[simp] theorem Part.speedTick_traffic (t : TickData) : (p.speedTick t).traffic = p.traffic := by simp [Part.traffic]

@[simp] theorem Part.phaseChange_traffic (c : Encoder) (a b : Bool) : (p.phaseChange c a b).traffic = p.traffic := by
  simp [Part.traffic]

@[simp] theorem Part.lockEvent_traffic : p.lockEvent.traffic = p.traffic := by
  unfold Part.lockEvent
  split <;> rfl

@[simp] theorem Part.countViolation_traffic (c : LineChar) : (p.countViolation c).traffic = p.traffic := by
  cases c <;> rfl

@[simp] theorem Part.charPassing_traffic (c : LineChar) : (p.charPassing c).traffic = p.traffic := by
  cases c <;> rfl

@[simp] theorem Part.charHunting_traffic (c : LineChar) : (p.charHunting c).traffic = p.traffic := by
  cases c <;> rfl

@[simp] theorem Part.countRecorderViolation_traffic (c : LineChar) :
    (p.countRecorderViolation c).traffic = p.traffic := by
  cases c <;> rfl

/-- The relay deadline set leaves the relay outstanding (R22). -/
theorem Part.relaySentEvent_traffic : p.relaySentEvent.traffic = p.traffic := by
  unfold Part.relaySentEvent
  split
  · rfl
  · dsimp only
    split
    · rename_i hx
      split
      · simp [Part.traffic, hx]
      · rfl
    · rfl

end

/-! ## Operations that keep the traffic within its bounds -/

section
variable {p : Part} {k : Nat}

/-- Raising an event places at most one admitted status notice (R191). -/
theorem Part.raise_bounded {e : Event} (h : p.traffic.Bounded k) : (p.raise e).traffic.Bounded k := by
  have hhlu : (p.raise e).hlu = p.hlu := by simp
  have horu : (p.raise e).oru = p.oru := by simp
  rw [Part.traffic_eq_of_blocks hhlu horu]
  obtain he | ⟨hroom, c, f, n, r, he⟩ := p.raise_rlu e
  · rw [he]
    exact h
  · rw [he]
    exact h.notice hroom c f n r

theorem Part.raiseTimes_bounded {e : Event} {n : Nat} (h : p.traffic.Bounded k) :
    (p.raiseTimes e n).traffic.Bounded k := by
  induction n generalizing p with
  | zero => exact h
  | succ n ih => exact ih (Part.raise_bounded h)

/-! ### The look-ahead lists and the position -/

theorem Part.sectionAdvance_bounded (h : p.traffic.Bounded k) : p.sectionAdvance.traffic.Bounded k := by
  have hlow : ∀ {q : Part}, q.traffic.Bounded k → q.sectionLowTest.traffic.Bounded k := fun {q} hq => by
    unfold Part.sectionLowTest
    split
    · exact Part.raise_bounded hq
    · exact hq
  have hstarved : ∀ {q : Part}, q.traffic.Bounded k → q.sectionStarvedTest.traffic.Bounded k := fun {q} hq => by
    unfold Part.sectionStarvedTest
    split
    · exact Part.raise_bounded hq
    · exact hq
  unfold Part.sectionAdvance
  dsimp only
  split
  · exact h
  · exact hstarved (hlow h)

theorem Part.missState_bounded (h : p.traffic.Bounded k) : p.missState.traffic.Bounded k := by
  unfold Part.missState
  split
  · split
    · exact h
    · exact h
    · exact Part.raise_bounded h
  · exact h

theorem Part.markerGone_bounded {skip : Bool} (h : p.traffic.Bounded k) : (p.markerGone skip).traffic.Bounded k := by
  unfold Part.markerGone
  split
  · exact h
  · exact Part.missState_bounded (Part.raise_bounded h)

theorem Part.scanRoute_bounded {skip : Bool} {l : List RouteEntry} (h : p.traffic.Bounded k) :
    (p.scanRoute skip l).1.traffic.Bounded k := by
  induction l generalizing p with
  | nil => exact h
  | cons e es ih =>
    unfold Part.scanRoute
    split
    · split
      · exact ih (by rwa [Part.postPassed_traffic])
      · split
        · exact ih (Part.markerGone_bounded h)
        · exact ih h
    · exact h

theorem Part.routeLowTest_bounded (h : p.traffic.Bounded k) : p.routeLowTest.traffic.Bounded k := by
  unfold Part.routeLowTest
  split
  · exact Part.raise_bounded h
  · exact h

theorem Part.routeAdvance_bounded {skip : Bool} (h : p.traffic.Bounded k) :
    (p.routeAdvance skip).traffic.Bounded k := by
  have hscanned := Part.scanRoute_bounded (skip := skip) (l := p.pfu.routeList) h
  unfold Part.routeAdvance
  dsimp only
  split
  · exact hscanned
  · exact Part.routeLowTest_bounded hscanned

theorem Part.handOff_bounded {c : Int} (h : p.traffic.Bounded k) : (p.handOff c).traffic.Bounded k := by
  unfold Part.handOff Part.largeTest
  dsimp only
  split
  · exact Part.raise_bounded h
  · exact h

theorem Part.fix_bounded {before : List RouteEntry} {m : Int} {after : List RouteEntry} (h : p.traffic.Bounded k) :
    (p.fix before m after).traffic.Bounded k := by
  have hmissed : ∀ n, (p.missBefore n).traffic.Bounded k := fun n => by
    unfold Part.missBefore
    split
    · exact h
    · exact Part.raise_bounded h
  unfold Part.fix
  refine Part.sectionAdvance_bounded (Part.routeAdvance_bounded (Part.handOff_bounded (Part.raise_bounded ?_)))
  rw [Part.bump_traffic, Part.fixedAt_traffic]
  exact Part.routeLowTest_bounded (hmissed _)

theorem Part.detect_bounded {code : BitVec 32} (h : p.traffic.Bounded k) : (p.detect code).traffic.Bounded k := by
  unfold Part.detect
  split
  · exact h
  · split
    · exact Part.fix_bounded h
    · exact Part.raise_bounded h

/-! ### The comparison of the channels -/

theorem Part.countSlip_bounded {found : Bool} (h : p.traffic.Bounded k) : (p.countSlip found).traffic.Bounded k := by
  unfold Part.countSlip
  split
  · exact Part.raise_bounded h
  · exact h

theorem Part.comparison_bounded (h : p.traffic.Bounded k) : p.comparison.1.traffic.Bounded k := by
  have hupdated : p.zeroUpdates.traffic.Bounded k := by rwa [Part.zeroUpdates_traffic]
  have hjudged : p.zeroUpdates.judgeChannels.1.traffic.Bounded k := by
    unfold Part.judgeChannels
    dsimp only
    split
    · rw [Part.switchChannel_traffic]
      exact Part.countSlip_bounded hupdated
    · exact Part.countSlip_bounded hupdated
  unfold Part.comparison
  dsimp only
  split
  · exact hupdated
  · exact hjudged

/-! ### The GR queue -/

/-- A dropped record's count carried leaves the length of the queue. -/
theorem carryDrop_length (d : GeometryRecord) (l : List GeometryRecord) : (carryDrop d l).length = l.length := by
  cases l with
  | nil => rfl
  | cons g l =>
    rw [carryDrop]
    split <;> rfl

/-- A full GR queue has a record to drop, and is as long as before with the offered record in its place (R173). -/
theorem dropOldest_length {sending : Bool} {q : List GeometryRecord} (hq : 2 ≤ q.length) (g : GeometryRecord) :
    (dropOldest sending q g).2.length = q.length := by
  obtain ⟨a, b, l, rfl⟩ : ∃ a b l, q = a :: b :: l := by
    match q, hq with
    | a :: b :: l, _ => exact ⟨a, b, l, rfl⟩
  cases sending <;> simp [dropOldest, carryDrop_length]

theorem Part.offerGr_bounded {g : GeometryRecord} (h : p.traffic.Bounded k) : (p.offerGr g).traffic.Bounded k := by
  have hcount : ∀ {q : Part} d, q.traffic.Bounded k → (q.countDrop d).traffic.Bounded k := fun {q} d hq =>
    Part.raise_bounded (show ((q.withRlu _).bump .grDrops).traffic.Bounded k from { hq with })
  unfold Part.offerGr
  split
  · rename_i hroom
    exact h.withGr (List.length_append.le.trans hroom)
  · rename_i hfull
    have hlen : p.rlu.gr.length = 64 := Nat.le_antisymm h.gr (Nat.not_lt.1 hfull)
    have hafter : (p.withRlu { p.rlu with gr := (dropOldest p.rlu.sendingGr p.rlu.gr g).2 }).traffic.Bounded k :=
      h.withGr ((dropOldest_length (by omega) g).trans hlen).le
    dsimp only
    split
    · exact hcount _ hafter
    · exact hafter

/-! ### The head link -/

theorem Part.writeHead_bounded {g : Head} {r : HeadRecord} (h : p.traffic.Bounded k) :
    (p.writeHead g r).traffic.Bounded k := by
  unfold Part.writeHead
  dsimp only
  split
  · exact h
  · exact Part.raise_bounded h

theorem Part.unlock_bounded (h : p.traffic.Bounded k) : p.unlock.traffic.Bounded k := by
  unfold Part.unlock
  exact Part.raise_bounded (Part.raiseTimes_bounded h)

theorem Part.linkError_bounded (h : p.traffic.Bounded k) : p.linkError.traffic.Bounded k := by
  unfold Part.linkError
  dsimp only
  split
  · exact Part.unlock_bounded h
  · exact h

theorem Part.headLoss_bounded (h : p.traffic.Bounded k) : p.headLoss.traffic.Bounded k := by
  have hlock : p.lockEvent.traffic.Bounded k := by rwa [Part.lockEvent_traffic]
  unfold Part.headLoss
  dsimp only
  split
  · exact Part.unlock_bounded hlock
  · exact hlock

theorem Part.framingError_bounded {x : HeadRx} (h : p.traffic.Bounded k) : (p.framingError x).traffic.Bounded k := by
  unfold Part.framingError
  exact Part.linkError_bounded h

theorem Part.badFrame_bounded {g : Head} {drop : Bool} (h : p.traffic.Bounded k) :
    (p.badFrame g drop).traffic.Bounded k := by
  unfold Part.badFrame
  dsimp only
  split
  · rw [Part.bump_traffic]
    exact Part.writeHead_bounded h
  · exact Part.writeHead_bounded h

/-- A copy joins the mirror queue while that holds fewer than eight (R174). -/
theorem Part.mirrorCopy_bounded {g : Head} {kind : HeadKind} {bytes : List Byte} (h : p.traffic.Bounded k) :
    (p.mirrorCopy g kind bytes).traffic.Bounded k := by
  unfold Part.mirrorCopy Part.offerMirror
  split
  · split
    · rename_i hroom
      exact h.withMirror (List.length_append.le.trans hroom)
    · exact h
  · exact h

theorem Part.takeStatus_bounded {g : Head} {b : BitVec 8} (h : p.traffic.Bounded k) :
    (p.takeStatus g b).traffic.Bounded k := by
  unfold Part.takeStatus
  dsimp only
  split
  · exact h
  · exact Part.raise_bounded h

theorem Part.takeMarker_bounded {g : Head} {code : BitVec 32} (h : p.traffic.Bounded k) :
    (p.takeMarker g code).traffic.Bounded k := by
  unfold Part.takeMarker
  split
  · split
    · exact Part.detect_bounded h
    · exact h
  · exact h

/-- A completed relay fills the reservation of its head order, which ends with it (R23, R24, R187). -/
theorem Part.completeRelay_bounded {x : RelaySlot} {r : Result} {reply : List Byte} (h : p.traffic.Bounded k) :
    (p.completeRelay x r reply).traffic.Bounded k := by
  have hreservations : p.rlu.reservations = k + p.oru.headReservation.isSome.toNat := h.reservations
  have hrelayed : p.hlu.relay.isSome = p.oru.headReservation.isSome := h.relayed
  unfold Part.completeRelay
  dsimp only
  split
  · rename_i y hy
    rw [hy] at hreservations
    exact h.filled (b := false) hreservations _
  · rename_i hnone
    rw [hnone] at hrelayed
    exact { h with relayed := (congrArg Option.isSome hnone).symm }

theorem Part.takeReply_bounded {g : Head} {payload : List Byte} (h : p.traffic.Bounded k) :
    (p.takeReply g payload).traffic.Bounded k := by
  unfold Part.takeReply
  split
  · split
    · exact Part.completeRelay_bounded h
    · exact h
  · exact Part.raise_bounded h

theorem Part.takeKind_bounded {g : Head} {hd : Header} {bytes : List Byte} (h : p.traffic.Bounded k) :
    (p.takeKind g hd bytes).traffic.Bounded k := by
  unfold Part.takeKind
  split
  · exact Part.mirrorCopy_bounded h
  · exact Part.takeMarker_bounded h
  · exact Part.mirrorCopy_bounded (Part.takeStatus_bounded h)
  · exact Part.takeReply_bounded h

theorem Part.judgeFrame_bounded {bytes : List Byte} {hd : Header} (h : p.traffic.Bounded k) :
    (p.judgeFrame bytes hd).traffic.Bounded k := by
  have hvalid : ∀ g n, (p.validFrame g n).traffic.Bounded k := fun g n => by
    unfold Part.validFrame
    exact Part.writeHead_bounded h
  unfold Part.judgeFrame
  split
  · exact h
  · split_ifs
    · exact Part.badFrame_bounded h
    · exact Part.badFrame_bounded h
    · exact Part.takeKind_bounded (hvalid _ _)

theorem Part.frameData_bounded {bytes : List Byte} {hd : Option Header} {b : Byte} (h : p.traffic.Bounded k) :
    (p.frameData bytes hd b).traffic.Bounded k := by
  unfold Part.frameData Part.headerError
  dsimp only
  split
  · split
    · exact h
    · split
      · exact Part.linkError_bounded h
      · exact h
      · exact h
  · split
    · exact Part.framingError_bounded h
    · exact h

theorem Part.frameEnd_bounded {bytes : List Byte} {hd : Option Header} (h : p.traffic.Bounded k) :
    (p.frameEnd bytes hd).traffic.Bounded k := by
  unfold Part.frameEnd
  split
  · exact Part.framingError_bounded h
  · split
    · exact Part.framingError_bounded h
    · exact Part.judgeFrame_bounded h

theorem Part.charInFrame_bounded {bytes : List Byte} {hd : Option Header} {c : LineChar} (h : p.traffic.Bounded k) :
    (p.charInFrame bytes hd c).traffic.Bounded k := by
  cases c with
  | idle => exact h
  | violation => exact Part.framingError_bounded h
  | frameStart =>
    unfold Part.charInFrame
    dsimp only
    split
    · rw [Part.setRx_traffic]
      exact Part.framingError_bounded h
    · exact Part.framingError_bounded h
  | data b => exact Part.frameData_bounded h
  | frameEnd => exact Part.frameEnd_bounded h

theorem Part.charOutside_bounded {counted : Bool} {c : LineChar} (h : p.traffic.Bounded k) :
    (p.charOutside counted c).traffic.Bounded k := by
  have hstray : (if counted then p else p.framingError .stray).traffic.Bounded k := by
    split
    · exact h
    · exact Part.framingError_bounded h
  cases c with
  | data b => exact hstray
  | frameEnd => exact hstray
  | idle => exact h
  | violation => exact h
  | frameStart => exact h

theorem Part.headChar_bounded {c : LineChar} (h : p.traffic.Bounded k) : (p.headChar c).traffic.Bounded k := by
  have hcounted : (p.lockEvent.countViolation c).traffic.Bounded k := by
    rwa [Part.countViolation_traffic, Part.lockEvent_traffic]
  unfold Part.headChar Part.charTaken
  split
  · split
    · exact Part.charOutside_bounded hcounted
    · exact Part.charOutside_bounded hcounted
    · rwa [Part.charPassing_traffic]
    · exact Part.charInFrame_bounded hcounted
  · rwa [Part.charHunting_traffic]

theorem Part.foldl_headChar_bounded {chars : List LineChar} (h : p.traffic.Bounded k) :
    (chars.foldl Part.headChar p).traffic.Bounded k := by
  induction chars generalizing p with
  | nil => exact h
  | cons c cs ih =>
    rw [List.foldl_cons]
    exact ih (Part.headChar_bounded h)

theorem Part.headFrame_bounded {chars : List LineChar} (h : p.traffic.Bounded k) :
    (p.headFrame chars).traffic.Bounded k := Part.foldl_headChar_bounded h

theorem Part.relayTimeoutEvent_bounded (h : p.traffic.Bounded k) : p.relayTimeoutEvent.traffic.Bounded k := by
  unfold Part.relayTimeoutEvent
  split
  · rw [Part.bump_traffic]
    exact Part.completeRelay_bounded h
  · exact h

theorem Part.watchdogEvent_bounded {g : Head} (h : p.traffic.Bounded k) : (p.watchdogEvent g).traffic.Bounded k := by
  unfold Part.watchdogEvent
  split
  · exact Part.writeHead_bounded h
  · exact h

/-! ### The recorder link -/

/-- In UP the receiver and the link's own counts may take any value (R165 to R168). -/
theorem Traffic.Bounded.received {x : Traffic} (h : x.Bounded k) (hup : x.rlu.link = .up) {errors tally : Nat}
    {rx : Option (List Byte)} :
    Traffic.Bounded k { x with rlu := { x.rlu with linkErrors := errors, idleTally := tally, rx := rx } } :=
  { h with downIdle := fun hdown => absurd hup hdown }

/-- Going DOWN leaves no count, no credit and neither frame (R167). -/
theorem Part.linkDowned_bounded (h : p.traffic.Bounded k) : p.linkDowned.traffic.Bounded k := by
  unfold Part.linkDowned
  dsimp only
  split <;> exact { h with credits := Nat.zero_le _, downIdle := fun _ => ⟨rfl, rfl, rfl, rfl⟩ }

theorem Part.linkErred_bounded {rx : Option (List Byte)} (h : p.traffic.Bounded k) (hup : p.rlu.link = .up) :
    (p.linkErred rx).traffic.Bounded k := by
  unfold Part.linkErred
  dsimp only
  split
  · exact h.received hup
  · exact Part.linkDowned_bounded h

theorem Part.checkFailure_bounded (h : p.traffic.Bounded k) (hup : p.rlu.link = .up) :
    p.checkFailure.traffic.Bounded k := by
  rw [Part.checkFailure_eq]
  exact Part.linkErred_bounded h hup

theorem Part.linkUpEvent_bounded (h : p.traffic.Bounded k) : p.linkUpEvent.traffic.Bounded k := by
  unfold Part.linkUpEvent
  split
  · exact { h with downIdle := fun hdown => absurd rfl hdown }
  · exact h

theorem Part.recorderLoss_bounded (h : p.traffic.Bounded k) : p.recorderLoss.traffic.Bounded k := by
  unfold Part.recorderLoss
  dsimp only
  split
  · exact Part.linkUpEvent_bounded h
  · rw [Part.goDown_eq]
    exact Part.linkDowned_bounded (Part.linkUpEvent_bounded h)

/-- An order body joins the inbound order buffer while that holds fewer than four (R178). -/
theorem Part.offerOrder_bounded {body : List Byte} (h : p.traffic.Bounded k) : (p.offerOrder body).traffic.Bounded k := by
  unfold Part.offerOrder
  split_ifs with hshort hroom
  · exact h
  · exact { h with orders := List.length_append.le.trans hroom }
  · exact Part.raise_bounded h

/-- A credit joins the credit count up to 255 (R169). -/
theorem Part.takeCredit_bounded {v : Nat} (h : p.traffic.Bounded k) (hup : p.rlu.link = .up) :
    (p.takeCredit v).traffic.Bounded k :=
  { h with credits := Nat.min_le_right _ _, downIdle := fun hdown => absurd hup hdown }

theorem Part.takeInbound_bounded {bytes : List Byte} (h : p.traffic.Bounded k) (hup : p.rlu.link = .up) :
    (p.takeInbound bytes).traffic.Bounded k := by
  have htaken : (p.withRlu { p.rlu with rx := none, linkErrors := p.rlu.linkErrors - 1 }).traffic.Bounded k :=
    h.received hup
  unfold Part.takeInbound
  dsimp only
  split_ifs
  · exact Part.offerOrder_bounded htaken
  · exact Part.takeCredit_bounded htaken hup
  · exact htaken

theorem Part.charUp_bounded {c : LineChar} (h : p.traffic.Bounded k) (hup : p.rlu.link = .up) :
    (p.charUp c).traffic.Bounded k := by
  cases c with
  | idle =>
    unfold Part.charUp Part.tallyIdle
    dsimp only
    split
    · exact h.received hup
    · exact h.received hup
  | violation =>
    unfold Part.charUp Part.inboundViolation
    dsimp only
    split
    · rw [Part.recorderError_eq]
      exact Part.linkErred_bounded h hup
    · exact Part.checkFailure_bounded h hup
  | frameStart =>
    unfold Part.charUp Part.inboundStart
    dsimp only
    split
    · exact h.received hup
    · rw [Part.checkFailure_eq, (p.bump .checkFailures).linkErred_up (some []) hup]
      exact Part.linkErred_bounded h hup
  | data b =>
    unfold Part.charUp Part.inboundData
    dsimp only
    split
    · exact h
    · split
      · exact Part.checkFailure_bounded h hup
      · exact h.received hup
  | frameEnd =>
    unfold Part.charUp Part.inboundEnd
    dsimp only
    split
    · exact h
    · split
      · exact Part.takeInbound_bounded h hup
      · exact Part.checkFailure_bounded h hup

theorem Part.charHunt_bounded {c : LineChar} (h : p.traffic.Bounded k) : (p.charHunt c).traffic.Bounded k := by
  cases c <;> exact { h with }

/-- A character in each link state (R165). -/
theorem Part.recorderTaken_bounded {c : LineChar} (h : p.traffic.Bounded k) : (p.recorderTaken c).traffic.Bounded k := by
  unfold Part.recorderTaken
  split
  · rename_i hdown
    have hidle := h.downIdle (hdown ▸ nofun)
    exact Part.charHunt_bounded (p := p.withRlu _) { h with downIdle := fun _ => hidle }
  · exact Part.charHunt_bounded h
  · rename_i hup
    exact Part.charUp_bounded h hup

theorem Part.recorderChar_bounded {c : LineChar} (h : p.traffic.Bounded k) : (p.recorderChar c).traffic.Bounded k := by
  unfold Part.recorderChar
  refine Part.recorderTaken_bounded ?_
  rw [Part.countRecorderViolation_traffic]
  exact Part.linkUpEvent_bounded h

theorem Part.foldl_recorderChar_bounded {chars : List LineChar} (h : p.traffic.Bounded k) :
    (chars.foldl Part.recorderChar p).traffic.Bounded k := by
  induction chars generalizing p with
  | nil => exact h
  | cons c cs ih =>
    rw [List.foldl_cons]
    exact ih (Part.recorderChar_bounded h)

theorem Part.recorderFrame_bounded {chars : List LineChar} (h : p.traffic.Bounded k) :
    (p.recorderFrame chars).traffic.Bounded k := Part.foldl_recorderChar_bounded h

/-- The arbiter starts a frame in UP alone (R170). -/
theorem Rlu.mayStart_iff (r : Rlu) : r.mayStart = true ↔ r.link = .up ∧ r.tx = none ∧ 1 ≤ r.credits := by
  simp [Rlu.mayStart, and_assoc]

theorem Part.arbiterEvent_bounded (h : p.traffic.Bounded k) : p.arbiterEvent.traffic.Bounded k := by
  unfold Part.arbiterEvent
  split
  · rename_i hmay
    obtain ⟨hup, _, _⟩ := p.rlu.mayStart_iff.1 hmay
    split
    · exact { h with credits := (Nat.sub_le _ _).trans h.credits, downIdle := fun hdown => absurd hup hdown }
    · exact h
  · exact h

/-! ### Urgent notices (R147, R148) -/

theorem Part.sendUrgent_bounded {o : Owner} {u : UrgentNotice} (h : p.traffic.Bounded k) (hfree : 1 ≤ p.rlu.freeEntries) :
    (p.sendUrgent o u).traffic.Bounded k := by
  rw [Part.sendUrgent, Part.markSent_traffic]
  exact h.urgent hfree u

theorem Part.urgentDue_bounded {o : Owner} {u : UrgentNotice} (h : p.traffic.Bounded k) :
    (p.urgentDue o u).traffic.Bounded k := by
  unfold Part.urgentDue
  split
  · rename_i hfree
    simp only [Bool.and_eq_true, decide_eq_true_eq] at hfree
    exact Part.sendUrgent_bounded h hfree.2
  · split
    · exact h
    · rwa [Part.bump_traffic, Part.markOwed_traffic]

theorem Part.moveOwedList_bounded {l : List Owed} (h : p.traffic.Bounded k) : (p.moveOwedList l).traffic.Bounded k := by
  induction l generalizing p with
  | nil => exact h
  | cons x xs ih =>
    unfold Part.moveOwedList
    split
    · rename_i hfree
      exact ih (Part.sendUrgent_bounded (by rwa [Part.markOwed_traffic]) (by simpa using hfree))
    · exact h

theorem Part.moveOwed_bounded (h : p.traffic.Bounded k) : p.moveOwed.traffic.Bounded k := Part.moveOwedList_bounded h

/-! ### Finalisation and cuts (R137, R140 to R143) -/

/-- A report joins an XR queue that holds fewer than 32 (R172). -/
theorem Part.placeReport_bounded {n : SlotNo} {ex : Exceedance} {r : Report} (h : p.traffic.Bounded k)
    (hroom : p.rlu.xr.length < 32) : (p.placeReport n ex r).traffic.Bounded k :=
  h.withXr (List.length_append.le.trans hroom)

theorem Part.finaliseEx_bounded {n : SlotNo} {ex : Exceedance} {c : Option CutFlag} (h : p.traffic.Bounded k) :
    (p.finaliseEx n ex c).traffic.Bounded k := by
  unfold Part.finaliseEx
  dsimp only
  split
  · exact h
  · split
    · rename_i hroom
      exact Part.placeReport_bounded h hroom
    · exact h

theorem Part.cutSlot_bounded {c : CutFlag} {n : SlotNo} (h : p.traffic.Bounded k) :
    (p.cutSlot c n).traffic.Bounded k := by
  unfold Part.cutSlot
  split
  · exact Part.finaliseEx_bounded h
  · exact h

theorem Part.foldl_cutSlot_bounded {c : CutFlag} {l : List SlotNo} (h : p.traffic.Bounded k) :
    (l.foldl (fun q n => q.cutSlot c n) p).traffic.Bounded k := by
  induction l generalizing p with
  | nil => exact h
  | cons n l ih =>
    rw [List.foldl_cons]
    exact ih (Part.cutSlot_bounded h)

theorem Part.cut_bounded {c : CutFlag} (h : p.traffic.Bounded k) : (p.cut c).traffic.Bounded k := by
  rw [Part.cut, Part.bump_traffic, Part.clearLatches_traffic]
  exact Part.foldl_cutSlot_bounded h

theorem Part.setPositionTo_bounded {m : Int} {d : Direction} (h : p.traffic.Bounded k) :
    (p.setPositionTo m d).traffic.Bounded k := by
  have hturned : (p.turnTo d).traffic = p.traffic := by simp [Part.traffic]
  have hadvanced : ∀ {q : Part}, q.traffic.Bounded k → (q.routeAdvance true).sectionAdvance.traffic.Bounded k :=
    fun hq => Part.sectionAdvance_bounded (Part.routeAdvance_bounded hq)
  rw [← hturned] at h
  unfold Part.setPositionTo
  dsimp only
  split
  · exact Part.cut_bounded (hadvanced h)
  · exact hadvanced h

/-! ### Judging a record (R127 to R136) -/

theorem Part.insideStep_bounded {n : SlotNo} {ex : Exceedance} {c : Nat} (h : p.traffic.Bounded k) :
    (p.insideStep n ex c).traffic.Bounded k := by
  unfold Part.insideStep
  split_ifs
  · exact h
  · exact Part.finaliseEx_bounded h
  · exact h

theorem Part.heldStep_bounded {n : SlotNo} {ex : Exceedance} (h : p.traffic.Bounded k) :
    (p.heldStep n ex).traffic.Bounded k := by
  unfold Part.heldStep
  dsimp only
  split
  · exact Part.finaliseEx_bounded h
  · exact h

theorem Part.contributeTo_bounded {n : SlotNo} {j : Pair} {ex : Exceedance} {r : Emitted} {v : Int} {g : Nat}
    (h : p.traffic.Bounded k) : (p.contributeTo n j ex r v g).traffic.Bounded k := by
  unfold Part.contributeTo
  dsimp only
  split
  · exact Part.urgentDue_bounded h
  · exact h

theorem Part.slotTakes_bounded {n : SlotNo} {j : Pair} {ph : SlotPhase} {ex : Exceedance} {r : Emitted}
    (h : p.traffic.Bounded k) : (p.slotTakes n j ph ex r).traffic.Bounded k := by
  unfold Part.slotTakes
  split
  · exact Part.finaliseEx_bounded h
  · cases ph with
    | opened =>
      dsimp only
      split
      · exact Part.insideStep_bounded h
      · exact Part.contributeTo_bounded h
    | closing =>
      dsimp only
      split
      · exact Part.insideStep_bounded h
      · exact Part.contributeTo_bounded h
    | held =>
      dsimp only
      split
      · exact Part.contributeTo_bounded h
      · exact Part.heldStep_bounded h

theorem Part.latchOut_bounded {j : Pair} {r : Emitted} {v : Int} {g : Nat} (h : p.traffic.Bounded k) :
    (p.latchOut j r v g).traffic.Bounded k := by
  unfold Part.latchOut
  split
  · exact Part.urgentDue_bounded h
  · exact h

theorem Part.latchTakes_bounded {j : Pair} {r : Emitted} (h : p.traffic.Bounded k) :
    (p.latchTakes j r).1.traffic.Bounded k := by
  unfold Part.latchTakes
  split
  · exact h
  · split_ifs
    · exact Part.latchOut_bounded h
    · exact h
    · exact h

theorem Part.mayOpen_bounded {j : Pair} {r : Emitted} (h : p.traffic.Bounded k) :
    (p.mayOpen j r).1.traffic.Bounded k := by
  have hopened : ∀ n v g, (p.openSlot n j r v g).traffic.Bounded k := fun n v g => by
    unfold Part.openSlot
    dsimp only
    split
    · exact Part.urgentDue_bounded h
    · exact h
  unfold Part.mayOpen
  split
  · exact h
  · split
    · split
      · exact hopened _ _ _
      · exact Part.latchOut_bounded (Part.raise_bounded h)
    · exact h

theorem Part.judgePair_bounded {j : Pair} {r : Emitted} (h : p.traffic.Bounded k) :
    (p.judgePair j r).1.traffic.Bounded k := by
  unfold Part.judgePair
  split
  · split
    · exact Part.slotTakes_bounded h
    · exact h
  · split
    · exact Part.latchTakes_bounded h
    · exact Part.mayOpen_bounded h

theorem Part.judgePairs_bounded {r : Emitted} {js : List Pair} (h : p.traffic.Bounded k) :
    (p.judgePairs r js).1.traffic.Bounded k := by
  induction js generalizing p with
  | nil => exact h
  | cons j js ih =>
    unfold Part.judgePairs
    exact ih (Part.judgePair_bounded h)

/-- All pairs take a record (R127). -/
theorem Part.judge_bounded {r : Emitted} (h : p.traffic.Bounded k) : (p.judge r).1.traffic.Bounded k :=
  Part.judgePairs_bounded h

/-! ### Emission, flush and capture (R85 to R88, R95 to R98) -/

theorem Part.emit_bounded {e : TraceEntry} (h : p.traffic.Bounded k) : (p.emit e).traffic.Bounded k := by
  rw [Part.emit, Part.bump_traffic, Part.withTru_traffic]
  exact Part.offerGr_bounded (Part.judge_bounded h)

theorem Part.foldl_emit_bounded {l : List TraceEntry} (h : p.traffic.Bounded k) :
    (l.foldl Part.emit p).traffic.Bounded k := by
  induction l generalizing p with
  | nil => exact h
  | cons e l ih =>
    rw [List.foldl_cons]
    exact ih (Part.emit_bounded h)

theorem Part.flush_bounded (h : p.traffic.Bounded k) : p.flush.traffic.Bounded k := by
  rw [Part.flush, Part.bumpBy_traffic, Part.withTru_traffic]
  exact Part.foldl_emit_bounded h

theorem Part.capture_bounded {t : TickData} (h : p.traffic.Bounded k) : (p.capture t).traffic.Bounded k := by
  have hentry : (p.captureEntry t).traffic.Bounded k := h
  unfold Part.capture Part.emitNext
  split
  · rw [Part.retain, Part.withTru_traffic]
    exact Part.emit_bounded hentry
  · exact hentry

/-! ### Run control (R152 to R162) -/

theorem Part.runTick_bounded {t : Time} (h : p.traffic.Bounded k) : (p.runTick t).traffic.Bounded k := by
  unfold Part.runTick
  split
  · exact h
  · exact h
  · exact h
  · rw [Part.startParkTimer, Part.withRnc_traffic, Part.freshWatchdogs_traffic]
    exact Part.raise_bounded h

theorem Part.parkEvent_bounded (h : p.traffic.Bounded k) : p.parkEvent.traffic.Bounded k := by
  have hstopped : ∀ q : Part, q.stopWatchdogs.emptySpeed.traffic = q.traffic := fun _ => rfl
  unfold Part.parkEvent
  split
  · rw [Part.enterParked, hstopped]
    exact Part.raise_bounded h
  · exact h

theorem Part.endRun_bounded (h : p.traffic.Bounded k) : p.endRun.traffic.Bounded k := by
  have hcut : (p.flush.cut .stop).traffic.Bounded k := Part.cut_bounded (Part.flush_bounded h)
  unfold Part.endRun Part.haltRun
  split
  · exact h
  · dsimp only
    split
    · rw [Part.freshWatchdogs_traffic]
      exact Part.raise_bounded (by rwa [Part.bump_traffic, Part.setRunState_traffic, Part.stopParkTimer_traffic])
    · rwa [Part.bump_traffic, Part.setRunState_traffic, Part.stopParkTimer_traffic]

/-! ### Ticks, reversals and the slots' own events -/

theorem Part.tickOnce_bounded {found : Bool} (h : p.traffic.Bounded k) : (p.tickOnce found).traffic.Bounded k := by
  have hadvanced : ∀ {q : Part}, q.traffic.Bounded k → q.tickAdvance.traffic.Bounded k := fun {q} hq => by
    unfold Part.tickAdvance
    split
    · exact hq
    · exact Part.sectionAdvance_bounded (Part.routeAdvance_bounded hq)
  have hrun : (((p.speedTick (p.tickData found)).bump .ticks).runTick
      (p.tickData found).time).tickAdvance.traffic.Bounded k :=
    hadvanced (Part.runTick_bounded (by rwa [Part.bump_traffic, Part.speedTick_traffic]))
  unfold Part.tickOnce Part.deliverTick
  dsimp only
  split
  · exact Part.capture_bounded hrun
  · exact hrun

theorem Part.switchTicks_bounded {found : Bool} {n : Nat} (h : p.traffic.Bounded k) :
    (p.switchTicks found n).traffic.Bounded k := by
  induction n generalizing p with
  | zero => exact h
  | succ n ih =>
    unfold Part.switchTicks
    split
    · exact ih (Part.tickOnce_bounded h)
    · exact h

theorem Part.tickEvent_bounded (h : p.traffic.Bounded k) : p.tickEvent.traffic.Bounded k := by
  unfold Part.tickEvent
  split
  · exact Part.switchTicks_bounded (Part.tickOnce_bounded (Part.comparison_bounded h))
  · exact h

theorem Part.watchEvent_bounded (h : p.traffic.Bounded k) : p.watchEvent.traffic.Bounded k := by
  have hcarried : ∀ {q : Part} {b}, q.traffic.Bounded k → (q.carrySlip b).traffic.Bounded k := id
  unfold Part.watchEvent
  split
  · exact Part.switchTicks_bounded (hcarried (Part.comparison_bounded h))
  · exact h

theorem Part.reversalEvent_bounded (h : p.traffic.Bounded k) : p.reversalEvent.traffic.Bounded k := by
  have hflushed : ∀ {q : Part}, q.traffic.Bounded k → q.reversalFlush.traffic.Bounded k := fun {q} hq => by
    unfold Part.reversalFlush
    split
    · exact Part.flush_bounded hq
    · exact Part.flush_bounded hq
    · exact hq
  have hlost : ∀ q : Part, q.loseLists.traffic = q.traffic := fun _ => rfl
  unfold Part.reversalEvent Part.reverse
  split
  · refine Part.cut_bounded (hflushed ?_)
    rw [hlost]
    exact Part.raise_bounded h
  · exact h

/-- An encoder step, the motion events that are due taken first (log 3). -/
theorem Part.encoderStep_bounded {c : Encoder} {a b : Bool} (h : p.traffic.Bounded k) :
    (p.settleMotion.phaseChange c a b).traffic.Bounded k := by
  rw [Part.phaseChange_traffic]
  exact Part.watchEvent_bounded (Part.tickEvent_bounded (Part.reversalEvent_bounded h))

theorem Part.closeEvent_bounded {n : SlotNo} (h : p.traffic.Bounded k) : (p.closeEvent n).traffic.Bounded k := by
  unfold Part.closeEvent
  split
  · split_ifs
    · exact h
    · exact Part.insideStep_bounded h
    · exact h
  · exact h

theorem Part.gapEvent_bounded {n : SlotNo} (h : p.traffic.Bounded k) : (p.gapEvent n).traffic.Bounded k := by
  unfold Part.gapEvent
  split
  · split_ifs
    · exact h
    · exact Part.heldStep_bounded h
    · exact h
  · exact h

/-! ### The leaving of a frame, and the passing of time (R143, R170) -/

/-- No frame in transmission any more. -/
theorem Traffic.Bounded.sent {x : Traffic} (h : x.Bounded k) :
    Traffic.Bounded k { x with rlu := { x.rlu with tx := none } } :=
  { h with
    downIdle := fun hdown => by
      obtain ⟨herrors, hcredits, _, hrx⟩ := h.downIdle hdown
      exact ⟨herrors, hcredits, rfl, hrx⟩ }

/-- The head of the pending list takes a place in an XR queue that holds fewer than 32 (R143). -/
theorem Part.promotePending_bounded (h : p.traffic.Bounded k) (hroom : p.rlu.xr.length < 32) :
    p.promotePending.traffic.Bounded k := by
  unfold Part.promotePending
  split
  · exact h
  · dsimp only
    split
    · exact Part.placeReport_bounded h hroom
    · exact h

theorem Part.leaveQueue_bounded {q : QueueId} (h : p.traffic.Bounded k) : (p.leaveQueue q).traffic.Bounded k := by
  cases q with
  | control => exact h.controlLeft
  | xr =>
    have hfull : p.rlu.xr.length ≤ 32 := h.xr
    have hroom : (p.rlu.xr.drop 1).length < 32 := by
      rw [List.length_drop]
      omega
    exact Part.promotePending_bounded (p := p.withRlu { p.rlu with xr := p.rlu.xr.drop 1 }) (h.withXr hroom.le) hroom
  | gr => exact h.withGr ((List.drop_sublist 1 _).length_le.trans h.gr)
  | mirror => exact h.withMirror ((List.drop_sublist 1 _).length_le.trans h.mirror)

theorem Part.leavingWith_bounded {owedFirst : Bool} (h : p.traffic.Bounded k) :
    (p.leavingWith owedFirst).traffic.Bounded k := by
  have hleft : p.leavingEvent.traffic.Bounded k := by
    unfold Part.leavingEvent
    split
    · exact h
    · dsimp only
      split
      · exact h.sent
      · exact Part.leaveQueue_bounded h.sent
  unfold Part.leavingWith
  split
  · exact hleft
  · exact Part.moveOwed_bounded hleft

/-- One microsecond moves the frame in transmission on, and starts and ends none. -/
theorem Part.elapse_bounded (h : p.traffic.Bounded k) : p.elapse.traffic.Bounded k :=
  { h with
    downIdle := fun hdown => by
      obtain ⟨herrors, hcredits, htx, hrx⟩ := h.downIdle hdown
      exact ⟨herrors, hcredits, Option.map_eq_none_iff.2 htx, hrx⟩ }

/-! ### Resets -/

/-- A hard reset leaves the READY notice alone in the queues (R177). -/
theorem reset_bounded : Part.reset.traffic.Bounded 0 where
  reservations := rfl
  relayed := rfl
  control := by decide
  nonUrgent := by decide
  xr := by decide
  gr := by decide
  mirror := by decide
  credits := by decide
  orders := by decide
  downIdle := fun _ => ⟨rfl, rfl, rfl, rfl⟩

theorem Part.hardReset_bounded (p : Part) (held : Bool) : (p.hardReset held).traffic.Bounded 0 := reset_bounded

theorem Part.resetBy_bounded {c : ResetCause} (h : p.traffic.Bounded 0) : (p.resetBy c).traffic.Bounded 0 := by
  cases c with
  | powerOn => exact p.hardReset_bounded false
  | heldLow => exact p.hardReset_bounded true
  | pulse ns =>
    unfold Part.resetBy
    dsimp only
    split
    · exact p.hardReset_bounded false
    · exact h

/-- A RESTART empties the queues, ends the relay, and keeps the link with its credits (R26, R177, R189). -/
theorem Part.restarted_bounded (h : p.traffic.Bounded k) : p.restarted.traffic.Bounded 0 where
  reservations := rfl
  relayed := rfl
  control := (by decide : 1 ≤ 16)
  nonUrgent := (by decide : 1 ≤ 12)
  xr := Nat.zero_le _
  gr := Nat.zero_le _
  mirror := Nat.zero_le _
  credits := h.credits
  orders := h.orders
  downIdle := fun hdown => by
    obtain ⟨herrors, hcredits, htx, hrx⟩ := h.downIdle hdown
    exact ⟨herrors, hcredits, Option.map_eq_none_iff.2 htx, hrx⟩

/-! ### Orders (R179 to R181, R187) -/

/-- A reply fills the reservation of its taking. -/
theorem Part.fillReservation_bounded {f : ControlFrame} (h : p.traffic.Bounded (k + 1)) :
    (p.fillReservation f).traffic.Bounded k := by
  have hreservations : p.rlu.reservations = k + p.oru.headReservation.isSome.toNat + 1 :=
    h.reservations.trans (Nat.add_right_comm _ _ _)
  exact { h.filled (x := p.traffic) hreservations f with relayed := h.relayed }

/-- An order at the head of the buffer is ready where R171 admits its reservation (R179). -/
theorem Part.admits_of_readyOrder {body : List Byte} (h : p.readyOrder = some body) : p.rlu.admitsNonUrgent = true := by
  unfold Part.readyOrder at h
  split at h
  · split at h
    · assumption
    · cases h
  · cases h

theorem Part.taken_bounded {body : List Byte} (h : p.traffic.Bounded 0) (hready : p.readyOrder = some body) :
    p.taken.traffic.Bounded 1 :=
  h.taken (Part.admits_of_readyOrder hready) (List.drop_sublist 1 p.oru.buffer).length_le

/-- An order row stays within the bounds where the carrying out ends the reservation of the taking. -/
theorem Part.orderRow_bounded {code : Nat} {sel : List Byte → Bool} {carry : Part → List Byte → Part}
    (h : p.traffic.Bounded 0)
    (hcarry : ∀ {q : Part} {body}, q.traffic.Bounded 1 → (carry q body).traffic.Bounded 0) :
    (p.orderRow code sel carry).traffic.Bounded 0 := by
  unfold Part.orderRow
  split
  · rename_i hready
    split
    · unfold Part.carryOut
      split
      · exact hcarry (Part.taken_bounded h hready)
      · exact Part.fillReservation_bounded (Part.taken_bounded h hready)
    · exact h
  · exact h

theorem Part.unknownRow_bounded (h : p.traffic.Bounded 0) : p.unknownRow.traffic.Bounded 0 := by
  unfold Part.unknownRow
  split
  · rename_i hready
    split
    · exact Part.fillReservation_bounded (Part.taken_bounded h hready)
    · exact h
  · exact h

/-- An owner that keeps the traffic within its bounds beside the reservation of the taking. -/
def KeepsTraffic (owner : Part → List Byte → Answer) : Prop :=
  ∀ (p : Part) (ps : List Byte), p.traffic.Bounded 1 → (owner p ps).part.traffic.Bounded 1

/-- An owner that leaves the traffic keeps it within its bounds. -/
theorem KeepsTraffic.of_leaves {owner : Part → List Byte → Answer}
    (h : ∀ p ps, (owner p ps).part.traffic = p.traffic) : KeepsTraffic owner := fun p ps hp => by rwa [h]

theorem setOrder_keepsTraffic : KeepsTraffic Part.setOrder := by
  have heffect : ∀ (q : Part) n a, (q.settingEffect n a).traffic = q.traffic := fun q n a => by
    unfold Part.settingEffect
    split
    · rfl
    · rfl
    · unfold Part.dropHeld
      split <;> rfl
    · unfold Part.validityTest
      split <;> rfl
    · rfl
    · rfl
    · rfl
  refine .of_leaves fun p ps => ?_
  unfold Part.setOrder
  dsimp only
  split
  · rfl
  · rfl
  · exact heffect _ _ _

theorem getOrder_keepsTraffic : KeepsTraffic Part.getOrder := by
  refine .of_leaves fun p ps => ?_
  unfold Part.getOrder
  dsimp only
  split <;> rfl

/-- The beginning of a run sets the GR dropped count to 0 (R153). -/
theorem Part.beginRun_traffic (p : Part) (n : BitVec 16) :
    (p.beginRun n).traffic = { p.traffic with rlu := { p.rlu with grDropped := 0 } } := rfl

theorem startOrder_keepsTraffic : KeepsTraffic Part.startOrder := by
  intro p ps h
  unfold Part.startOrder
  split
  · exact h
  · rw [Part.beginRun_traffic]
    exact { h with }

theorem stopOrder_keepsTraffic : KeepsTraffic Part.stopOrder := fun _ _ h => Part.endRun_bounded h

theorem positionOrder_keepsTraffic : KeepsTraffic Part.positionOrder := by
  intro p ps h
  unfold Part.positionOrder
  split
  · exact h
  · split
    · exact h
    · dsimp only
      exact Part.setPositionTo_bounded h

theorem appendRouteOrder_keepsTraffic : KeepsTraffic Part.appendRouteOrder := by
  refine .of_leaves fun p ps => ?_
  unfold Part.appendRouteOrder
  dsimp only
  split
  · rfl
  · simp [Part.traffic]

theorem appendSectionsOrder_keepsTraffic : KeepsTraffic Part.appendSectionsOrder := by
  refine .of_leaves fun p ps => ?_
  unfold Part.appendSectionsOrder
  dsimp only
  split
  · rfl
  · simp [Part.traffic]

theorem clearOrder_keepsTraffic : KeepsTraffic Part.clearOrder := by
  refine .of_leaves fun p ps => ?_
  unfold Part.clearOrder
  dsimp only
  split_ifs <;> rfl

theorem writeLimitsOrder_keepsTraffic : KeepsTraffic Part.writeLimitsOrder := by
  refine .of_leaves fun p ps => ?_
  unfold Part.writeLimitsOrder
  dsimp only
  split <;> rfl

theorem readLimitsOrder_keepsTraffic : KeepsTraffic Part.readLimitsOrder := by
  refine .of_leaves fun p ps => ?_
  unfold Part.readLimitsOrder
  dsimp only
  split <;> rfl

theorem writeMapOrder_keepsTraffic : KeepsTraffic Part.writeMapOrder := by
  refine .of_leaves fun p ps => ?_
  unfold Part.writeMapOrder
  dsimp only
  split_ifs <;> rfl

theorem readMapOrder_keepsTraffic : KeepsTraffic Part.readMapOrder := by
  refine .of_leaves fun p ps => ?_
  unfold Part.readMapOrder
  dsimp only
  split <;> rfl

theorem readStateOrder_keepsTraffic : KeepsTraffic Part.readStateOrder := by
  refine .of_leaves fun p ps => ?_
  unfold Part.readStateOrder
  split <;> rfl

theorem readCountersOrder_keepsTraffic : KeepsTraffic Part.readCountersOrder := by
  refine .of_leaves fun p ps => ?_
  unfold Part.readCountersOrder
  dsimp only
  split
  · dsimp only
    split <;> rfl
  · rfl

theorem restoreOrder_keepsTraffic : KeepsTraffic Part.restoreOrder := by
  intro p ps h
  unfold Part.restoreOrder
  split
  · exact h
  · dsimp only
    split
    · exact Part.writeHead_bounded h
    · exact h

/-- A head order is relayed while none is outstanding (R187). -/
theorem Part.free_of_headOrderCheck {ps : List Byte} {g : Head} (h : p.headOrderCheck ps = .ok g) :
    p.oru.headReservation.isSome = false := by
  unfold Part.headOrderCheck at h
  split at h
  · cases h
  · split_ifs at h with hrange hbusy
    exact Bool.eq_false_iff.2 fun hsome => hbusy (.inr hsome)

/-- A relayed head order keeps the reservation of its taking as its own; a refused one is answered (R187). -/
theorem Part.headOrder_bounded {body : List Byte} (h : p.traffic.Bounded 1) : (p.headOrder body).traffic.Bounded 0 := by
  unfold Part.headOrder
  split
  · rename_i hcheck
    have hreservations : p.rlu.reservations = 1 + p.oru.headReservation.isSome.toNat := h.reservations
    rw [Part.free_of_headOrderCheck hcheck] at hreservations
    exact { h with reservations := hreservations, relayed := rfl }
  · exact Part.fillReservation_bounded h

end

/-! ### Commands and steps -/

/-- A command whose effect keeps the traffic within its bounds. -/
theorem live_bounded {s t : State} {f : Part → Part} (h : s.part.traffic.Bounded 0) (ht : live s f = .next t)
    (hf : (f s.part).traffic.Bounded 0) : t.part.traffic.Bounded 0 :=
  live_keeps (Inv := fun p => p.traffic.Bounded 0) Part.moveOwed_bounded h hf ht

/-- An order whose owner keeps the traffic within its bounds. -/
theorem order_bounded {s t : State} {code : Nat} {sel : List Byte → Bool} {owner : Part → List Byte → Answer}
    (h : s.part.traffic.Bounded 0) (howner : KeepsTraffic owner)
    (ht : live s (Part.orderRow code sel (answered owner)) = .next t) : t.part.traffic.Bounded 0 :=
  live_bounded h ht (Part.orderRow_bounded h fun hq => Part.fillReservation_bounded (howner _ _ hq))

/-- Every command keeps the traffic within its bounds. -/
theorem exec_bounded (i : Instr) (s t : State) (h : s.part.traffic.Bounded 0) (ht : exec i s = .next t) :
    t.part.traffic.Bounded 0 := by
  cases i with
  | hardReset c =>
    cases ht
    exact Part.moveOwed_bounded (Part.resetBy_bounded h)
  | resetNRisingEdge =>
    simp only [exec, execResetNRisingEdge] at ht
    split at ht
    · cases ht
      exact s.part.hardReset_bounded false
    · exact live_bounded h ht h
  | headLinkCharacter line => exact live_bounded (f := fun p => p.headChar (lineCharOf line)) h ht (Part.headChar_bounded h)
  | sampleFrame chars => exact live_bounded (f := fun p => p.headFrame chars) h ht (Part.headFrame_bounded h)
  | markerFrame chars => exact live_bounded (f := fun p => p.headFrame chars) h ht (Part.headFrame_bounded h)
  | statusFrame chars => exact live_bounded (f := fun p => p.headFrame chars) h ht (Part.headFrame_bounded h)
  | replyFrame chars => exact live_bounded (f := fun p => p.headFrame chars) h ht (Part.headFrame_bounded h)
  | headLinkLossOfSignal => exact live_bounded h ht (Part.headLoss_bounded h)
  | headLinkLock => exact live_bounded h ht (by rwa [Part.lockEvent_traffic])
  | watchdogExpiry g => exact live_bounded h ht (Part.watchdogEvent_bounded h)
  | freshnessDeadline g =>
    have hfresh : (s.part.freshnessEvent g).traffic = s.part.traffic := by simp [Part.traffic]
    exact live_bounded h ht (hfresh ▸ h)
  | relayFrameSent => exact live_bounded h ht (s.part.relaySentEvent_traffic ▸ h)
  | relayTimeout => exact live_bounded h ht (Part.relayTimeoutEvent_bounded h)
  | encoderStep c a b =>
    simp only [exec, execEncoderStep] at ht
    split at ht
    · cases ht
      exact h
    · exact live_bounded h ht (Part.encoderStep_bounded h)
  | tick => exact live_bounded h ht (Part.tickEvent_bounded h)
  | watchPoint => exact live_bounded h ht (Part.watchEvent_bounded h)
  | reversal => exact live_bounded h ht (Part.reversalEvent_bounded h)
  | closeLengthReached n => exact live_bounded (f := fun p => p.closeEvent n) h ht (Part.closeEvent_bounded h)
  | mergeGapExceeded n => exact live_bounded (f := fun p => p.gapEvent n) h ht (Part.gapEvent_bounded h)
  | historyExpiry =>
    have hempty : s.part.historyEvent.traffic = s.part.traffic := by simp [Part.traffic]
    exact live_bounded h ht (hempty ▸ h)
  | fixValidityExceeded =>
    have htest : s.part.validityTest.traffic = s.part.traffic := by simp [Part.traffic]
    exact live_bounded h ht (htest ▸ h)
  | parkTimerExpiry => exact live_bounded h ht (Part.parkEvent_bounded h)
  | recorderLinkCharacter line =>
    exact live_bounded (f := fun p => p.recorderChar (lineCharOf line)) h ht (Part.recorderChar_bounded h)
  | orderFrame chars => exact live_bounded (f := fun p => p.recorderFrame chars) h ht (Part.recorderFrame_bounded h)
  | creditFrame chars => exact live_bounded (f := fun p => p.recorderFrame chars) h ht (Part.recorderFrame_bounded h)
  | unknownKind chars => exact live_bounded (f := fun p => p.recorderFrame chars) h ht (Part.recorderFrame_bounded h)
  | recorderLossOfSignal => exact live_bounded h ht (Part.recorderLoss_bounded h)
  | recorderLinkUp => exact live_bounded h ht (Part.linkUpEvent_bounded h)
  | arbiterStart => exact live_bounded h ht (Part.arbiterEvent_bounded h)
  | frameLeaving b =>
    simp only [exec, execFrameLeaving, unheld] at ht
    split at ht
    · cases ht
      exact h
    · cases ht
      exact Part.leavingWith_bounded h
  | unknownOrder => exact live_bounded h ht (Part.unknownRow_bounded h)
  | set => exact order_bounded h setOrder_keepsTraffic ht
  | setRecordSpacing => exact order_bounded h setOrder_keepsTraffic ht
  | setHeadShape => exact order_bounded h setOrder_keepsTraffic ht
  | setLeadEncoder => exact order_bounded h setOrder_keepsTraffic ht
  | setFixValidityDistance => exact order_bounded h setOrder_keepsTraffic ht
  | setRouteLowWater => exact order_bounded h setOrder_keepsTraffic ht
  | setSectionLowWater => exact order_bounded h setOrder_keepsTraffic ht
  | startRun => exact order_bounded h startOrder_keepsTraffic ht
  | stopRun => exact order_bounded h stopOrder_keepsTraffic ht
  | setPosition => exact order_bounded h positionOrder_keepsTraffic ht
  | appendRoute => exact order_bounded h appendRouteOrder_keepsTraffic ht
  | appendSections => exact order_bounded h appendSectionsOrder_keepsTraffic ht
  | clearLists => exact order_bounded h clearOrder_keepsTraffic ht
  | identify => exact order_bounded h (.of_leaves (owner := Part.identifyOrder) fun _ _ => rfl) ht
  | get => exact order_bounded h getOrder_keepsTraffic ht
  | writeLimits => exact order_bounded h writeLimitsOrder_keepsTraffic ht
  | readLimits => exact order_bounded h readLimitsOrder_keepsTraffic ht
  | writeInputMap => exact order_bounded h writeMapOrder_keepsTraffic ht
  | readInputMap => exact order_bounded h readMapOrder_keepsTraffic ht
  | readState => exact order_bounded h readStateOrder_keepsTraffic ht
  | readCounters => exact order_bounded h readCountersOrder_keepsTraffic ht
  | readEvents => exact order_bounded h (.of_leaves (owner := Part.readEventsOrder) fun _ _ => rfl) ht
  | setNoticeMask => exact order_bounded h (.of_leaves (owner := Part.noticeMaskOrder) fun _ _ => rfl) ht
  | restoreHead => exact order_bounded h restoreOrder_keepsTraffic ht
  | headOrder => exact live_bounded h ht (Part.orderRow_bounded h Part.headOrder_bounded)
  | restart => exact live_bounded h ht (Part.orderRow_bounded h Part.restarted_bounded)

/-- Settles O55: every operation offers to a queue that has room, or replaces what it drops; a taking's reservation is filled by its reply or kept by the head order that it relays. -/
theorem queuesStayBounded : Obligations.QueuesStayBounded := by
  have hkeeps : StepKeeps fun p => p.traffic.Bounded 0 :=
    stepKeeps_of_exec exec_bounded Part.moveOwed_bounded Part.elapse_bounded
  unfold Obligations.QueuesStayBounded
  intro s t h ht
  rw [← Part.traffic_bounded_iff] at h ⊢
  exact hkeeps s t h ht

/-! ## The outbound arbiter (R168, R170) -/

section
variable {p : Part}

/-- The start of the frame that is next, where the arbiter may start one (R170). -/
theorem Part.arbiterEvent_starts {q : QueueId} {kind : Nat} {body : List Byte} (hmay : p.rlu.mayStart = true)
    (hnext : p.rlu.nextFrame = some (q, kind, body)) : p.arbiterEvent = Part.bump { p with rlu := { p.rlu with
      credits := p.rlu.credits - 1
      tx := some ⟨q, outboundBytes kind body, 0, false⟩ } } .framesStarted := by
  rw [Part.arbiterEvent, if_pos hmay, hnext]
  rfl

/-- Where the arbiter may not start a frame, nothing happens. -/
theorem Part.arbiterEvent_waits (hmay : ¬ p.rlu.mayStart = true) : p.arbiterEvent = p := if_neg hmay

/-- With every queue empty nothing is next. -/
theorem Part.arbiterEvent_empty (hnext : p.rlu.nextFrame = none) : p.arbiterEvent = p := by
  rw [Part.arbiterEvent, hnext]
  exact ite_self _

end

section
variable {r : Rlu}

/-! ### The frame that is next: the head of the first queue that is not empty -/

theorem Rlu.nextFrame_control {f : ControlFrame} {l : List ControlFrame} (hc : r.control = f :: l) :
    r.nextFrame = some (.control, f.kind, f.body) := by
  simp [Rlu.nextFrame, hc]

theorem Rlu.nextFrame_xr {x : Report} {l : List Report} (hc : r.control = []) (hx : r.xr = x :: l) :
    r.nextFrame = some (.xr, 2, x.body) := by
  simp [Rlu.nextFrame, hc, hx]

theorem Rlu.nextFrame_gr {g : GeometryRecord} {l : List GeometryRecord} (hc : r.control = []) (hx : r.xr = [])
    (hg : r.gr = g :: l) : r.nextFrame = some (.gr, 1, g.body) := by
  simp [Rlu.nextFrame, hc, hx, hg]

theorem Rlu.nextFrame_mirror {m : MirrorFrame} {l : List MirrorFrame} (hc : r.control = []) (hx : r.xr = [])
    (hg : r.gr = []) (hm : r.mirror = m :: l) : r.nextFrame = some (.mirror, 6, m.body) := by
  simp [Rlu.nextFrame, hc, hx, hg, hm]

theorem Rlu.nextFrame_none (hc : r.control = []) (hx : r.xr = []) (hg : r.gr = []) (hm : r.mirror = []) :
    r.nextFrame = none := by
  simp [Rlu.nextFrame, hc, hx, hg, hm]

end

/-- Settles O32: each queue's head by what is next, and nothing where a start may not be made or nothing is next. -/
theorem arbiterStarts : Obligations.ArbiterStarts := by
  unfold Obligations.ArbiterStarts
  intro s h p started
  have hlive : exec .arbiterStart s = nextWith s s.part.arbiterEvent := live_nextWith s _ h
  rw [hlive]
  refine ⟨fun hup htx hcredit => ?_, fun hnot => ?_⟩
  · have hmay : s.part.rlu.mayStart = true := s.part.rlu.mayStart_iff.2 ⟨hup, htx, hcredit⟩
    refine ⟨fun f l hc => ?_, fun x l hc hx => ?_, fun g l hc hx hg => ?_, fun m l hc hx hg hm => ?_⟩
    · rw [Part.arbiterEvent_starts hmay (Rlu.nextFrame_control hc)]
      cases f <;> rfl
    · rw [Part.arbiterEvent_starts hmay (Rlu.nextFrame_xr hc hx)]
    · rw [Part.arbiterEvent_starts hmay (Rlu.nextFrame_gr hc hx hg)]
    · rw [Part.arbiterEvent_starts hmay (Rlu.nextFrame_mirror hc hx hg hm)]
  · congr 1
    obtain hlink | htx | hcredit | ⟨hc, hx, hg, hm⟩ := hnot
    · exact Part.arbiterEvent_waits fun hmay => hlink (s.part.rlu.mayStart_iff.1 hmay).1
    · exact Part.arbiterEvent_waits fun hmay => htx (s.part.rlu.mayStart_iff.1 hmay).2.1
    · exact Part.arbiterEvent_waits fun hmay => by
        have hone := (s.part.rlu.mayStart_iff.1 hmay).2.2
        exact absurd hcredit (Nat.one_le_iff_ne_zero.1 hone)
    · exact Part.arbiterEvent_empty (Rlu.nextFrame_none hc hx hg hm)

/-! ## The GR queue (R173) -/

/-- An event is told by its number (section 12.3). -/
theorem Event.number_injective : Function.Injective Event.number :=
  Function.LeftInverse.injective (g := Event.ofNat) fun e => by cases e <;> rfl

/-- The flags with one more set: its own and those that were set. -/
theorem flagsWith_iff (flags : BitVec 20) (e f : Event) :
    (flagsWith flags e).getLsbD f.number = true ↔ flags.getLsbD f.number = true ∨ f = e := by
  have hlt : f.number < 20 := by cases f <;> decide
  have hbit : (1#20 <<< e.number).getLsbD f.number = true ↔ f = e := by
    rw [← Event.number_injective.eq_iff, BitVec.getLsbD_shiftLeft, BitVec.getLsbD_one]
    simp only [Bool.and_eq_true, decide_eq_true_eq, Bool.not_eq_true', decide_eq_false_iff_not]
    omega
  rw [flagsWith, BitVec.getLsbD_or, Bool.or_eq_true, hbit]

/-- Raising an event sets its own flag and, where its notice is lost, NOTICE_LOST (R190, R191). -/
theorem Part.raise_flagSet_iff (p : Part) {e f : Event} (hf : f ≠ .noticeLost) :
    (p.raise e).flagSet f = true ↔ p.flagSet f = true ∨ f = e := by
  unfold Part.raise
  split
  · rename_i hset
    exact ⟨.inl, fun h => h.elim id fun hfe => hfe ▸ hset⟩
  · split
    · unfold Part.offerNotice
      split
      · exact flagsWith_iff _ _ _
      · refine (flagsWith_iff _ _ _).trans ?_
        rw [or_iff_left hf]
        exact flagsWith_iff _ _ _
    · exact flagsWith_iff _ _ _

/-- Raising an event adds nothing but status notices to the control queue (R191). -/
theorem Part.raise_noticesJoined (p : Part) (e : Event) : p.NoticesJoined (p.raise e) := by
  obtain hsame | ⟨_, c, f, n, r, hplaced⟩ := p.raise_rlu e
  · exact ⟨[], by rw [hsame, List.append_nil], by simp⟩
  · refine ⟨[.status c f n r], congrArg Rlu.control hplaced, fun x hx => ?_⟩
    exact ⟨c, f, n, r, List.mem_singleton.1 hx⟩

/-- Raising an event touches the Recorder Link Unit and the Event Unit alone. -/
theorem Part.raise_blocks (p : Part) (e : Event) :
    p.raise e = { p with rlu := (p.raise e).rlu, evu := (p.raise e).evu } := by
  unfold Part.raise
  split
  · rfl
  · split
    · unfold Part.offerNotice
      split <;> rfl
    · rfl

/-- Raising an event leaves all of the Recorder Link Unit but the control queue. -/
theorem Part.raise_rlu_control (p : Part) (e : Event) :
    (p.raise e).rlu = { p.rlu with control := (p.raise e).rlu.control } := by
  obtain hsame | ⟨_, c, f, n, r, hplaced⟩ := p.raise_rlu e
  · rw [hsame]
  · rw [hplaced]
    rfl

/-- A record offered while there is room joins the tail. -/
theorem Part.offerGr_room {p : Part} (g : GeometryRecord) (h : p.rlu.gr.length < 64) :
    p.offerGr g = { p with rlu := { p.rlu with gr := p.rlu.gr ++ [g] } } := if_pos h

/-- A record offered to a full queue takes the place of the oldest that is not in transmission. -/
theorem Part.offerGr_full {p : Part} {g d : GeometryRecord} {l : List GeometryRecord} (h : 64 ≤ p.rlu.gr.length)
    (hdrop : dropOldest p.rlu.sendingGr p.rlu.gr g = (some d, l)) :
    p.offerGr g = (p.withRlu { p.rlu with gr := l }).countDrop d := by
  have hfull : ¬ p.rlu.gr.length < Config.grCapacity := Nat.not_lt.2 h
  rw [Part.offerGr, if_neg hfull, hdrop]

/-- The count of a dropped record carried to the one behind it, where that belongs to the same run (R173, log 44). -/
theorem carryDrop_cons (d x : GeometryRecord) (l : List GeometryRecord) : carryDrop d (x :: l) =
    (if x.run = d.run then { x with droppedBefore := min (x.droppedBefore + (d.droppedBefore + 1)) 4294967295 } else x)
      :: l := by
  rw [carryDrop]
  split <;> rfl

/-- The part with a record dropped from the GR queue and the drop counted, before GR_DROPPED is raised (R173). -/
def Part.dropCounted (p : Part) (d : GeometryRecord) (l : List GeometryRecord) : Part :=
  Part.bump { p with rlu := { p.rlu with
    gr := l
    grDropped := if d.run = p.rnc.runIndex then counterUp 1 p.rlu.grDropped else p.rlu.grDropped } } .grDrops

theorem Part.countDrop_eq (p : Part) (d : GeometryRecord) (l : List GeometryRecord) :
    (p.withRlu { p.rlu with gr := l }).countDrop d = (p.dropCounted d l).raise .grDropped := rfl

theorem Part.dropCounted_counters (p : Part) (d : GeometryRecord) (l : List GeometryRecord) (i : Fin 109) :
    (p.dropCounted d l).evu.counters[i] =
      if Counter.grDrops.index = i then counterUp 1 p.evu.counters[i] else p.evu.counters[i] :=
  Part.bumpBy_counters _ .grDrops 1 i

/-- What a drop leaves (R173): the queue without the dropped record, the GR dropped count of its run, the drop counter and GR_DROPPED, and nothing else but status notices. -/
theorem Part.countDrop_spec (p : Part) (d : GeometryRecord) (l : List GeometryRecord) :
    let q := (p.withRlu { p.rlu with gr := l }).countDrop d
    q = { p with rlu := q.rlu, evu := q.evu } ∧
      q.rlu = { p.rlu with
        control := q.rlu.control
        gr := l
        grDropped := if d.run = p.rnc.runIndex then counterUp 1 p.rlu.grDropped else p.rlu.grDropped } ∧
      p.NoticesJoined q ∧ q.counter .grDrops = counterUp 1 (p.counter .grDrops) ∧
      p.CountersKeptBut q [.grDrops, .statusSent, .noticesLost] ∧ p.Raised q [.grDropped] := by
  intro q
  have hq : q = (p.dropCounted d l).raise .grDropped := p.countDrop_eq d l
  rw [hq]
  refine ⟨(p.dropCounted d l).raise_blocks _, (p.dropCounted d l).raise_rlu_control _,
    (p.dropCounted d l).raise_noticesJoined _, ?_, fun i hi => ?_, Part.raise_mask _ _, fun e he => ?_⟩
  · rw [Part.counter, Part.raise_counters _ _ _ (by decide) (by decide), Part.dropCounted_counters, if_pos rfl]
    rfl
  · rw [Part.raise_counters _ _ _ (hi .statusSent (by simp)).symm (hi .noticesLost (by simp)).symm,
      Part.dropCounted_counters, if_neg (hi .grDrops (by simp))]
  · rw [Part.raise_flagSet_iff _ he, List.mem_singleton]
    rfl

/-- Settles O28: room, or a drop with the oldest record in transmission or not. -/
theorem geometryRecordOffered : Obligations.GeometryRecordOffered := by
  unfold Obligations.GeometryRecordOffered
  intro p g q carried dropped
  refine ⟨Part.offerGr_room g, fun d x l hgr hlen hsending => ?_, fun h d x l hgr hlen hsending => ?_⟩
  · have hdrop : dropOldest p.rlu.sendingGr p.rlu.gr g = (some d, carried d x :: l ++ [g]) := by
      rw [hsending, hgr]
      exact congrArg (Prod.mk _) (carryDrop_cons d x (l ++ [g]))
    have hfull : 64 ≤ p.rlu.gr.length := by
      rw [hgr, List.length_cons, List.length_cons]
      omega
    have hq : q = (p.withRlu { p.rlu with gr := carried d x :: l ++ [g] }).countDrop d := Part.offerGr_full hfull hdrop
    simp only [dropped, hq]
    exact p.countDrop_spec d _
  · have hdrop : dropOldest p.rlu.sendingGr p.rlu.gr g = (some d, h :: carried d x :: l ++ [g]) := by
      rw [hsending, hgr]
      exact congrArg (fun t => (some d, h :: t)) (carryDrop_cons d x (l ++ [g]))
    have hfull : 64 ≤ p.rlu.gr.length := by
      rw [hgr, List.length_cons, List.length_cons, List.length_cons]
      omega
    have hq : q = (p.withRlu { p.rlu with gr := h :: carried d x :: l ++ [g] }).countDrop d :=
      Part.offerGr_full hfull hdrop
    simp only [dropped, hq]
    exact p.countDrop_spec d _

/-! ## The states of the recorder link (R165 to R167) -/

section
variable {p : Part} {c : LineChar}

/-- A code violation is counted in every link state (R166). -/
theorem Part.countRecorderViolation_eq (p : Part) (c : LineChar) :
    p.countRecorderViolation c = if c = .violation then p.bump .recorderCodeViolations else p := by
  cases c <;> rfl

theorem Part.linkUpDue_iff (p : Part) : p.linkUpDue = true ↔ p.rlu.link = .hunt ∧ 64 ≤ p.rlu.idleRun := by
  simp [Part.linkUpDue]

/-- The part with the link gone UP after its hunt (R165). -/
def Part.linkUp (p : Part) : Part := { p with rlu := { p.rlu with link := .up, idleRun := 0, idleTally := 0 } }

theorem Part.linkUpEvent_due (hlink : p.rlu.link = .hunt) (hrun : 64 ≤ p.rlu.idleRun) : p.linkUpEvent = p.linkUp :=
  if_pos (p.linkUpDue_iff.2 ⟨hlink, hrun⟩)

theorem Part.linkUpEvent_not_due (h : p.rlu.link ≠ .hunt ∨ p.rlu.idleRun < 64) : p.linkUpEvent = p := by
  refine if_neg fun hdue => ?_
  obtain ⟨hlink, hrun⟩ := p.linkUpDue_iff.1 hdue
  exact h.elim (fun hne => hne hlink) (Nat.not_lt.2 hrun)

/-- The idle run of a hunt (R165). -/
theorem Part.charHunt_eq (p : Part) (c : LineChar) : p.charHunt c =
    { p with rlu := { p.rlu with idleRun := if c = .idle then min (p.rlu.idleRun + 1) 64 else 0 } } := by
  cases c <;> rfl

/-- A character in DOWN begins the hunt. -/
theorem Part.recorderChar_down (hlink : p.rlu.link = .down) : p.recorderChar c =
    { p.countRecorderViolation c with rlu := { p.rlu with
      link := .hunt, idleRun := if c = .idle then 1 else 0 } } := by
  have hcount : (p.countRecorderViolation c).rlu = p.rlu := by simp
  rw [Part.recorderChar, Part.linkUpEvent_not_due (.inl (by simp [hlink])), Part.recorderTaken, hcount, hlink]
  dsimp only
  rw [Part.charHunt_eq]
  rfl

/-- A character in HUNT before the 64th IDLE in a row. -/
theorem Part.recorderChar_hunt (hlink : p.rlu.link = .hunt) (hrun : p.rlu.idleRun < 64) : p.recorderChar c =
    { p.countRecorderViolation c with rlu := { p.rlu with
      idleRun := if c = .idle then p.rlu.idleRun + 1 else 0 } } := by
  have hcount : (p.countRecorderViolation c).rlu = p.rlu := by simp
  rw [Part.recorderChar, Part.linkUpEvent_not_due (.inr hrun), Part.recorderTaken, hcount, hlink]
  dsimp only
  rw [Part.charHunt_eq, hcount, Nat.min_eq_left hrun]

/-- A link that has gone UP is UP before the next character (log 3). -/
theorem Part.recorderChar_linkUp (hlink : p.rlu.link = .hunt) (hrun : 64 ≤ p.rlu.idleRun) :
    p.recorderChar c = p.linkUp.recorderChar c := by
  rw [Part.recorderChar, Part.linkUpEvent_due hlink hrun, Part.recorderChar, p.linkUp.linkUpEvent_up rfl]

/-- An IDLE character in UP: the tally, and every 256th lowers the link error count (R166). -/
theorem Part.tallyIdle_eq (p : Part) : p.tallyIdle = { p with rlu := { p.rlu with
    idleTally := if p.rlu.idleTally = 255 then 0 else p.rlu.idleTally + 1
    linkErrors := if p.rlu.idleTally = 255 then p.rlu.linkErrors - 1 else p.rlu.linkErrors } } := by
  unfold Part.tallyIdle
  split <;> rfl

/-- A code violation in UP is counted before it is judged. -/
theorem Part.recorderChar_violation (hup : p.rlu.link = .up) :
    p.recorderChar .violation = (p.bump .recorderCodeViolations).inboundViolation := by
  have hcounted : (p.bump .recorderCodeViolations).rlu.link = .up := hup
  rw [Part.recorderChar, p.linkUpEvent_up hup]
  show (p.bump .recorderCodeViolations).recorderTaken .violation = _
  rw [Part.recorderTaken, hcounted]
  rfl

/-! ### A character outside a frame -/

theorem Part.inboundStart_outside (hrx : p.rlu.rx = none) : p.inboundStart = p.setInbound (some []) := by
  rw [Part.inboundStart, hrx]

theorem Part.inboundEnd_outside (hrx : p.rlu.rx = none) : p.inboundEnd = p := by
  rw [Part.inboundEnd, hrx]

theorem Part.inboundData_outside (hrx : p.rlu.rx = none) (b : Byte) : p.inboundData b = p := by
  rw [Part.inboundData, hrx]

theorem Part.inboundViolation_outside (hrx : p.rlu.rx = none) : p.inboundViolation = p.linkErred p.rlu.rx := by
  rw [Part.inboundViolation, hrx, Part.recorderError_eq, hrx]

/-! ### A link error, and the going DOWN -/

/-- A link error below the threshold raises the count (R166). -/
theorem Part.linkErred_below {rx : Option (List Byte)}
    (h : min (p.rlu.linkErrors + 1) 63 < p.oru.settings.recorderErrorThreshold) :
    p.linkErred rx = { p with rlu := { p.rlu with linkErrors := min (p.rlu.linkErrors + 1) 63, rx := rx } } := if_pos h

/-- A link error at the threshold takes the link DOWN (R166). -/
theorem Part.linkErred_reached {rx : Option (List Byte)}
    (h : p.oru.settings.recorderErrorThreshold ≤ min (p.rlu.linkErrors + 1) 63) : p.linkErred rx = p.linkDowned :=
  if_neg (Nat.not_lt.2 h)

/-- Going DOWN forgets a going UP. -/
theorem Part.linkUp_linkDowned (p : Part) : p.linkUp.linkDowned = p.linkDowned := by
  unfold Part.linkDowned Part.linkUp
  by_cases h : p.rlu.tx = none <;> simp [h, Part.bump, Part.bumpBy, Part.withEvu]

/-- A loss of signal takes HUNT and UP to DOWN (R165). -/
theorem Part.recorderLoss_eq (hlink : p.rlu.link ≠ .down) : p.recorderLoss = p.linkDowned := by
  by_cases hdue : p.rlu.link = .hunt ∧ 64 ≤ p.rlu.idleRun
  · rw [Part.recorderLoss, Part.linkUpEvent_due hdue.1 hdue.2, ← p.linkUp_linkDowned, ← Part.goDown_eq]
    rfl
  · have hnot : p.rlu.link ≠ .hunt ∨ p.rlu.idleRun < 64 := by
      rw [← Nat.not_le, ← not_and_or]
      exact hdue
    rw [Part.recorderLoss, Part.linkUpEvent_not_due hnot, ← Part.goDown_eq]
    exact if_neg hlink

/-- A loss of signal in DOWN changes nothing. -/
theorem Part.recorderLoss_down (hlink : p.rlu.link = .down) : p.recorderLoss = p := by
  rw [Part.recorderLoss, Part.linkUpEvent_not_due (.inl (by simp [hlink]))]
  exact if_pos hlink

end

/-- A character on the recorder link with RESET_N high, and the owed notices that then move. -/
theorem recorderCharacter_nextWith {s : State} {line : BitVec 10} {q : Part} (h : s.part.resetHeld = false)
    (hq : s.part.recorderChar (lineCharOf line) = q) : exec (.recorderLinkCharacter line) s = nextWith s q := by
  rw [← hq]
  exact live_nextWith s (fun p => p.recorderChar (lineCharOf line)) h

/-- Settles O29, link state by link state. -/
theorem recorderLinkStates : Obligations.RecorderLinkStates := by
  unfold Obligations.RecorderLinkStates
  intro s line h p p0
  have hcount : s.part.countRecorderViolation (lineCharOf line) = p0 := Part.countRecorderViolation_eq _ _
  have hcounted : lineCharOf line = .violation → p.bump .recorderCodeViolations = p0 := fun hv => (if_pos hv).symm
  have hup : exec .recorderLinkUp s = nextWith s s.part.linkUpEvent := live_nextWith s _ h
  have hloss : exec .recorderLossOfSignal s = nextWith s s.part.recorderLoss := live_nextWith s _ h
  rw [hup, hloss]
  refine ⟨fun hlink => ?_, fun hlink hrun => ?_, fun hlink hrun => ?_, fun hnot => ?_, fun hlink hrun => ?_,
    fun hlink hidle => ?_, fun hlink hrx hv hbelow => ?_, fun hlink hrx hv hreached => ?_,
    fun hlink hrx => ⟨fun hstart => ?_, fun hother => ?_⟩, fun hlink => ?_, fun hlink => ?_⟩
  · exact recorderCharacter_nextWith h (by rw [Part.recorderChar_down hlink, hcount])
  · exact recorderCharacter_nextWith h (by rw [Part.recorderChar_hunt hlink hrun, hcount])
  · rw [Part.linkUpEvent_due hlink hrun]
    rfl
  · rw [Part.linkUpEvent_not_due hnot]
  · rw [recorderCharacter_nextWith h (Part.recorderChar_linkUp hlink hrun)]
    exact (recorderCharacter_nextWith (s := { s with part := s.part.linkUp }) h rfl).symm
  · refine recorderCharacter_nextWith h ?_
    rw [hidle, Part.recorderChar_up _ _ hlink (by simp)]
    exact s.part.tallyIdle_eq
  · refine recorderCharacter_nextWith h ?_
    rw [hv, Part.recorderChar_violation hlink,
      Part.inboundViolation_outside (p := s.part.bump .recorderCodeViolations) hrx,
      Part.linkErred_below (p := s.part.bump .recorderCodeViolations) hbelow, ← hcounted hv]
    rfl
  · refine recorderCharacter_nextWith h ?_
    rw [hv, Part.recorderChar_violation hlink,
      Part.inboundViolation_outside (p := s.part.bump .recorderCodeViolations) hrx,
      Part.linkErred_reached (p := s.part.bump .recorderCodeViolations) hreached, ← hcounted hv]
  · refine recorderCharacter_nextWith h ?_
    rw [hstart, Part.recorderChar_up _ _ hlink (by simp)]
    exact Part.inboundStart_outside hrx
  · refine recorderCharacter_nextWith h ?_
    obtain hend | ⟨b, hdata⟩ := hother
    · rw [hend, Part.recorderChar_up _ _ hlink (by simp)]
      exact Part.inboundEnd_outside hrx
    · rw [hdata, Part.recorderChar_up _ _ hlink (by simp)]
      exact Part.inboundData_outside hrx b
  · rw [Part.recorderLoss_eq hlink]
    rfl
  · rw [Part.recorderLoss_down hlink]

/-! ## Inbound frames (R168, R169, R178) -/

/-- What a FRAME END finds right: three bytes at least, the length of the length field, and the CRC (R168). -/
theorem inboundOk_iff (bytes : List Byte) : inboundOk bytes = true ↔
    3 ≤ bytes.length ∧ bytes.length = 5 + inboundLength bytes ∧
      crcBytes (bytes.take (bytes.length - 2)) = bytes.drop (bytes.length - 2) := by
  simp [inboundOk, and_assoc]

/-- What a data character finds wrong: a length above 1024, or a character beyond the length (R168). -/
theorem inboundTooLong_iff (bytes : List Byte) : inboundTooLong bytes = true ↔
    3 ≤ bytes.length ∧ (1024 < inboundLength bytes ∨ 5 + inboundLength bytes < bytes.length) := by
  simp [inboundTooLong]

section
variable {p : Part} {bytes : List Byte}

/-! ### A character inside a frame: each fault is one check failure -/

theorem Part.inboundStart_inside (hrx : p.rlu.rx = some bytes) (hup : p.rlu.link = .up) :
    p.inboundStart = (p.bump .checkFailures).linkErred (some []) := by
  rw [Part.inboundStart, hrx]
  dsimp only
  rw [Part.checkFailure_eq]
  exact (p.bump .checkFailures).linkErred_up (some []) hup

theorem Part.inboundViolation_inside (hrx : p.rlu.rx = some bytes) :
    p.inboundViolation = (p.bump .checkFailures).linkErred none := by
  rw [Part.inboundViolation, hrx, ← Part.checkFailure_eq]

theorem Part.inboundEnd_failed (hrx : p.rlu.rx = some bytes) (hbad : ¬ inboundOk bytes = true) :
    p.inboundEnd = (p.bump .checkFailures).linkErred none := by
  rw [Part.inboundEnd, hrx, ← Part.checkFailure_eq]
  exact if_neg hbad

theorem Part.inboundData_failed {b : Byte} (hrx : p.rlu.rx = some bytes) (hlong : inboundTooLong (bytes ++ [b]) = true) :
    p.inboundData b = (p.bump .checkFailures).linkErred none := by
  rw [Part.inboundData, hrx, ← Part.checkFailure_eq]
  exact if_pos hlong

theorem Part.inboundData_joined {b : Byte} (hrx : p.rlu.rx = some bytes)
    (hfits : ¬ inboundTooLong (bytes ++ [b]) = true) : p.inboundData b = p.setInbound (some (bytes ++ [b])) := by
  rw [Part.inboundData, hrx]
  exact if_neg hfits

end

/-! ### The bytes of a frame: kind, length, body and CRC (R168) -/

section
variable {kind : Byte} {body crc : List Byte}

/-- The two bytes of a body length spell it. -/
theorem natOfBytes_length {n : Nat} (h : n ≤ 1024) : natOfBytes (bytesOfNat 2 n) = n := by
  have htwo : bytesOfNat 2 n = [BitVec.ofNat 8 (n / 256), BitVec.ofNat 8 n] := rfl
  simp only [htwo, natOfBytes, List.foldl_cons, List.foldl_nil, BitVec.toNat_ofNat]
  omega

theorem inboundLength_laid (h : body.length ≤ 1024) :
    inboundLength (kind :: bytesOfNat 2 body.length ++ body ++ crc) = body.length := natOfBytes_length h

theorem length_laid (hcrc : crc.length = 2) (h : body.length ≤ 1024) :
    (kind :: bytesOfNat 2 body.length ++ body ++ crc).length =
      5 + inboundLength (kind :: bytesOfNat 2 body.length ++ body ++ crc) := by
  rw [inboundLength_laid h, List.length_append, List.length_append, hcrc]
  show 3 + body.length + 2 = 5 + body.length
  omega

/-- The check of a frame laid out with its length is the check of its CRC. -/
theorem inboundOk_laid_iff (hcrc : crc.length = 2) (h : body.length ≤ 1024) :
    inboundOk (kind :: bytesOfNat 2 body.length ++ body ++ crc) = true ↔
      crc = crcBytes (kind :: bytesOfNat 2 body.length ++ body) := by
  have hlen := length_laid (kind := kind) hcrc h
  have hhead : (kind :: bytesOfNat 2 body.length ++ body ++ crc).length - 2 =
      (kind :: bytesOfNat 2 body.length ++ body).length := by
    rw [List.length_append, hcrc, Nat.add_sub_cancel]
  rw [inboundOk_iff, hhead, List.take_left, List.drop_left]
  constructor
  · rintro ⟨_, _, hcheck⟩
    exact hcheck.symm
  · rintro hcheck
    exact ⟨by omega, hlen, hcheck.symm⟩

theorem inboundBody_laid (h : body.length ≤ 1024) :
    inboundBody (kind :: bytesOfNat 2 body.length ++ body ++ crc) = body := by
  rw [inboundBody, inboundLength_laid h]
  exact List.take_left

/-- An outbound frame is laid out as an inbound one. -/
theorem outboundBytes_laid (k : Nat) (body : List Byte) : outboundBytes k body =
    BitVec.ofNat 8 k :: bytesOfNat 2 body.length ++ body ++
      crcBytes (BitVec.ofNat 8 k :: bytesOfNat 2 body.length ++ body) := rfl

end

/-! ### The body of an ORDER frame at the inbound order buffer (R178) -/

section
variable {p : Part} {body : List Byte}

theorem Part.offerOrder_malformed (h : body.length < 2) : p.offerOrder body = p.bump .malformedOrders := if_pos h

theorem Part.offerOrder_joined (h : 2 ≤ body.length) (hroom : p.oru.buffer.length < 4) :
    p.offerOrder body = p.withOru { p.oru with buffer := p.oru.buffer ++ [body] } := by
  rw [Part.offerOrder, if_neg (Nat.not_lt.2 h)]
  exact if_pos hroom

theorem Part.offerOrder_overrun (h : 2 ≤ body.length) (hfull : 4 ≤ p.oru.buffer.length) :
    p.offerOrder body = (p.bump .orderOverruns).raise .orderOverrun := by
  rw [Part.offerOrder, if_neg (Nat.not_lt.2 h)]
  exact if_neg (Nat.not_lt.2 hfull)

end

/-! ### A whole frame -/

section
variable {p : Part} {chars : List LineChar} {bytes : List Byte}

/-- A prefix of a frame that is as long as its length field says is not too long. -/
theorem inboundTooLong_prefix (hlen : bytes.length = 5 + inboundLength bytes) (hmax : inboundLength bytes ≤ 1024)
    (k : Nat) : inboundTooLong (bytes.take k) = false := by
  rw [← Bool.not_eq_true, inboundTooLong_iff]
  rintro ⟨hthree, hlong⟩
  have hfield : inboundLength (bytes.take k) = inboundLength bytes := by
    rw [← inboundLength_append (bytes.take k) (bytes.drop k) hthree, List.take_append_drop]
  have hshort := (List.take_sublist k bytes).length_le
  rw [hfield] at hlong
  omega

/-- A frame as long as its length field says, which is at most 1024, comes whole to its FRAME END (R168). -/
theorem Part.recorderFrame_end (hup : p.rlu.link = .up) (hrx : p.rlu.rx = none) (hc : Carries chars bytes)
    (hlen : bytes.length = 5 + inboundLength bytes) (hmax : inboundLength bytes ≤ 1024) :
    p.recorderFrame chars = ((p.afterIdles (idlesIn chars)).setInbound (some bytes)).inboundEnd := by
  obtain ⟨inner, rfl, hinside, rfl⟩ := hc
  have hidles : idlesIn (inner ++ [LineChar.frameEnd]) = idlesIn inner := by simp [idlesIn]
  have hstart : p.recorderChar .frameStart = p.setInbound (some []) :=
    (p.recorderChar_up _ hup (by simp)).trans (Part.inboundStart_outside hrx)
  have hlink : ((p.afterIdles (idlesIn inner)).setInbound (some (dataBytes inner))).rlu.link = .up :=
    (p.afterIdles_link _).1.trans hup
  rw [Part.recorderFrame, List.foldl_cons, hstart, List.foldl_append, p.recorderChars hup inner [] hinside, hidles]
  · exact Part.recorderChar_up _ .frameEnd hlink (by simp)
  · exact fun k _ => inboundTooLong_prefix hlen hmax (k + 1)

/-- The part after a frame that passed its check, before its body is taken: the link error count lowered (R166). -/
def Part.framePassed (p : Part) : Part := { p with rlu := { p.rlu with linkErrors := p.rlu.linkErrors - 1 } }

/-- A frame taken out of the receiver leaves it outside a frame, as it was before. -/
theorem Part.received_framePassed (hrx : p.rlu.rx = none) (bytes : List Byte) :
    (p.setInbound (some bytes)).withRlu { (p.setInbound (some bytes)).rlu with
      rx := none, linkErrors := (p.setInbound (some bytes)).rlu.linkErrors - 1 } = p.framePassed := by
  rw [Part.framePassed, ← hrx]
  rfl

/-- A whole frame with the right CRC is taken by its kind (R168). -/
theorem Part.recorderFrame_passed {k : Nat} {body : List Byte} (hup : p.rlu.link = .up) (hrx : p.rlu.rx = none)
    (hk : k < 256) (hbody : body.length ≤ 1024) (hc : Carries chars (outboundBytes k body)) :
    p.recorderFrame chars =
      if k = 16 then (p.afterIdles (idlesIn chars)).framePassed.offerOrder body
      else if k = 17 then (p.afterIdles (idlesIn chars)).framePassed.takeCredit (creditOf body)
      else (p.afterIdles (idlesIn chars)).framePassed.bump .unknownKinds := by
  rw [outboundBytes_laid] at hc
  have hcrc : (crcBytes (BitVec.ofNat 8 k :: bytesOfNat 2 body.length ++ body)).length = 2 := rfl
  have hmax := hbody
  rw [← inboundLength_laid (kind := BitVec.ofNat 8 k)
    (crc := crcBytes (BitVec.ofNat 8 k :: bytesOfNat 2 body.length ++ body)) hbody] at hmax
  have hkind : (BitVec.ofNat 8 k).toNat = k := by
    rw [BitVec.toNat_ofNat]
    exact Nat.mod_eq_of_lt hk
  rw [p.recorderFrame_whole chars _ hup hrx hc ((inboundOk_laid_iff hcrc hbody).2 rfl) hmax, Part.takeInbound,
    inboundBody_laid hbody, Part.received_framePassed ((p.afterIdles_link _).2.trans hrx)]
  show (if (BitVec.ofNat 8 k).toNat = 16 then _ else if (BitVec.ofNat 8 k).toNat = 17 then _ else _) = _
  rw [hkind]

/-- A whole frame with another CRC is a check failure, whatever its kind (R168). -/
theorem Part.recorderFrame_failed {kind : Byte} {body crc : List Byte} (hup : p.rlu.link = .up) (hrx : p.rlu.rx = none)
    (hbody : body.length ≤ 1024) (hc : Carries chars (kind :: bytesOfNat 2 body.length ++ body ++ crc))
    (hcrc : crc.length = 2) (hbad : crc ≠ crcBytes (kind :: bytesOfNat 2 body.length ++ body)) :
    p.recorderFrame chars = ((p.afterIdles (idlesIn chars)).bump .checkFailures).linkErred none := by
  have hmax := hbody
  rw [← inboundLength_laid (kind := kind) (crc := crc) hbody] at hmax
  rw [Part.recorderFrame_end hup hrx hc (length_laid hcrc hbody) hmax,
    Part.inboundEnd_failed rfl fun hok => hbad ((inboundOk_laid_iff hcrc hbody).1 hok)]
  exact ((p.afterIdles _).bump .checkFailures).linkErred_setInbound _ none

end

/-- What a frame command does with RESET_N high, whatever kind its row names (log 10). -/
theorem frame_nextWith {s : State} {c : Instr} {chars : List LineChar} (h : s.part.resetHeld = false)
    (hc : c ∈ [Instr.orderFrame chars, .creditFrame chars, .unknownKind chars]) :
    exec c s = nextWith s (s.part.recorderFrame chars) := by
  have hlive := live_nextWith s (fun p => p.recorderFrame chars) h
  simp only [List.mem_cons, List.not_mem_nil, or_false] at hc
  obtain rfl | rfl | rfl := hc
  · exact hlive
  · exact hlive
  · exact hlive

/-- Settles O30: each character inside a frame, and whole frames by their kind and their CRC. -/
theorem inboundFrames : Obligations.InboundFrames := by
  unfold Obligations.InboundFrames
  refine ⟨fun s line bytes h hup hrx => ?_, fun s chars body h hup hrx hbody => ?_⟩
  · intro p size failed
    refine ⟨fun hstart => ?_, fun hv => ?_, fun hend hbad => ?_, fun b hdata => ?_⟩
    · refine recorderCharacter_nextWith h ?_
      rw [hstart, Part.recorderChar_up _ _ hup (by simp)]
      exact Part.inboundStart_inside hrx hup
    · refine recorderCharacter_nextWith h ?_
      rw [hv, Part.recorderChar_violation hup]
      exact Part.inboundViolation_inside (p := s.part.bump .recorderCodeViolations) hrx
    · refine recorderCharacter_nextWith h ?_
      rw [hend, Part.recorderChar_up _ _ hup (by simp)]
      refine Part.inboundEnd_failed hrx fun hok => ?_
      obtain ⟨hthree, hlen, hcrc⟩ := (inboundOk_iff bytes).1 hok
      exact hbad.elim (fun hshort => Nat.not_lt.2 hthree hshort) (·.elim (fun hne => hne hlen) (fun hne => hne hcrc))
    · intro l
      have hchar : s.part.recorderChar (lineCharOf line) = s.part.inboundData b := by
        rw [hdata]
        exact Part.recorderChar_up _ _ hup (by simp)
      refine ⟨fun hlong => ?_, fun hfits => ?_⟩
      · exact recorderCharacter_nextWith h
          (hchar.trans (Part.inboundData_failed hrx ((inboundTooLong_iff _).2 hlong)))
      · refine recorderCharacter_nextWith h (hchar.trans (Part.inboundData_joined hrx fun hlong => ?_))
        obtain ⟨hthree, hlong⟩ := (inboundTooLong_iff _).1 hlong
        have hshort : (bytes ++ [b]).length < 3 ∨ inboundLength (bytes ++ [b]) ≤ 1024 ∧
          (bytes ++ [b]).length ≤ 5 + inboundLength (bytes ++ [b]) := hfits
        omega
  · intro p p1
    refine ⟨fun hc => ?_, fun kind hk h16 h17 hc => ?_, fun c kind crc hmem hc hcrc hbad => ?_⟩
    · rw [frame_nextWith (c := .orderFrame chars) (chars := chars) h (by simp),
        Part.recorderFrame_passed hup hrx (by decide) hbody hc, if_pos rfl]
      refine ⟨fun hshort => ?_, fun hlong hroom => ?_, fun hlong hfull => ?_⟩
      · exact congrArg (nextWith s) (Part.offerOrder_malformed hshort)
      · exact congrArg (nextWith s) (Part.offerOrder_joined (p := p.framePassed) hlong hroom)
      · exact congrArg (nextWith s) (Part.offerOrder_overrun (p := p.framePassed) hlong hfull)
    · rw [frame_nextWith (c := .unknownKind chars) (chars := chars) h (by simp),
        Part.recorderFrame_passed hup hrx hk hbody hc, if_neg h16, if_neg h17]
      rfl
    · rw [frame_nextWith h hmem, Part.recorderFrame_failed hup hrx hbody hc hcrc hbad]

/-- Settles O31: a CREDIT frame that passes its check is taken with the credit of its body. -/
theorem creditFrames : Obligations.CreditFrames := by
  unfold Obligations.CreditFrames
  intro s chars body h hup hrx hbody hc p v
  rw [frame_nextWith (c := .creditFrame chars) (chars := chars) h (by simp),
    Part.recorderFrame_passed hup hrx (by decide) hbody hc, if_neg (by decide), if_pos rfl]
  rfl

end Sys2Proof.Machine

/-! SUPPORT. The Order Unit's own checks and SET: the right length of each of the twenty orders, the refusals of an order before any owner sees it, and the checks, the ranges and the writing of the settings that no other block acts on. -/

namespace Sys2Proof.Machine

/-! ## The right length of an order (R180, section 12.3) -/

/-- The second check of R180 on a body of code, tag and parameters. -/
theorem lengthOk_iff (code tag : Byte) (ps : List Byte) :
    lengthOk (code :: tag :: ps) = true ↔ requiredLength code.toNat ps = some ps.length := beq_iff_eq

/-- A length given by a one-byte count is right where the count stands in the body and the body has that length. -/
theorem countedLength_iff (ps : List Byte) (off fixed each : Nat) :
    countedLength ps off fixed each = some ps.length ↔
      ∃ count, ps[off]? = some count ∧ ps.length = fixed + each * count.toNat := by
  unfold countedLength
  cases ps[off]? with
  | none => simp
  | some count => simp [eq_comm]

/-- The fifteen orders of a fixed length. -/
theorem requiredLength_fixed {x : Nat × Nat} (hx : x ∈ [(1, 0), (2, 6), (3, 2), (4, 2), (5, 0), (6, 5), (9, 1), (11, 2),
    (13, 2), (14, 1), (15, 3), (16, 20), (17, 20), (18, 1), (20, 0)]) (ps : List Byte) :
    requiredLength x.1 ps = some x.2 := by
  revert x
  simp only [List.forall_mem_cons]
  exact ⟨rfl, rfl, rfl, rfl, rfl, rfl, rfl, rfl, rfl, rfl, rfl, rfl, rfl, rfl, rfl, fun _ h => nomatch h⟩

/-- The four orders whose length follows from a count: where it stands, and the bytes of each item. -/
theorem requiredLength_counted {x : Nat × Nat × Nat} (hx : x ∈ [(7, 0, 13), (8, 0, 15), (10, 1, 14), (19, 1, 1)])
    (ps : List Byte) : requiredLength x.1 ps = countedLength ps x.2.1 (x.2.1 + 1) x.2.2 := by
  revert x
  simp only [List.forall_mem_cons]
  exact ⟨rfl, rfl, rfl, rfl, fun _ h => nomatch h⟩

/-- A WRITE INPUT MAP of the right length is a start, a count and two marked sources for each entry counted. -/
theorem requiredLength_map_iff (ps : List Byte) : requiredLength 12 ps = some ps.length ↔
    ∃ (start count : Byte) (sources : List (List Byte)), ps = start :: count :: sources.flatten ∧
      sources.length = 2 * count.toNat ∧ ∀ x ∈ sources, MarkedSource x := by
  match ps with
  | [] => simp [requiredLength]
  | [start] => simp [requiredLength]
  | start :: count :: entries =>
    have hrest : requiredLength 12 (start :: count :: entries) = (mapEntriesLength count.toNat entries).map (2 + ·) := rfl
    have hentries : requiredLength 12 (start :: count :: entries) = some (start :: count :: entries).length ↔
        mapEntriesLength count.toNat entries = some entries.length := by
      rw [hrest]
      cases mapEntriesLength count.toNat entries with
      | none => simp
      | some k =>
        simp only [Option.map_some, Option.some.injEq, List.length_cons]
        omega
    rw [hentries, mapEntriesLength_marked]
    constructor
    · rintro ⟨sources, rfl, hcount, hmarked⟩
      exact ⟨start, count, sources, rfl, hcount, hmarked⟩
    · rintro ⟨_, _, sources, hps, hcount, hmarked⟩
      cases hps
      exact ⟨sources, rfl, hcount, hmarked⟩

/-! ## Orders refused or waiting (R179, R180) -/

/-- An order for which a reservation can be made is the ready one. -/
theorem Part.readyOrder_some {p : Part} {body : List Byte} (hbody : p.oru.buffer.head? = some body)
    (hroom : p.rlu.nonUrgent + p.rlu.reservations ≤ 11 ∧ p.rlu.control.length + p.rlu.reservations < 16) :
    p.readyOrder = some body := by
  obtain ⟨rest, hbuffer⟩ := List.head?_eq_some_iff.1 hbody
  unfold Part.readyOrder
  rw [hbuffer]
  exact if_pos ((Rlu.admits_iff _).2 hroom)

/-- The row of a named code is that code's order row, with no selection among its parameters. -/
theorem exec_orderRowOf {code : Nat} (hlow : 1 ≤ code) (hhigh : code ≤ 20) :
    ∃ carry, ∀ s, exec (orderRowOf code) s = live s (Part.orderRow code (fun _ => true) carry) := by
  interval_cases code <;> exact ⟨_, fun _ => rfl⟩

/-- Every other code goes to the row of the unknown order. -/
theorem orderRowOf_unknown {code : Nat} (h : code = 0 ∨ 20 < code) : orderRowOf code = .unknownOrder := by
  obtain rfl | h := h
  · rfl
  · obtain ⟨k, rfl⟩ := Nat.exists_eq_add_of_le' h
    rfl

/-- A ready order of a wrong length is taken and refused before its owner sees it (R180). -/
theorem Part.orderRow_badLength {p : Part} {body : List Byte} (hready : p.readyOrder = some body)
    (hlength : lengthOk body = false) (carry : Part → List Byte → Part) :
    p.orderRow (orderCode body).toNat (fun _ => true) carry = (p.afterOrder body .badLength []).bump .badLengths := by
  have hrefused : p.taken.carryOut body carry = p.taken.refuseLength body := by
    rw [Part.carryOut, hlength]
    rfl
  simp only [Part.orderRow, hready, and_self, if_true, hrefused]
  rfl

/-- A ready order whose code names none of the twenty is taken and refused (R180). -/
theorem Part.unknownRow_unknown {p : Part} {body : List Byte} (hready : p.readyOrder = some body)
    (hcode : (orderCode body).toNat = 0 ∨ 20 < (orderCode body).toNat) :
    p.unknownRow = (p.afterOrder body .unknownOrder []).bump .unknownOrders := by
  simp only [Part.unknownRow, hready, if_pos hcode]
  rfl

/-- With no order ready, the row of any code does nothing (R179). -/
theorem exec_orderRowOf_waits {s : State} (hheld : s.part.resetHeld = false) (hready : s.part.readyOrder = none)
    (code : Nat) : exec (orderRowOf code) s = nextWith s s.part := by
  by_cases hcode : code = 0 ∨ 20 < code
  · rw [orderRowOf_unknown hcode]
    have hrow : s.part.unknownRow = s.part := by simp only [Part.unknownRow, hready]
    exact (live_nextWith s Part.unknownRow hheld).trans (congrArg (nextWith s) hrow)
  · obtain ⟨carry, hrow⟩ := exec_orderRowOf (code := code) (by omega) (by omega)
    rw [hrow, live_nextWith s _ hheld, Part.orderRow_none _ _ _ _ hready]

/-- Settles O34: the lengths by their three forms, then the two refusals and the waiting. -/
theorem ordersRefusedBeforeTheirOwner : Obligations.OrdersRefusedBeforeTheirOwner := by
  unfold Obligations.OrdersRefusedBeforeTheirOwner
  refine ⟨fun code tag ps => ?_, fun s body hheld hbody => ?_⟩
  · intro body
    have hlength : lengthOk body = true ↔ requiredLength code.toNat ps = some ps.length := lengthOk_iff code tag ps
    refine ⟨⟨rfl, rfl, rfl⟩, fun x hx hcode => ?_, fun x hx hcode => ?_, fun hcode => ?_⟩
    · rw [hlength, hcode, requiredLength_fixed hx, Option.some_inj, eq_comm]
    · rw [hlength, hcode, requiredLength_counted hx, countedLength_iff]
    · rw [hlength, hcode, requiredLength_map_iff]
  · intro p code room
    refine ⟨fun hroom hcode => ?_, fun hroom hlow hhigh hlength => ?_, fun hroom => ?_⟩
    · have hready : p.readyOrder = some body := Part.readyOrder_some hbody hroom
      exact (live_nextWith s Part.unknownRow hheld).trans (congrArg (nextWith s) (Part.unknownRow_unknown hready hcode))
    · have hready : p.readyOrder = some body := Part.readyOrder_some hbody hroom
      obtain ⟨carry, hrow⟩ := exec_orderRowOf hlow hhigh
      rw [hrow, live_nextWith s _ hheld]
      exact congrArg (nextWith s) (Part.orderRow_badLength hready hlength carry)
    · exact exec_orderRowOf_waits hheld (readyOrder_none p hroom) code

/-! ## The ranges of the settings (section 10.4) -/

/-- Whether a value lies between two bounds. -/
theorem between_iff (lo hi v : Nat) : between lo hi v = true ↔ lo ≤ v ∧ v ≤ hi := by simp [between]

/-- The settings whose range is two bounds alone, with their bounds (section 10.4). -/
def boundedSettings : List (Nat × Nat × Nat) :=
  [(2, 1, 65535), (3, 1, 65535), (4, 1, 2), (5, 0, 100), (6, 500, 5000), (7, 0, 500),
    (8, 100, 60000), (9, 250, 5000), (10, 0, 15), (11, 1, 15), (13, 0, 1), (14, 0, 8), (15, 1000, 100000),
    (16, 0, 100000), (17, 100, 20000), (18, 1, 7), (21, 2, 100), (22, 2, 100), (23, 0, 32767), (24, 0, 32767),
    (25, 1, 64), (26, 0, 400), (27, 1, 255), (28, 0, 127), (29, 0, 63), (30, 1, 63), (31, 0, 1)]

/-- The range of a setting that has two bounds alone. -/
theorem settingInRange_bounded {x : Nat × Nat × Nat} (hx : x ∈ boundedSettings) (v : Nat) :
    settingInRange x.1 v = true ↔ x.2.1 ≤ v ∧ v ≤ x.2.2 := by
  have hbetween : ∀ x ∈ boundedSettings, settingInRange x.1 v = between x.2.1 x.2.2 v := by
    simp only [boundedSettings, List.forall_mem_cons]
    repeat' constructor
    exact fun _ h => nomatch h
  rw [hbetween x hx, between_iff]

/-- The record spacing is one of three. -/
theorem settingInRange_recordSpacing (v : Nat) : settingInRange 1 v = true ↔ v ∈ [250, 500, 1000] :=
  List.contains_iff_mem

/-- A head shape has up to 16 channels and 1 to 8 samples (log 19). -/
theorem settingInRange_headShape (v : Nat) :
    settingInRange 12 v = true ↔ v / 256 ≤ 16 ∧ 1 ≤ v % 256 ∧ v % 256 ≤ 8 := by
  simp [settingInRange, between_iff]

/-- The two chords are even. -/
theorem settingInRange_chord {n : Nat} (hn : n ∈ [19, 20]) (v : Nat) :
    settingInRange n v = true ↔ 4 ≤ v ∧ v ≤ 200 ∧ v % 2 = 0 := by
  have hchord : settingInRange n v = (between 4 200 v && v % 2 == 0) := by
    simp only [List.mem_cons, List.not_mem_nil, or_false] at hn
    obtain rfl | rfl := hn
    · rfl
    · rfl
  simp [hchord, between_iff, and_assoc]

/-- No value is in range of a number that names no setting. -/
theorem settingNumber_of_inRange {n v : Nat} (h : settingInRange n v = true) : 1 ≤ n ∧ n < 32 := by
  refine ⟨Nat.pos_of_ne_zero ?_, Nat.lt_of_not_le fun hbig => ?_⟩
  · rintro rfl
    exact nomatch h
  · obtain ⟨k, rfl⟩ := Nat.exists_eq_add_of_le' hbig
    exact nomatch h

/-- Each setting has three spacings, a head shape's fields, an even chord or two bounds for its range. -/
theorem settingNumber_cases : ∀ n < 32, 1 ≤ n → n = 1 ∨ n = 12 ∨ n ∈ [19, 20] ∨ ∃ x ∈ boundedSettings, x.1 = n := by decide

/-- The ranges of all the settings. -/
theorem settingInRange_iff (n v : Nat) : settingInRange n v = true ↔
    (n = 1 ∧ v ∈ [250, 500, 1000]) ∨ (n = 12 ∧ v / 256 ≤ 16 ∧ 1 ≤ v % 256 ∧ v % 256 ≤ 8) ∨
    (n ∈ [19, 20] ∧ 4 ≤ v ∧ v ≤ 200 ∧ v % 2 = 0) ∨ ∃ lo hi : Nat, (n, lo, hi) ∈ boundedSettings ∧ lo ≤ v ∧ v ≤ hi := by
  constructor
  · intro h
    obtain ⟨hlow, hhigh⟩ := settingNumber_of_inRange h
    obtain rfl | rfl | hchord | ⟨⟨n, lo, hi⟩, hx, rfl⟩ := settingNumber_cases n hhigh hlow
    · exact .inl ⟨rfl, (settingInRange_recordSpacing v).1 h⟩
    · exact .inr (.inl ⟨rfl, (settingInRange_headShape v).1 h⟩)
    · exact .inr (.inr (.inl ⟨hchord, (settingInRange_chord hchord v).1 h⟩))
    · exact .inr (.inr (.inr ⟨lo, hi, hx, (settingInRange_bounded hx v).1 h⟩))
  · rintro (⟨rfl, hv⟩ | ⟨rfl, hv⟩ | ⟨hchord, hv⟩ | ⟨lo, hi, hx, hv⟩)
    · exact (settingInRange_recordSpacing v).2 hv
    · exact (settingInRange_headShape v).2 hv
    · exact (settingInRange_chord hchord v).2 hv
    · exact (settingInRange_bounded hx v).2 hv

/-- The settings that may change in HALTED alone. -/
theorem haltedOnlySetting_iff (n : Nat) :
    haltedOnlySetting n = true ↔ n ∈ [1, 2, 3, 4, 6, 9, 12, 14, 19, 20, 21, 22] := List.contains_iff_mem

/-! ## A table with one entry for each head (R182, R183) -/

section
variable {α : Type} (t : Vector α 8) (f : α → Nat)

/-- The entry of a head is read at the head's address. -/
theorem perHeadValue_address (h : Head) : perHeadValue t f (h.val + 1) = f t[h] := by
  have haddress : headOfAddress (h.val + 1) = some h := dif_pos (by omega)
  simp only [perHeadValue, haddress]

/-- An entry written is read again. -/
theorem perHeadValue_write_same {a : Nat} (ha : 1 ≤ a ∧ a ≤ 8) (x : α) :
    perHeadValue (perHeadWrite t x a) f a = f x := by
  have haddress : headOfAddress a = some ⟨a - 1, by omega⟩ := dif_pos ha
  simp only [perHeadValue, perHeadWrite, haddress, vmodify_get, if_true]

/-- The entry at another address stays. -/
theorem perHeadValue_write_other {a b : Nat} (hne : b ≠ a) (x : α) :
    perHeadValue (perHeadWrite t x a) f b = perHeadValue t f b := by
  unfold perHeadValue perHeadWrite
  cases hb : headOfAddress b with
  | none => rfl
  | some g =>
    cases ha : headOfAddress a with
    | none => rfl
    | some h =>
      have hheads : h ≠ g := fun heq =>
        hne (by rw [← address_of_headOfAddress ha, ← address_of_headOfAddress hb, heq])
      simp only [vmodify_get, if_neg hheads]

end

/-! ## The settings table written and read (R182, R183) -/

/-- The value of a head's shape. -/
theorem Settings.value_headShape (st : Settings) (a : Nat) :
    st.value 12 a = perHeadValue st.shapes (fun x => x.channels * 256 + x.samples) a := rfl

/-- The value of a head's mirror setting. -/
theorem Settings.value_mirror (st : Settings) (a : Nat) :
    st.value 13 a = perHeadValue st.mirrors (fun b => if b then 1 else 0) a := rfl

/-- The value of the lead encoder. -/
theorem Settings.value_leadEncoder (st : Settings) (a : Nat) :
    st.value 4 a = match st.leadEncoder with | .e1 => 1 | .e2 => 2 := by
  show st.leadEncoder.code = _
  cases st.leadEncoder <;> rfl

/-- The value of the notices setting. -/
theorem Settings.value_noticesEnabled (st : Settings) (a : Nat) : st.value 31 a = st.noticesEnabled.toNat := by
  show (if st.noticesEnabled then 1 else 0) = _
  cases st.noticesEnabled <;> rfl

/-- A head's shape written. -/
theorem Settings.write_headShape (st : Settings) (a v : Nat) :
    (st.write 12 a v).shapes = perHeadWrite st.shapes ⟨v / 256, v % 256⟩ a := rfl

/-- A head's mirror setting written. -/
theorem Settings.write_mirror (st : Settings) (a v : Nat) :
    (st.write 13 a v).mirrors = perHeadWrite st.mirrors (decide (v = 1)) a := rfl

/-- Each number reads and writes a field of its own, so that a SET changes the value of its own number alone. -/
theorem Settings.value_write (st : Settings) {n m : Nat} (hn : n < 32) (hm : m < 32) (a b v : Nat) :
    (st.write n a v).value m b = if m = n then (st.write n a v).value n b else st.value m b := by
  interval_cases n
  all_goals interval_cases m
  all_goals rfl

/-- The value of a setting of a head stays for every other head. -/
theorem Settings.value_write_otherHead (st : Settings) {n a b : Nat} (hn : n = 12 ∨ n = 13) (hne : b ≠ a) (v : Nat) :
    (st.write n a v).value n b = st.value n b := by
  obtain rfl | rfl := hn
  · rw [Settings.value_headShape, Settings.value_headShape, Settings.write_headShape, perHeadValue_write_other _ _ hne]
  · rw [Settings.value_mirror, Settings.value_mirror, Settings.write_mirror, perHeadValue_write_other _ _ hne]

/-- The settings whose value is a number kept as it is written. -/
def numberSettings : List Nat :=
  [1, 2, 3, 5, 6, 7, 8, 9, 10, 11, 14, 15, 16, 17, 18, 19, 20, 21, 22, 23, 24, 25, 26, 27, 28, 29, 30]

/-- The others are the lead encoder, the two settings of each head and the notices. -/
theorem numberSetting_or : ∀ n < 32, 1 ≤ n → n ∈ numberSettings ∨ n = 4 ∨ n = 12 ∨ n = 13 ∨ n = 31 := by decide

/-- A setting that is a plain number takes the value written. -/
theorem Settings.value_write_number (st : Settings) {n : Nat} (hn : n ∈ numberSettings) (a v : Nat) :
    (st.write n a v).value n a = v := by
  revert n
  simp only [numberSettings, List.forall_mem_cons]
  exact ⟨rfl, rfl, rfl, rfl, rfl, rfl, rfl, rfl, rfl, rfl, rfl, rfl, rfl, rfl, rfl, rfl, rfl, rfl, rfl, rfl, rfl, rfl, rfl,
    rfl, rfl, rfl, rfl, fun _ h => nomatch h⟩

/-- A value in range of a setting that is named is its value once written. -/
theorem Settings.value_write_same (st : Settings) {n a v : Nat} (hnamed : settingNamed n a = true)
    (hrange : settingInRange n v = true) : (st.write n a v).value n a = v := by
  obtain ⟨hlow, hhigh⟩ := settingNumber_of_inRange hrange
  obtain ⟨-, -, haddress⟩ := (settingNamed_iff n a).1 hnamed
  obtain hn | rfl | rfl | rfl | rfl := numberSetting_or n hhigh hlow
  · exact st.value_write_number hn a v
  · have hv : 1 ≤ v ∧ v ≤ 2 := (settingInRange_bounded (x := (4, 1, 2)) (by decide) v).1 hrange
    obtain rfl | rfl : v = 1 ∨ v = 2 := by omega
    · rfl
    · rfl
  · rw [Settings.value_headShape, Settings.write_headShape, perHeadValue_write_same _ _ haddress]
    exact Nat.div_add_mod' v 256
  · have hv : 0 ≤ v ∧ v ≤ 1 := (settingInRange_bounded (x := (13, 0, 1)) (by decide) v).1 hrange
    rw [Settings.value_mirror, Settings.write_mirror, perHeadValue_write_same _ _ haddress]
    obtain rfl | rfl : v = 0 ∨ v = 1 := by omega
    · rfl
    · rfl
  · have hv : 0 ≤ v ∧ v ≤ 1 := (settingInRange_bounded (x := (31, 0, 1)) (by decide) v).1 hrange
    obtain rfl | rfl : v = 0 ∨ v = 1 := by omega
    · rfl
    · rfl

/-- The number and the address of another named setting: its value stays. -/
theorem Settings.value_write_frame (st : Settings) {n a m b : Nat} (hn : settingNamed n a = true)
    (hm : settingNamed m b = true) (hne : (m, b) ≠ (n, a)) (v : Nat) : (st.write n a v).value m b = st.value m b := by
  obtain ⟨-, hn32, hna⟩ := (settingNamed_iff n a).1 hn
  obtain ⟨-, hm32, hmb⟩ := (settingNamed_iff m b).1 hm
  by_cases hnumber : m = n
  · subst hnumber
    have haddress : b ≠ a := fun h => hne (by rw [h])
    by_cases hhead : m = 12 ∨ m = 13
    · exact st.value_write_otherHead hhead haddress v
    · rw [if_neg hhead] at hna hmb
      exact absurd (hmb.trans hna.symm) haddress
  · rw [st.value_write (by omega) (by omega), if_neg hnumber]

/-! ## SET (R182) -/

/-- What no block acts on at once. -/
theorem Part.settingEffect_none (p : Part) {n : Nat} (hn : n ∉ [1, 4, 12, 17, 28, 29]) (a : Nat) :
    p.settingEffect n a = p := by
  simp only [List.mem_cons, List.not_mem_nil, or_false, not_or] at hn
  obtain ⟨h1, h4, h12, h17, h28, h29⟩ := hn
  simp only [Part.settingEffect]

section
variable (p : Part) {ps : List Byte} {n a v : Nat}

/-- A SET that passes the three checks. -/
theorem Part.setRefusal_none (hnamed : settingNamed n a = true) (hrange : settingInRange n v = true)
    (hstate : haltedOnlySetting n = true → p.rnc.runState = .halted) : p.setRefusal n a v = none := by
  simp [Part.setRefusal, hnamed, hrange]
  exact hstate

variable (hn : fieldNat ps 0 1 = n) (ha : fieldNat ps 1 1 = a) (hv : fieldNat ps 2 4 = v)
include hn ha

/-- The first check of a SET: the setting and its address. -/
theorem Part.setOrder_unnamed (hnamed : settingNamed n a = false) : p.setOrder ps = ⟨p, .badValue, []⟩ := by
  simp only [Part.setOrder, Part.setRefusal, hn, ha, hnamed, Bool.not_false, if_true]

include hv

/-- The second check of a SET: the range. -/
theorem Part.setOrder_outOfRange (hnamed : settingNamed n a = true) (hrange : settingInRange n v = false) :
    p.setOrder ps = ⟨p, .badValue, settingData p.oru.settings n a⟩ := by
  simp [Part.setOrder, Part.setRefusal, hn, ha, hv, hnamed, hrange]

/-- The third check of a SET: a setting that may change in HALTED alone. -/
theorem Part.setOrder_inRun (hnamed : settingNamed n a = true) (hrange : settingInRange n v = true)
    (honly : haltedOnlySetting n = true) (hrun : p.rnc.runState ≠ .halted) :
    p.setOrder ps = ⟨p, .badState, settingData p.oru.settings n a⟩ := by
  simp [Part.setOrder, Part.setRefusal, hn, ha, hv, hnamed, hrange, honly, hrun]

/-- A SET that passes its checks is written, and its owner acts at once (R182). -/
theorem Part.setOrder_accepted (h : p.setRefusal n a v = none) {q : Part}
    (hq : (p.withSettings (p.oru.settings.write n a v)).settingEffect n a = q) :
    p.setOrder ps = ⟨q, .done, settingData q.oru.settings n a⟩ := by
  simp only [Part.setOrder, hn, ha, hv, h, hq]

end

/-- The reply of a taken order that has written the settings. -/
theorem taken_withSettings_answered (p : Part) (st : Settings) (body : List Byte) (r : Result) (data : List Byte) :
    (p.taken.withSettings st).fillReservation (replyTo body r data) =
      Part.afterOrder { p with oru := { p.oru with settings := st } } body r data := rfl

/-- Settles O38: the tables of section 10.4, then each check of SET and the writing. -/
theorem setChecksAndWrites : Obligations.SetChecksAndWrites := by
  unfold Obligations.SetChecksAndWrites
  refine ⟨settingNamed_iff, settingInRange_iff, haltedOnlySetting_iff, fun st => ⟨?_, fun h => ⟨?_, ?_⟩⟩, ?_⟩
  · simp only [List.forall_mem_cons]
    exact ⟨rfl, rfl, rfl, st.value_leadEncoder 0, rfl, rfl, rfl, rfl, rfl, rfl, rfl, rfl, rfl, rfl, rfl, rfl, rfl, rfl, rfl,
      rfl, rfl, rfl, rfl, rfl, rfl, rfl, rfl, rfl, st.value_noticesEnabled 0, fun _ h => nomatch h⟩
  · exact (st.value_headShape _).trans (perHeadValue_address _ _ h)
  · rw [Settings.value_mirror, perHeadValue_address]
    cases st.mirrors[h] <;> rfl
  intro s body hready p st n a v old new
  refine ⟨fun hnamed => ?_, fun hnamed hrange => ?_, fun hnamed hrange honly hrun => ?_,
    fun hnamed hrange hstate heffect => ⟨?_, ?_, fun m b hm hne => ?_⟩⟩
  · exact answeredRow_of_unchanged hready (p.taken.setOrder_unnamed rfl rfl hnamed)
  · exact answeredRow_of_unchanged hready (p.taken.setOrder_outOfRange rfl rfl rfl hnamed hrange)
  · exact answeredRow_of_unchanged hready (p.taken.setOrder_inRun rfl rfl rfl hnamed hrange honly hrun)
  · have hwritten := Part.settingEffect_none (p.taken.withSettings (st.write n a v)) heffect a
    have haccepted := p.taken.setOrder_accepted rfl rfl rfl (p.taken.setRefusal_none hnamed hrange hstate) hwritten
    have hdata : settingData (st.write n a v) n a = new := by rw [settingData, st.value_write_same hnamed hrange]; rfl
    have hanswer := (answeredRow_of_answer hready haccepted).trans
      (congrArg (nextWith s) (taken_withSettings_answered p (st.write n a v) body .done _))
    exact hanswer.trans (congrArg (fun data => nextWith s (Part.afterOrder _ body .done data)) hdata)
  · exact st.value_write_same hnamed hrange
  · exact st.value_write_frame hnamed hm hne v

end Sys2Proof.Machine

/-! SUPPORT. The Event Unit: what raising an event does to the flags, the control queue and the counters, the alert output, and the orders that read and clear the counters, the flags and the latches and write the masks. -/

namespace Sys2Proof.Machine

/-! ## Raising an event (R190, R191) -/

/-- A set flag stays and nothing happens. -/
theorem Part.raise_of_set {p : Part} {e : Event} (hset : p.flagSet e = true) : p.raise e = p := if_pos hset

/-- A clear flag whose rise makes no notice due rises. -/
theorem Part.raise_of_not_due {p : Part} {e : Event} (hclear : p.flagSet e = false) (hdue : p.noticeDue e = false) :
    p.raise e = p.setFlag e := by
  simp [Part.raise, hclear, hdue]

/-- A clear flag whose rise makes a notice due rises, and its notice is offered to the control queue. -/
theorem Part.raise_of_due {p : Part} {e : Event} (hclear : p.flagSet e = false) (hdue : p.noticeDue e = true) :
    p.raise e = (p.setFlag e).offerNotice e := by
  simp [Part.raise, hclear, hdue]

/-- A notice that the control queue admits joins its tail and is counted. -/
theorem Part.offerNotice_admitted {p : Part} (hroom : p.rlu.admitsNonUrgent = true) (e : Event) :
    p.offerNotice e = (p.withRlu (p.rlu.placeControl (p.statusNotice e.number))).bump .statusSent := if_pos hroom

/-- A notice for which the control queue has no room is lost and counted, and NOTICE_LOST rises. -/
theorem Part.offerNotice_lost {p : Part} (hroom : ¬ p.rlu.admitsNonUrgent = true) (e : Event) :
    p.offerNotice e = (p.bump .noticesLost).setFlag .noticeLost := if_neg hroom

/-! ## The alert output (R192) -/

/-- A word is not zero exactly where one of its bits is set. -/
theorem bitVec_ne_zero_iff_exists_getLsbD {w : Nat} (x : BitVec w) : x ≠ 0#w ↔ ∃ i : Fin w, x.getLsbD i = true := by
  constructor
  · contrapose!
    intro hbits
    refine BitVec.eq_of_getLsbD_eq fun i hi => ?_
    simpa using hbits ⟨i, hi⟩
  · rintro ⟨i, hi⟩ rfl
    simp at hi

/-- The alert output is asserted while a marked flag is set and RESET_N is not held low. -/
theorem Part.alert_iff (p : Part) : p.alert = true ↔
    p.resetHeld = false ∧ ∃ i : Fin 20, p.evu.flags.getLsbD i = true ∧ p.evu.mask.getLsbD i = true := by
  rw [Part.alert, Bool.and_eq_true, Bool.not_eq_true', bne_iff_ne, bitVec_ne_zero_iff_exists_getLsbD]
  simp only [BitVec.getLsbD_and, Bool.and_eq_true]

/-- Settles O51: the branches of R190 and R191 in their order, then the alert output. -/
theorem eventsRaised : Obligations.EventsRaised := by
  unfold Obligations.EventsRaised
  intro p e flags due room
  refine ⟨Part.raise_of_set, fun hclear hdue => ?_, fun hclear hdue hroom => ?_, fun hclear hdue hroom => ?_, p.alert_iff⟩
  · exact Part.raise_of_not_due hclear hdue
  · have hadmits : (p.setFlag e).rlu.admitsNonUrgent = true := (Rlu.admits_iff p.rlu).2 hroom
    exact (Part.raise_of_due hclear hdue).trans (Part.offerNotice_admitted hadmits e)
  · have hfull : ¬ (p.setFlag e).rlu.admitsNonUrgent = true := fun h => hroom ((Rlu.admits_iff p.rlu).1 h)
    exact (Part.raise_of_due hclear hdue).trans (Part.offerNotice_lost hfull e)

/-! ## READ COUNTERS (R194) -/

/-- The counters of a group in the Event Unit's table, for a head address that fits it: the place of the first, and how many (section 12.3). -/
def counterRange (g a : Nat) : Option (Nat × Nat) :=
  if g = 2 then (if 1 ≤ a ∧ a ≤ 8 then some (61 + 6 * (a - 1), 6) else none)
  else if a ≠ 0 then none
  else if g = 1 then some (0, 11) else if g = 3 then some (11, 18) else if g = 4 then some (29, 16)
  else if g = 5 then some (45, 9) else if g = 6 then some (54, 7) else none

/-- The places of a head's six counters. -/
theorem counterGroup_head (a : Nat) : counterGroup 2 a = (counterRange 2 a).map (fun x => List.range' x.1 x.2) := by
  unfold counterGroup counterRange
  rw [if_pos rfl, if_pos rfl]
  by_cases ha : 1 ≤ a ∧ a ≤ 8
  · simp [headOfAddress, ha, List.range'_eq_map_range]
  · simp [headOfAddress, ha]

/-- The places of a group's counters are those of its range. -/
theorem counterGroup_eq (g a : Nat) : counterGroup g a = (counterRange g a).map (fun x => List.range' x.1 x.2) := by
  by_cases hhead : g = 2
  · rw [hhead, counterGroup_head]
  by_cases ha : a = 0
  · simp only [counterGroup, counterRange, if_neg hhead, ha, ne_eq, not_true_eq_false, if_false]
    split <;> simp_all
  · simp [counterGroup, counterRange, hhead, ha]

/-- The counters of a run of places, in their order. -/
theorem Part.counterBytes_range (p : Part) (lo len : Nat) : p.counterBytes (List.range' lo len) =
    (List.range len).flatMap (fun i => bytesOfNat 4 (p.evu.counters.toList.getD (lo + i) 0)) := by
  rw [Part.counterBytes, List.range'_eq_map_range, List.flatMap_map]

/-- Clearing a run of places leaves 0 there and every other counter as it stands. -/
theorem Part.clearCounters_range (p : Part) (lo len : Nat) (i : Fin 109) :
    (p.clearCounters (List.range' lo len)).evu.counters[i] =
      if lo ≤ i.val ∧ i.val < lo + len then 0 else p.evu.counters[i] := by
  simp [Part.clearCounters]

section

variable {p : Part} {ps : List Byte}

/-- A bad group or address reads no counter. -/
theorem Part.readCountersOrder_refused (h : counterRange (fieldNat ps 0 1) (fieldNat ps 1 1) = none) :
    p.readCountersOrder ps = ⟨p, .badValue, []⟩ := by
  simp [Part.readCountersOrder, counterGroup_eq, h]

/-- A good group and address read the group's counters, and clear them where the option is set. -/
theorem Part.readCountersOrder_read {lo len : Nat}
    (h : counterRange (fieldNat ps 0 1) (fieldNat ps 1 1) = some (lo, len)) :
    p.readCountersOrder ps =
      ⟨if fieldNat ps 2 1 = 0 then p else p.clearCounters (List.range' lo len), .done,
        BitVec.ofNat 8 (fieldNat ps 0 1) :: BitVec.ofNat 8 (fieldNat ps 1 1) ::
          (List.range len).flatMap (fun i => bytesOfNat 4 (p.evu.counters.toList.getD (lo + i) 0))⟩ := by
  simp [Part.readCountersOrder, counterGroup_eq, h, Part.counterBytes_range, byteOf]

end

/-! ## READ EVENTS and SET NOTICE MASK (R192, R193) -/

/-- The two bytes of every head in a clear set or a mask body, head by head, are the body's bytes from the fifth on. -/
theorem flatMap_pairs_eq (n : Nat) : ∀ l : List Byte, l.length = 2 * n →
    (List.range n).flatMap (fun i => [l.getD (2 * i) 0#8, l.getD (2 * i + 1) 0#8]) = l := by
  induction n with
  | zero => exact fun l hl => (List.eq_nil_of_length_eq_zero hl).symm
  | succ n ih =>
    intro l hl
    match l, hl with
    | a :: b :: rest, hl =>
      have hrest := ih rest (by simp at hl; omega)
      simpa [List.range_succ_eq_map, List.flatMap_map, Nat.mul_add] using hrest

/-- The two mask bytes or clear bytes of every head, head by head, are the bytes of a 20-byte body from the fifth on. -/
theorem headPairs_eq {ps : List Byte} (hlength : ps.length = 20) :
    (List.range 8).flatMap (fun i => [ps.getD (4 + 2 * i) 0#8, ps.getD (5 + 2 * i) 0#8]) = ps.drop 4 := by
  have hpairs := flatMap_pairs_eq 8 (ps.drop 4) (by simp [hlength])
  have hbyte : ∀ j, (ps.drop 4).getD j 0#8 = ps.getD (4 + j) 0#8 := fun j => by simp
  have hsecond : ∀ i, 4 + (2 * i + 1) = 5 + 2 * i := fun i => by omega
  simpa only [hbyte, hsecond] using hpairs

/-- The masks as written are the 20 bytes of the body: the notice mask's twenty bits, then the mask bytes of the heads. -/
theorem Part.maskBytes_writeMasks (p : Part) {ps : List Byte} (hlength : ps.length = 20) :
    (p.writeMasks ps).maskBytes = bytesOfNat 4 (BitVec.ofNat 20 (fieldNat ps 0 4)).toNat ++ ps.drop 4 := by
  have hmasks : (p.writeMasks ps).hlu.heads.toList.map (fun r => [r.riseMask, r.fallMask]) =
      (List.range 8).map (fun i => [ps.getD (4 + 2 * i) 0#8, ps.getD (5 + 2 * i) 0#8]) :=
    List.ext_getElem (by simp) fun i _ _ => by simp [Part.writeMasks]
  rw [Part.maskBytes, List.flatMap_def, hmasks, ← List.flatMap_def, headPairs_eq hlength]
  rfl

/-- The parameters of a SET NOTICE MASK of the right length are 20 bytes. -/
theorem Part.Ready.length_noticeMask {p : Part} {body : List Byte} (h : p.Ready 17 body) :
    (orderParams body).length = 20 := by
  obtain ⟨-, -, hcode, hlength, -, -⟩ := h
  have hrequired : requiredLength 17 (orderParams body) = some (orderParams body).length :=
    hcode ▸ beq_iff_eq.1 hlength
  exact (Option.some_inj.1 hrequired).symm

/-- The reply of a taken order that has written the counters after its taking. -/
theorem taken_withCounters_answered (p : Part) (t : Vector Nat 109) (body : List Byte) (r : Result) (data : List Byte) :
    (p.taken.withEvu { p.taken.evu with counters := t }).fillReservation (replyTo body r data) =
      { p.afterOrder body r data with evu := { (p.afterOrder body r data).evu with counters := t } } := rfl

/-- The reply of a taken order that has written the flags or the notice mask, and the head records. -/
theorem taken_withEvents_answered (p : Part) (flags mask : BitVec 20) (heads : Vector HeadRecord 8) (body : List Byte)
    (r : Result) (data : List Byte) :
    ((p.taken.withEvu { p.taken.evu with flags, mask }).withHlu { p.taken.hlu with heads }).fillReservation
        (replyTo body r data) =
      Part.afterOrder { p with hlu := { p.hlu with heads }, evu := { p.evu with flags, mask } } body r data := rfl

/-- Settles O47: the group's counters read and cleared, the flags and latches that the clear sets mark, the masks written. -/
theorem countersEventsAndMasks : Obligations.CountersEventsAndMasks := by
  unfold Obligations.CountersEventsAndMasks
  intro s body p ps g a group
  refine ⟨fun h => ⟨fun hnone => ?_, fun lo len hsome => ?_⟩, fun h => ⟨(p.taken.clearEvents ps).hlu.heads, ?_, fun i => ?_⟩,
    fun h => ⟨(p.taken.writeMasks ps).hlu.heads, ?_, fun i => ?_⟩⟩
  · exact answeredRow_of_unchanged h (Part.readCountersOrder_refused hnone)
  · have hread := Part.readCountersOrder_read (p := p.taken) hsome
    refine ⟨fun hkeep => ?_, fun hclear => ⟨(p.taken.clearCounters (List.range' lo len)).evu.counters, ?_, fun i => ?_⟩⟩
    · rw [if_pos hkeep] at hread
      exact answeredRow_of_unchanged h hread
    · rw [if_neg hclear] at hread
      exact (answeredRow_of_answer h hread).trans (congrArg (nextWith s) (taken_withCounters_answered p _ body .done _))
    · exact p.taken.clearCounters_range lo len i
  · have hread : p.taken.readEventsOrder ps = ⟨p.taken.clearEvents ps, .done, _⟩ := rfl
    exact (answeredRow_of_answer h hread).trans
      (congrArg (nextWith s) (taken_withEvents_answered p _ p.evu.mask _ body .done _))
  · exact Vector.getElem_mapFinIdx i.isLt
  · have hwritten : p.taken.noticeMaskOrder ps = ⟨p.taken.writeMasks ps, .done, _⟩ :=
      congrArg (Answer.mk _ .done) (p.taken.maskBytes_writeMasks h.length_noticeMask)
    exact (answeredRow_of_answer h hwritten).trans
      (congrArg (nextWith s) (taken_withEvents_answered p p.evu.flags _ _ body .done _))
  · exact Vector.getElem_mapFinIdx i.isLt

end Sys2Proof.Machine

/-! SUPPORT. Steps and resets: the command at the front of the queue, the state that each form of a hard reset leaves, and the freeze while RESET_N is held low (R198). -/

namespace Sys2Proof.Machine

/-! ## The front of the queue -/

/-- Settles O1: it is how a step takes a command from a queue that is not empty. -/
theorem stepRunsFrontCommand : Obligations.StepRunsFrontCommand := by
  unfold Obligations.StepRunsFrontCommand
  exact fun c s => step_cons { s with pending := c :: s.pending } c s.pending rfl

/-! ## Hard reset (R58, R150, R198) -/

/-- A part that owes no urgent notice has none to move into a free control entry (R148). -/
theorem Part.owedMoved_of_none {p : Part} (h : p.ext.owed = []) : p.owedMoved = p := by
  rw [← Part.moveOwed_eq, Part.moveOwed, h, Part.moveOwedList]

/-- A hard reset leaves no urgent notice owed (R150). -/
theorem Part.hardReset_owed (p : Part) (held : Bool) : (p.hardReset held).ext.owed = [] := rfl

/-- A cause of hard reset acts whether or not the part is held, and owed notices then move (R148). -/
theorem execHardReset_nextWith (c : ResetCause) (s : State) : execHardReset c s = nextWith s (s.part.resetBy c) := by
  rw [execHardReset, Part.moveOwed_eq, nextWith, nextAs]

/-- A pulse of at least 1 µs resets the part and leaves RESET_N high (log 46). -/
theorem Part.resetBy_longPulse (p : Part) {ns : Nat} (h : 1000 ≤ ns) : p.resetBy (.pulse ns) = p.hardReset false :=
  if_pos h

/-- A pulse of less than 1 µs is ignored. -/
theorem Part.resetBy_shortPulse (p : Part) {ns : Nat} (h : ns < 1000) : p.resetBy (.pulse ns) = p :=
  if_neg (Nat.not_le.2 h)

/-- The rising edge ends a hold. -/
theorem execResetNRisingEdge_of_held {s : State} (h : s.part.resetHeld = true) :
    execResetNRisingEdge s = nextWith s (s.part.hardReset false) := by
  rw [execResetNRisingEdge, if_pos h, nextWith, Part.owedMoved_of_none (s.part.hardReset_owed false), nextAs]

/-- A rising edge without a hold resets nothing. -/
theorem execResetNRisingEdge_of_not_held {s : State} (h : s.part.resetHeld = false) :
    execResetNRisingEdge s = nextWith s s.part := by
  rw [execResetNRisingEdge, if_neg (ne_true_of_eq_false h), live_nextWith s id h, id]

/-- Settles O4: each form of the command by the reset it makes, or by its making none. -/
theorem hardResetState : Obligations.HardResetState := by
  unfold Obligations.HardResetState
  intro s
  refine ⟨execHardReset_nextWith .powerOn s, fun ns hlong => ?_, fun ns hshort => ?_, execHardReset_nextWith .heldLow s,
    execResetNRisingEdge_of_held, execResetNRisingEdge_of_not_held⟩
  · exact (execHardReset_nextWith (.pulse ns) s).trans (congrArg (nextWith s) (s.part.resetBy_longPulse hlong))
  · exact (execHardReset_nextWith (.pulse ns) s).trans (congrArg (nextWith s) (s.part.resetBy_shortPulse hshort))

/-! ## While RESET_N is held low (R198; log 8) -/

/-- The alert output of a part held in hard reset is deasserted. -/
theorem Part.alert_of_held {p : Part} (h : p.resetHeld = true) : p.alert = false := by
  rw [Part.alert, h, Bool.not_true, Bool.false_and]

/-- A meaning that RESET_N low holds back leaves a held state alone. -/
theorem unheld_held {s : State} (f : Part → Part) (h : s.part.resetHeld = true) : unheld s f = .next s := if_pos h

/-- An encoder step follows the levels of the pins, and nothing more, on a held part. -/
theorem execEncoderStep_of_held {s : State} (h : s.part.resetHeld = true) (e : Encoder) (a b : Bool) :
    execEncoderStep e a b s = nextAs s (s.part.setPhases e a b) := if_pos h

/-- Each command but the edges of RESET_N and an encoder step leaves a held state alone. All of these are `live` but a leaving, which is held back without owed notices moving after it (log 17). -/
theorem exec_of_held {s : State} (h : s.part.resetHeld = true) {c : Instr} (hreset : ∀ x, c ≠ .hardReset x)
    (hedge : c ≠ .resetNRisingEdge) (hphases : ∀ e a b, c ≠ .encoderStep e a b) : exec c s = .next s := by
  cases c with
  | hardReset cause => exact absurd rfl (hreset cause)
  | resetNRisingEdge => exact absurd rfl hedge
  | encoderStep channel phaseA phaseB => exact absurd rfl (hphases channel phaseA phaseB)
  | frameLeaving owedFirst => exact unheld_held (fun p => p.leavingWith owedFirst) h
  | _ =>
    unfold exec
    exact live_held s _ h

/-- Settles O5: the alert output, the commands that RESET_N low holds back, and the phase levels of either channel. -/
theorem heldResetFreezes : Obligations.HeldResetFreezes := by
  unfold Obligations.HeldResetFreezes
  exact fun s h => ⟨Part.alert_of_held h, fun c => exec_of_held h, execEncoderStep_of_held h .e1,
    execEncoderStep_of_held h .e2⟩

end Sys2Proof.Machine

/-! SUPPORT. What every command keeps: a property of the part that each event, each order's effect and each reset keeps is kept by every command and by every step. -/

namespace Sys2Proof.Machine

/-! ## From the effects of the commands to the steps -/

/-- Every effect that a command can have keeps a property of the part: the resets, the events of each block, and what each order does once its checks have passed. -/
structure KeptByEffects (Inv : Part → Prop) : Prop extends KeptAroundOrders Inv where
  hardReset : ∀ (p : Part) held, Inv (p.hardReset held)
  moveOwed : ∀ {p}, Inv p → Inv p.moveOwed
  elapse : ∀ {p}, Inv p → Inv p.elapse
  headChar : ∀ {p} c, Inv p → Inv (p.headChar c)
  headLoss : ∀ {p}, Inv p → Inv p.headLoss
  lockEvent : ∀ {p}, Inv p → Inv p.lockEvent
  watchdogEvent : ∀ {p} h, Inv p → Inv (p.watchdogEvent h)
  freshnessEvent : ∀ {p} h, Inv p → Inv (p.freshnessEvent h)
  relaySentEvent : ∀ {p}, Inv p → Inv p.relaySentEvent
  relayTimeoutEvent : ∀ {p}, Inv p → Inv p.relayTimeoutEvent
  setPhases : ∀ {p} c a b, Inv p → Inv (p.setPhases c a b)
  phaseChange : ∀ {p} c a b, Inv p → Inv (p.phaseChange c a b)
  tickEvent : ∀ {p}, Inv p → Inv p.tickEvent
  watchEvent : ∀ {p}, Inv p → Inv p.watchEvent
  reversalEvent : ∀ {p}, Inv p → Inv p.reversalEvent
  closeEvent : ∀ {p} n, Inv p → Inv (p.closeEvent n)
  gapEvent : ∀ {p} n, Inv p → Inv (p.gapEvent n)
  historyEvent : ∀ {p}, Inv p → Inv p.historyEvent
  validityTest : ∀ {p}, Inv p → Inv p.validityTest
  parkEvent : ∀ {p}, Inv p → Inv p.parkEvent
  recorderChar : ∀ {p} c, Inv p → Inv (p.recorderChar c)
  recorderLoss : ∀ {p}, Inv p → Inv p.recorderLoss
  linkUpEvent : ∀ {p}, Inv p → Inv p.linkUpEvent
  arbiterEvent : ∀ {p}, Inv p → Inv p.arbiterEvent
  leavingEvent : ∀ {p}, Inv p → Inv p.leavingEvent
  setting : ∀ {p} n a v, p.setRefusal n a v = none → Inv p →
    Inv ((p.withSettings (p.oru.settings.write n a v)).settingEffect n a)
  beginRun : ∀ {p} n, p.rnc.runState = .halted → Inv p → Inv (p.beginRun n)
  endRun : ∀ {p}, Inv p → Inv p.endRun
  setPositionTo : ∀ {p} ps d, Inv p → Inv (p.setPositionTo (fieldInt ps 0 4) d)
  appendRouteList : ∀ {p} (l : List (List Byte)), Inv p → Inv (p.appendRouteList (l.map rawRoute)).1
  appendSectionList : ∀ {p} rs, Inv p → Inv (p.appendSectionList rs).1
  emptyRoute : ∀ {p}, Inv p → Inv p.emptyRoute
  emptySections : ∀ {p}, Inv p → Inv p.emptySections
  limitsWritten : ∀ {p} a rs, Inv p → Inv (p.withLmu { p.lmu with limits := (writeRows a rs p.lmu.limits).1 })
  mapWritten : ∀ {p} map, Inv p → Inv (p.withShu { p.shu with map := map })
  clearCounters : ∀ {p} l, Inv p → Inv (p.clearCounters l)
  clearEvents : ∀ {p} ps, Inv p → Inv (p.clearEvents ps)
  writeMasks : ∀ {p} ps, Inv p → Inv (p.writeMasks ps)
  restoreHead : ∀ {p} h, (p.hlu.heads[h]).state = .excluded → Inv p → Inv (p.writeHead h (p.hlu.heads[h]).restored)
  relayOrder : ∀ {p} h body, Inv p → Inv (p.relayOrder h body)
  restarted : ∀ {p}, Inv p → Inv p.restarted

section
variable {Inv : Part → Prop} {p : Part}

theorem KeptByEffects.headFrame (k : KeptByEffects Inv) (chars : List LineChar) (h : Inv p) : Inv (p.headFrame chars) := by
  unfold Part.headFrame
  induction LineChar.frameStart :: chars generalizing p with
  | nil => exact h
  | cons c cs ih => exact ih (k.headChar c h)

theorem KeptByEffects.recorderFrame (k : KeptByEffects Inv) (chars : List LineChar) (h : Inv p) :
    Inv (p.recorderFrame chars) := by
  unfold Part.recorderFrame
  induction LineChar.frameStart :: chars generalizing p with
  | nil => exact h
  | cons c cs ih => exact ih (k.recorderChar c h)

theorem KeptByEffects.settleMotion (k : KeptByEffects Inv) (h : Inv p) : Inv p.settleMotion :=
  k.watchEvent (k.tickEvent (k.reversalEvent h))

/-- A leaving, with the owed notices that take the freed entry or without them. -/
theorem KeptByEffects.leavingWith (k : KeptByEffects Inv) (owedFirst : Bool) (h : Inv p) :
    Inv (p.leavingWith owedFirst) := by
  unfold Part.leavingWith
  split
  · exact k.leavingEvent h
  · exact k.moveOwed (k.leavingEvent h)

theorem KeptByEffects.resetBy (k : KeptByEffects Inv) (c : ResetCause) (h : Inv p) : Inv (p.resetBy c) := by
  cases c with
  | powerOn => exact k.hardReset p _
  | heldLow => exact k.hardReset p _
  | pulse ns =>
    unfold Part.resetBy
    dsimp only
    split
    · exact k.hardReset p _
    · exact h

/-! ### Orders -/

/-- An owner whose answer keeps a property of the part. -/
def OwnerKeeps (Inv : Part → Prop) (owner : Part → List Byte → Answer) : Prop :=
  ∀ (p : Part) (ps : List Byte), Inv p → Inv (owner p ps).part

/-- An owner that answers from the part as it stands. -/
theorem OwnerKeeps.of_reads {owner : Part → List Byte → Answer} (h : ∀ p ps, (owner p ps).part = p) :
    OwnerKeeps Inv owner := fun p ps hp => by rwa [h]

theorem getOrder_part (p : Part) (ps : List Byte) : (p.getOrder ps).part = p := by
  unfold Part.getOrder
  dsimp only
  split <;> rfl

theorem readLimitsOrder_part (p : Part) (ps : List Byte) : (p.readLimitsOrder ps).part = p := by
  unfold Part.readLimitsOrder
  dsimp only
  split <;> rfl

theorem readMapOrder_part (p : Part) (ps : List Byte) : (p.readMapOrder ps).part = p := by
  unfold Part.readMapOrder
  dsimp only
  split <;> rfl

theorem readStateOrder_part (p : Part) (ps : List Byte) : (p.readStateOrder ps).part = p := by
  unfold Part.readStateOrder
  split <;> rfl

theorem KeptByEffects.setOrder (k : KeptByEffects Inv) : OwnerKeeps Inv Part.setOrder := by
  intro p ps h
  unfold Part.setOrder
  dsimp only
  split
  · exact h
  · exact h
  · rename_i haccepted
    exact k.setting _ _ _ haccepted h

theorem Part.halted_of_startRefusal {p : Part} (h : p.startRefusal = none) : p.rnc.runState = .halted := by
  by_contra hrun
  rw [Part.startRefusal_inRun hrun] at h
  cases h

theorem KeptByEffects.startOrder (k : KeptByEffects Inv) : OwnerKeeps Inv Part.startOrder := by
  intro p ps h
  unfold Part.startOrder
  split
  · exact h
  · rename_i haccepted
    exact k.beginRun _ (Part.halted_of_startRefusal haccepted) h

theorem KeptByEffects.stopOrder (k : KeptByEffects Inv) : OwnerKeeps Inv Part.stopOrder := fun _ _ h => k.endRun h

theorem KeptByEffects.positionOrder (k : KeptByEffects Inv) : OwnerKeeps Inv Part.positionOrder := by
  intro p ps h
  unfold Part.positionOrder
  split
  · exact h
  · split
    · exact h
    · exact k.setPositionTo _ _ h

theorem KeptByEffects.appendRouteOrder (k : KeptByEffects Inv) : OwnerKeeps Inv Part.appendRouteOrder := by
  intro p ps h
  unfold Part.appendRouteOrder
  dsimp only
  split
  · exact h
  · exact k.appendRouteList _ h

theorem KeptByEffects.appendSectionsOrder (k : KeptByEffects Inv) : OwnerKeeps Inv Part.appendSectionsOrder := by
  intro p ps h
  unfold Part.appendSectionsOrder
  dsimp only
  split
  · exact h
  · exact k.appendSectionList _ h

theorem KeptByEffects.clearOrder (k : KeptByEffects Inv) : OwnerKeeps Inv Part.clearOrder := by
  intro p ps h
  unfold Part.clearOrder
  dsimp only
  split_ifs
  · exact k.emptyRoute h
  · exact k.emptySections h
  · exact k.emptySections (k.emptyRoute h)
  · exact h

theorem KeptByEffects.writeLimitsOrder (k : KeptByEffects Inv) : OwnerKeeps Inv Part.writeLimitsOrder := by
  intro p ps h
  unfold Part.writeLimitsOrder
  dsimp only
  split
  · exact h
  · exact k.limitsWritten _ _ h

theorem KeptByEffects.writeMapOrder (k : KeptByEffects Inv) : OwnerKeeps Inv Part.writeMapOrder := by
  intro p ps h
  unfold Part.writeMapOrder
  dsimp only
  split_ifs
  · exact h
  · exact h
  · exact k.mapWritten _ h

theorem KeptByEffects.readCountersOrder (k : KeptByEffects Inv) : OwnerKeeps Inv Part.readCountersOrder := by
  intro p ps h
  unfold Part.readCountersOrder
  dsimp only
  split
  · dsimp only
    split
    · exact h
    · exact k.clearCounters _ h
  · exact h

theorem KeptByEffects.restoreOrder (k : KeptByEffects Inv) : OwnerKeeps Inv Part.restoreOrder := by
  intro p ps h
  unfold Part.restoreOrder
  split
  · exact h
  · dsimp only
    split
    · rename_i hexcluded
      exact k.restoreHead _ hexcluded h
    · exact h

theorem KeptByEffects.headOrder (k : KeptByEffects Inv) (body : List Byte) (h : Inv p) : Inv (p.headOrder body) := by
  unfold Part.headOrder
  split
  · exact k.relayOrder _ _ h
  · exact k.replied _ h

/-! ### Commands and steps -/

/-- A command keeps what its effect and the moving of owed notices keep (R148). -/
theorem KeptByEffects.live (k : KeptByEffects Inv) {s t : State} {f : Part → Part} (h : Inv s.part)
    (ht : live s f = .next t) (hf : Inv (f s.part)) : Inv t.part := live_keeps k.moveOwed h hf ht

/-- An order row, of one code or of one setting, keeps what its owner keeps. -/
theorem KeptByEffects.order (k : KeptByEffects Inv) {s t : State} {code : Nat} {sel : List Byte → Bool}
    {owner : Part → List Byte → Answer} (h : Inv s.part)
    (ht : Machine.live s (Part.orderRow code sel (answered owner)) = .next t) (howner : OwnerKeeps Inv owner) :
    Inv t.part := k.live h ht (k.toKeptAroundOrders.answered h code sel fun ps hq => howner _ ps hq)

theorem KeptByEffects.exec (k : KeptByEffects Inv) (i : Instr) (s t : State) (h : Inv s.part)
    (ht : exec i s = .next t) : Inv t.part := by
  cases i with
  | hardReset c =>
    cases ht
    exact k.moveOwed (k.resetBy c h)
  | resetNRisingEdge =>
    simp only [Machine.exec, execResetNRisingEdge] at ht
    split at ht
    · cases ht
      exact k.hardReset _ _
    · exact k.live h ht h
  | encoderStep c a b =>
    simp only [Machine.exec, execEncoderStep] at ht
    split at ht
    · cases ht
      exact k.setPhases c a b h
    · exact k.live h ht (k.phaseChange c a b (k.settleMotion h))
  | frameLeaving b =>
    simp only [Machine.exec, execFrameLeaving, unheld] at ht
    split at ht
    · cases ht
      exact h
    · cases ht
      exact k.leavingWith b h
  | headLinkCharacter line => exact k.live (f := fun p => p.headChar (lineCharOf line)) h ht (k.headChar _ h)
  | sampleFrame chars => exact k.live (f := fun p => p.headFrame chars) h ht (k.headFrame chars h)
  | markerFrame chars => exact k.live (f := fun p => p.headFrame chars) h ht (k.headFrame chars h)
  | statusFrame chars => exact k.live (f := fun p => p.headFrame chars) h ht (k.headFrame chars h)
  | replyFrame chars => exact k.live (f := fun p => p.headFrame chars) h ht (k.headFrame chars h)
  | headLinkLossOfSignal => exact k.live h ht (k.headLoss h)
  | headLinkLock => exact k.live h ht (k.lockEvent h)
  | watchdogExpiry g => exact k.live (f := fun p => p.watchdogEvent g) h ht (k.watchdogEvent g h)
  | freshnessDeadline g => exact k.live (f := fun p => p.freshnessEvent g) h ht (k.freshnessEvent g h)
  | relayFrameSent => exact k.live h ht (k.relaySentEvent h)
  | relayTimeout => exact k.live h ht (k.relayTimeoutEvent h)
  | tick => exact k.live h ht (k.tickEvent h)
  | watchPoint => exact k.live h ht (k.watchEvent h)
  | reversal => exact k.live h ht (k.reversalEvent h)
  | closeLengthReached n => exact k.live (f := fun p => p.closeEvent n) h ht (k.closeEvent n h)
  | mergeGapExceeded n => exact k.live (f := fun p => p.gapEvent n) h ht (k.gapEvent n h)
  | historyExpiry => exact k.live h ht (k.historyEvent h)
  | fixValidityExceeded => exact k.live h ht (k.validityTest h)
  | parkTimerExpiry => exact k.live h ht (k.parkEvent h)
  | recorderLinkCharacter line => exact k.live (f := fun p => p.recorderChar (lineCharOf line)) h ht (k.recorderChar _ h)
  | orderFrame chars => exact k.live (f := fun p => p.recorderFrame chars) h ht (k.recorderFrame chars h)
  | creditFrame chars => exact k.live (f := fun p => p.recorderFrame chars) h ht (k.recorderFrame chars h)
  | unknownKind chars => exact k.live (f := fun p => p.recorderFrame chars) h ht (k.recorderFrame chars h)
  | recorderLossOfSignal => exact k.live h ht (k.recorderLoss h)
  | recorderLinkUp => exact k.live h ht (k.linkUpEvent h)
  | arbiterStart => exact k.live h ht (k.arbiterEvent h)
  | unknownOrder => exact k.live h ht (k.toKeptAroundOrders.unknownRow h)
  | identify => exact k.order h ht (.of_reads fun _ _ => rfl)
  | set => exact k.order h ht k.setOrder
  | setRecordSpacing => exact k.order h ht k.setOrder
  | setHeadShape => exact k.order h ht k.setOrder
  | setLeadEncoder => exact k.order h ht k.setOrder
  | setFixValidityDistance => exact k.order h ht k.setOrder
  | setRouteLowWater => exact k.order h ht k.setOrder
  | setSectionLowWater => exact k.order h ht k.setOrder
  | get => exact k.order h ht (.of_reads getOrder_part)
  | startRun => exact k.order h ht k.startOrder
  | stopRun => exact k.order h ht k.stopOrder
  | setPosition => exact k.order h ht k.positionOrder
  | appendRoute => exact k.order h ht k.appendRouteOrder
  | appendSections => exact k.order h ht k.appendSectionsOrder
  | clearLists => exact k.order h ht k.clearOrder
  | writeLimits => exact k.order h ht k.writeLimitsOrder
  | readLimits => exact k.order h ht (.of_reads readLimitsOrder_part)
  | writeInputMap => exact k.order h ht k.writeMapOrder
  | readInputMap => exact k.order h ht (.of_reads readMapOrder_part)
  | readState => exact k.order h ht (.of_reads readStateOrder_part)
  | readCounters => exact k.order h ht k.readCountersOrder
  | readEvents => exact k.order h ht fun _ ps hp => k.clearEvents ps hp
  | setNoticeMask => exact k.order h ht fun _ ps hp => k.writeMasks ps hp
  | restoreHead => exact k.order h ht k.restoreOrder
  | headOrder => exact k.live h ht (k.toKeptAroundOrders.orderRow h 19 _ fun body hq => k.headOrder body hq)
  | restart => exact k.live h ht (k.toKeptAroundOrders.orderRow h 20 _ fun _ hq => k.restarted hq)

/-- What every effect keeps, every step keeps. -/
theorem KeptByEffects.stepKeeps (k : KeptByEffects Inv) : StepKeeps Inv :=
  stepKeeps_of_exec k.exec k.moveOwed k.elapse

end

/-- Two properties that every step keeps, each on its own. -/
theorem StepKeeps.and {I J : Part → Prop} (hI : StepKeeps I) (hJ : StepKeeps J) : StepKeeps fun p => I p ∧ J p :=
  fun s t ⟨hi, hj⟩ ht => ⟨hI s t hi ht, hJ s t hj ht⟩

end Sys2Proof.Machine

/-! SUPPORT. The limit table and the settings: no operation but WRITE LIMITS and SET writes them, and both write what their checks let pass. -/

namespace Sys2Proof.Machine

/-! ## Operations that leave the limit table and the settings -/

/-- The limit table and the settings of the part. -/
def Part.tables (p : Part) : Vector LimitRow 64 × Settings := (p.lmu.limits, p.oru.settings)

section
variable (p : Part)

theorem Part.tables_eq_of_blocks {p q : Part} (hlmu : q.lmu.limits = p.lmu.limits) (horu : q.oru.settings = p.oru.settings) :
    q.tables = p.tables := Prod.ext hlmu horu

@[simp] theorem Part.bump_tables (c : Counter) : (p.bump c).tables = p.tables := rfl
@[simp] theorem Part.taken_tables : p.taken.tables = p.tables := rfl
@[simp] theorem Part.fillReservation_tables (f : ControlFrame) : (p.fillReservation f).tables = p.tables := rfl
@[simp] theorem Part.emptySections_tables : p.emptySections.tables = p.tables := rfl
@[simp] theorem Part.armSections_tables : p.armSections.tables = p.tables := rfl
@[simp] theorem Part.raise_tables (e : Event) : (p.raise e).tables = p.tables := by simp [Part.tables]

/-! ### The look-ahead lists and the position -/

@[simp] theorem Part.sectionLowTest_tables : p.sectionLowTest.tables = p.tables := by
  unfold Part.sectionLowTest
  split
  · exact Part.raise_tables _ _
  · rfl

@[simp] theorem Part.sectionStarvedTest_tables : p.sectionStarvedTest.tables = p.tables := by simp [Part.tables]

@[simp] theorem Part.sectionAdvance_tables : p.sectionAdvance.tables = p.tables := by
  unfold Part.sectionAdvance
  dsimp only
  split
  · rfl
  · simp only [Part.sectionStarvedTest_tables, Part.sectionLowTest_tables]
    rfl

@[simp] theorem Part.routeAdvance_tables (skip : Bool) : (p.routeAdvance skip).tables = p.tables := by simp [Part.tables]

@[simp] theorem Part.fix_tables (before : List RouteEntry) (m : Int) (after : List RouteEntry) :
    (p.fix before m after).tables = p.tables := by
  unfold Part.fix
  simp only [Part.sectionAdvance_tables, Part.routeAdvance_tables]
  simp [Part.tables]

@[simp] theorem Part.detect_tables (code : BitVec 32) : (p.detect code).tables = p.tables := by
  unfold Part.detect
  split
  · rfl
  · split
    · exact Part.fix_tables _ _ _ _
    · exact Part.raise_tables _ _

@[simp] theorem Part.turnTo_tables (d : Direction) : (p.turnTo d).tables = p.tables := by
  unfold Part.turnTo
  split <;> rfl

@[simp] theorem Part.cut_tables (c : CutFlag) : (p.cut c).tables = p.tables := by simp [Part.tables]

theorem Part.setPositionTo_tables (m : Int) (d : Direction) : (p.setPositionTo m d).tables = p.tables := by
  have hmoved : ∀ q : Part, ((q.routeAdvance true).sectionAdvance).tables = q.tables := fun q => by simp
  unfold Part.setPositionTo
  dsimp only
  split
  · exact (Part.cut_tables _ _).trans ((hmoved _).trans (p.turnTo_tables d))
  · exact (hmoved _).trans (p.turnTo_tables d)

theorem Part.appendSectionList_tables (rs : List RawSection) : (p.appendSectionList rs).1.tables = p.tables := by
  unfold Part.appendSectionList
  dsimp only
  split <;> rfl

/-! ### Ticks, reversals and watch points -/

@[simp] theorem Part.tickAdvance_tables : p.tickAdvance.tables = p.tables := by
  unfold Part.tickAdvance
  split
  · rfl
  · simp

@[simp] theorem Part.runTick_tables (t : Time) : (p.runTick t).tables = p.tables := by simp [Part.tables]
@[simp] theorem Part.capture_tables (t : TickData) : (p.capture t).tables = p.tables := by simp [Part.tables]
@[simp] theorem Part.speedTick_tables (t : TickData) : (p.speedTick t).tables = p.tables := by simp [Part.tables]
@[simp] theorem Part.comparison_tables : p.comparison.1.tables = p.tables := by simp [Part.tables]

@[simp] theorem Part.tickOnce_tables (found : Bool) : (p.tickOnce found).tables = p.tables := by
  unfold Part.tickOnce Part.deliverTick
  dsimp only
  split <;> simp

@[simp] theorem Part.switchTicks_tables (found : Bool) (n : Nat) : (p.switchTicks found n).tables = p.tables := by
  induction n generalizing p with
  | zero => rfl
  | succ n ih =>
    unfold Part.switchTicks
    split
    · exact (ih _).trans (Part.tickOnce_tables _ found)
    · rfl

theorem Part.tickEvent_tables : p.tickEvent.tables = p.tables := by
  unfold Part.tickEvent
  split
  · simp only [Part.switchTicks_tables, Part.tickOnce_tables, Part.comparison_tables]
    rfl
  · rfl

theorem Part.watchEvent_tables : p.watchEvent.tables = p.tables := by
  unfold Part.watchEvent
  split
  · exact (Part.switchTicks_tables _ _ _).trans p.comparison_tables
  · rfl

theorem Part.loseLists_tables : p.loseLists.tables = p.tables := rfl

theorem Part.reversalEvent_tables : p.reversalEvent.tables = p.tables := by
  have hflush : ∀ q : Part, q.reversalFlush.tables = q.tables := fun q => by simp [Part.tables]
  unfold Part.reversalEvent Part.reverse
  split
  · simp only [Part.cut_tables, hflush, Part.loseLists_tables, Part.raise_tables]
    rfl
  · rfl

/-! ### The head link -/

@[simp] theorem Part.completeRelay_tables (x : RelaySlot) (r : Result) (l : List Byte) :
    (p.completeRelay x r l).tables = p.tables := by
  unfold Part.completeRelay
  dsimp only
  split <;> rfl

theorem Part.relayTimeoutEvent_tables : p.relayTimeoutEvent.tables = p.tables := by
  unfold Part.relayTimeoutEvent
  split
  · exact p.completeRelay_tables _ _ _
  · rfl

theorem Part.takeMarker_tables (h : Head) (code : BitVec 32) : (p.takeMarker h code).tables = p.tables := by
  unfold Part.takeMarker
  split
  · split
    · exact p.detect_tables code
    · rfl
  · rfl

theorem Part.takeReply_tables (h : Head) (l : List Byte) : (p.takeReply h l).tables = p.tables := by
  unfold Part.takeReply
  split
  · split
    · exact p.completeRelay_tables _ _ _
    · rfl
  · exact Part.raise_tables _ _

theorem Part.takeKind_tables (h : Head) (hd : Header) (l : List Byte) : (p.takeKind h hd l).tables = p.tables := by
  unfold Part.takeKind
  split
  · simp [Part.tables]
  · exact p.takeMarker_tables _ _
  · simp [Part.tables]
  · exact p.takeReply_tables _ _

theorem Part.judgeFrame_tables (l : List Byte) (hd : Header) : (p.judgeFrame l hd).tables = p.tables := by
  unfold Part.judgeFrame
  split
  · rfl
  · split
    · simp [Part.tables]
    · split
      · simp [Part.tables]
      · refine (Part.takeKind_tables _ _ _ _).trans ?_
        simp [Part.tables]

theorem Part.frameEnd_tables (l : List Byte) (hd : Option Header) : (p.frameEnd l hd).tables = p.tables := by
  unfold Part.frameEnd
  split
  · simp [Part.tables]
  · split
    · simp [Part.tables]
    · exact Part.judgeFrame_tables (p.setRx .outside) _ _

theorem Part.charInFrame_tables (l : List Byte) (hd : Option Header) (c : LineChar) :
    (p.charInFrame l hd c).tables = p.tables := by
  cases c with
  | idle => rfl
  | violation => simp [Part.charInFrame, Part.tables]
  | frameStart =>
    unfold Part.charInFrame
    dsimp only
    split <;> simp [Part.tables]
  | data b => simp [Part.charInFrame, Part.tables]
  | frameEnd => exact p.frameEnd_tables l hd

theorem Part.charTaken_tables (c : LineChar) : (p.charTaken c).tables = p.tables := by
  unfold Part.charTaken
  split
  · split
    · simp [Part.tables]
    · simp [Part.tables]
    · simp [Part.tables]
    · exact p.charInFrame_tables _ _ c
  · simp [Part.tables]

theorem Part.headChar_tables (c : LineChar) : (p.headChar c).tables = p.tables := by
  refine (Part.charTaken_tables _ c).trans ?_
  simp [Part.tables]

/-! ### The recorder link and the orders -/

theorem Part.recorderChar_tables (c : LineChar) : (p.recorderChar c).tables = p.tables := by simp [Part.tables]

theorem Part.enterParked_tables : p.enterParked.tables = p.tables := by simp [Part.tables]

theorem Part.historyEvent_tables : p.historyEvent.tables = p.tables := by simp [Part.tables]

theorem Part.settingEffect_tables (n a : Nat) : (p.settingEffect n a).tables = p.tables := by
  unfold Part.settingEffect
  split
  · rfl
  · rfl
  · simp [Part.tables]
  · simp [Part.tables]
  · simp [Part.tables]
  · rfl
  · rfl

end

/-! ## Properties of the limit table and the settings -/

/-- A property of the limit table and the settings alone, which SET and WRITE LIMITS keep and the tables of a reset have, is kept by every effect. -/
theorem keptByEffects_of_tables {J : Vector LimitRow 64 × Settings → Prop} (hreset : J Part.reset.tables)
    (hset : ∀ (p : Part) n a v, p.setRefusal n a v = none → J p.tables →
      J (p.lmu.limits, p.oru.settings.write n a v))
    (hlimits : ∀ (p : Part) a rs, J p.tables → J ((writeRows a rs p.lmu.limits).1, p.oru.settings)) :
    KeptByEffects fun p => J p.tables := by
  have leaves : ∀ {p q : Part}, q.tables = p.tables → J p.tables → J q.tables := fun e h => e ▸ h
  exact {
    taken := leaves rfl
    bumped := fun _ => leaves rfl
    replied := fun _ => leaves rfl
    hardReset := fun _ _ => hreset
    moveOwed := leaves (by simp [Part.tables])
    elapse := leaves rfl
    headChar := fun c => leaves (Part.headChar_tables _ c)
    headLoss := leaves (by simp [Part.tables])
    lockEvent := leaves (by simp [Part.tables])
    watchdogEvent := fun _ => leaves (by simp [Part.tables])
    freshnessEvent := fun _ => leaves (by simp [Part.tables])
    relaySentEvent := leaves (by simp [Part.tables])
    relayTimeoutEvent := leaves (Part.relayTimeoutEvent_tables _)
    setPhases := fun _ _ _ => leaves (by simp [Part.tables])
    phaseChange := fun _ _ _ => leaves (by simp [Part.tables])
    tickEvent := leaves (Part.tickEvent_tables _)
    watchEvent := leaves (Part.watchEvent_tables _)
    reversalEvent := leaves (Part.reversalEvent_tables _)
    closeEvent := fun _ => leaves (by simp [Part.tables])
    gapEvent := fun _ => leaves (by simp [Part.tables])
    historyEvent := leaves (Part.historyEvent_tables _)
    validityTest := leaves (by simp [Part.tables])
    parkEvent := leaves (by simp [Part.tables])
    recorderChar := fun c => leaves (Part.recorderChar_tables _ c)
    recorderLoss := leaves (by simp [Part.tables])
    linkUpEvent := leaves (by simp [Part.tables])
    arbiterEvent := leaves (by simp [Part.tables])
    leavingEvent := leaves (by simp [Part.tables])
    setting := fun n a v haccepted h => leaves (Part.settingEffect_tables _ n a) (hset _ n a v haccepted h)
    beginRun := fun _ _ => leaves (by simp [Part.tables])
    endRun := leaves (by simp [Part.tables])
    setPositionTo := fun _ _ => leaves (Part.setPositionTo_tables _ _ _)
    appendRouteList := fun _ => leaves (by simp [Part.tables])
    appendSectionList := fun rs => leaves (Part.appendSectionList_tables _ rs)
    emptyRoute := leaves rfl
    emptySections := leaves rfl
    limitsWritten := fun a rs => hlimits _ a rs
    mapWritten := fun _ => leaves rfl
    clearCounters := fun _ => leaves rfl
    clearEvents := fun _ => leaves rfl
    writeMasks := fun _ => leaves rfl
    restoreHead := fun _ _ => leaves (by simp [Part.tables])
    relayOrder := fun _ _ => leaves rfl
    restarted := leaves rfl }

/-! ## The limit table holds valid rows (R116) -/

/-- WRITE LIMITS writes valid rows alone (R119). -/
theorem writeRows_valid {t : Vector LimitRow 64} (ht : ∀ i : Fin 64, (t[i]).valid = true) (a : Nat) (rs : List RawRow) :
    ∀ i : Fin 64, ((writeRows a rs t).1[i]).valid = true := by
  induction rs generalizing a t with
  | nil => exact ht
  | cons r rs ih =>
    rw [writeRows_cons]
    split
    · split
      · rename_i hvalid
        refine ih (fun i => ?_) (a + 1)
        rw [vmodify_get]
        split
        · exact hvalid
        · exact ht i
      · exact ht
    · exact ht

theorem limitRow_reset_valid (i : Fin 64) : (Lmu.reset.limits[i]).valid = true := by
  simp [Lmu.reset, LimitRow.reset, LimitRow.valid, Thresholds.absent, Thresholds.valid, Thresholds.present, risesStrictly]

theorem stepKeeps_rowsValid : StepKeeps Part.RowsValid :=
  (keptByEffects_of_tables (J := fun x => ∀ i : Fin 64, (x.1[i]).valid = true) limitRow_reset_valid
    (fun _ _ _ _ _ h => h) (fun _ a rs h => writeRows_valid h a rs)).stepKeeps

/-! ## The settings stay in their ranges (R182) -/

/-- Every setting of a table lies in its range. -/
def Settings.InRange (st : Settings) : Prop :=
  ∀ n a, settingNamed n a = true → settingInRange n (st.value n a) = true

theorem Settings.default_inRange : Settings.default.InRange := by
  intro n a hnamed
  obtain ⟨hlow, hhigh, haddress⟩ := (settingNamed_iff n a).1 hnamed
  have hnumbers : ∀ n ≤ 31, 1 ≤ n → n ≠ 12 → n ≠ 13 → settingInRange n (Settings.default.value n 0) = true := by decide
  have hshapes : ∀ a ≤ 8, 1 ≤ a → settingInRange 12 (Settings.default.value 12 a) = true := by decide
  have hmirrors : ∀ a ≤ 8, settingInRange 13 (Settings.default.value 13 a) = true := by decide
  by_cases h12 : n = 12
  · subst h12
    exact hshapes a haddress.2 haddress.1
  · by_cases h13 : n = 13
    · subst h13
      exact hmirrors a haddress.2
    · rw [if_neg (by omega)] at haddress
      subst haddress
      exact hnumbers n hhigh hlow h12 h13

/-- A SET that is accepted names its setting, gives it a value in range, and comes in HALTED where its row asks that. -/
theorem Part.checked_of_setRefusal {p : Part} {n a v : Nat} (h : p.setRefusal n a v = none) :
    settingNamed n a = true ∧ settingInRange n v = true ∧
      (haltedOnlySetting n = true → p.rnc.runState = .halted) := by
  unfold Part.setRefusal at h
  split_ifs at h with hnamed hrange hhalted
  simpa using And.intro hnamed (And.intro hrange hhalted)

/-- What SET writes once its checks have passed stays in range. -/
theorem Settings.InRange.write {st : Settings} (h : st.InRange) {n a v : Nat} (hnamed : settingNamed n a = true)
    (hrange : settingInRange n v = true) : (st.write n a v).InRange := by
  intro m b hm
  by_cases hsame : (m, b) = (n, a)
  · obtain ⟨rfl, rfl⟩ := Prod.mk.inj hsame
    rwa [st.value_write_same hnamed hrange]
  · rw [st.value_write_frame hnamed hm hsame]
    exact h m b hm

theorem stepKeeps_settingsInRange : StepKeeps Part.SettingsInRange :=
  (keptByEffects_of_tables (J := fun x => x.2.InRange) Settings.default_inRange
    (fun _ _ _ _ haccepted h =>
      let ⟨hnamed, hrange, _⟩ := Part.checked_of_setRefusal haccepted
      h.write hnamed hrange)
    (fun _ _ _ h => h)).stepKeeps

end Sys2Proof.Machine

/-! SUPPORT. The head records and the lock of the head link: what every operation makes of them, and that every step keeps them legal. -/

namespace Sys2Proof.Machine

/-! ## Head records (R8 to R14) -/

section
variable {r : HeadRecord}

theorem HeadRecord.reset_legal : HeadRecord.reset.Legal := ⟨by decide, by decide, by decide⟩

theorem qualifiedState_ne_excluded (pass run score : Nat) : qualifiedState pass run score ≠ .excluded := by
  unfold qualifiedState
  split_ifs <;> simp

/-- A score below 255 with a state that is not EXCLUDED. -/
theorem HeadRecord.legal_of_lt (hscore : r.score < 255) (hrun : r.goodRun ≤ 1023) (hstate : r.state ≠ .excluded) :
    r.Legal := ⟨by omega, hrun, iff_of_false hstate (by omega)⟩

theorem HeadRecord.Legal.score_lt (h : r.Legal) (hstate : r.state ≠ .excluded) : r.score < 255 := by
  obtain ⟨hscore, -, hexcluded⟩ := h
  have hne : r.score ≠ 255 := fun h255 => hstate (hexcluded.2 h255)
  omega

/-- A valid frame (R10 to R13). -/
theorem HeadRecord.Legal.good (h : r.Legal) (pass : Nat) : (r.good pass).Legal := by
  have hscore : r.state ≠ .excluded → r.score - 1 < 255 := fun hs => by
    have hlt := h.score_lt hs
    omega
  unfold HeadRecord.good
  dsimp only
  split
  · rename_i hs
    exact HeadRecord.legal_of_lt (hscore (by simp [hs])) (by simp) (qualifiedState_ne_excluded _ _ _)
  · rename_i hs
    exact HeadRecord.legal_of_lt (hscore (by simp [hs])) (Nat.min_le_right _ _) (qualifiedState_ne_excluded _ _ _)
  · rename_i hs
    exact HeadRecord.legal_of_lt (hscore (by simp [hs])) (Nat.min_le_right _ _) (by simp [hs])
  · rename_i hs
    refine HeadRecord.legal_of_lt (hscore (by simp [hs])) (Nat.min_le_right _ _) ?_
    dsimp only
    split <;> simp
  · obtain ⟨hs255, hrun, hexcluded⟩ := h
    split
    · exact HeadRecord.legal_of_lt (by simp) (by simp) (by simp)
    · exact ⟨hs255, by dsimp only; omega, hexcluded⟩

/-- A bad frame (R8, R9, R12). -/
theorem HeadRecord.Legal.bad (h : r.Legal) (drop : Bool) : (r.bad drop).Legal := by
  obtain ⟨hscore, -, hexcluded⟩ := h
  have hstate : r.score < 247 → r.state ≠ .excluded := fun hs he => by
    have h255 := hexcluded.1 he
    omega
  unfold HeadRecord.bad
  dsimp only
  by_cases hfull : 247 ≤ r.score
  · have h255 : min (r.score + 8) 255 = 255 := by omega
    rw [if_pos h255, h255]
    exact ⟨le_rfl, by simp, by simp⟩
  · have hlow : min (r.score + 8) 255 = r.score + 8 := by omega
    rw [hlow, if_neg (by omega)]
    refine HeadRecord.legal_of_lt (by dsimp only; omega) (by simp) ?_
    have hs := hstate (by omega)
    dsimp only
    split_ifs <;> simp [hs]

/-- A proven head brought back to ACQUIRING, or a head as it was, with its good run at 0 (R3, R14). -/
theorem HeadRecord.Legal.dropped (h : r.Legal) :
    HeadRecord.Legal { r with goodRun := 0, state := if r.state.proven then .acquiring else r.state } := by
  obtain ⟨hscore, -, hexcluded⟩ := h
  refine ⟨hscore, by simp, ?_⟩
  dsimp only
  split
  · rename_i hproven
    have hs : r.state ≠ .excluded := fun he => by simp [he, HeadState.proven] at hproven
    exact iff_of_false (by simp) fun h255 => hs (hexcluded.2 h255)
  · exact hexcluded

theorem HeadRecord.Legal.unlocked (h : r.Legal) : r.unlocked.Legal := by
  unfold HeadRecord.unlocked
  split
  · exact h
  · exact h.dropped

theorem HeadRecord.Legal.expired (h : r.Legal) : r.expired.Legal := h.dropped

theorem HeadRecord.restarted_legal : r.restarted.Legal := by
  have hscore : r.restarted.score < 255 := (by decide : HeadRecord.reset.score < 255)
  exact HeadRecord.legal_of_lt hscore (Nat.zero_le _) (by simp [restarted, reset])

theorem HeadRecord.restored_legal : r.restored.Legal := HeadRecord.legal_of_lt (by simp [restored]) (by simp [restored]) (by simp [restored])

end

/-! ## The head link as the statement has it -/

/-- Every head record legal; an UNLOCKED link without an error count and without a frame. -/
def Hlu.Legal (x : Hlu) : Prop :=
  (∀ h : Head, (x.heads[h]).Legal) ∧ (x.locked = false → x.linkErrors = 0 ∧ x.rx = .outside)

theorem Part.headsLegal_iff (p : Part) : p.HeadsLegal ↔ p.hlu.Legal := Iff.rfl

section
variable {p : Part}

theorem Hlu.Legal.of_eq {p q : Part} (h : p.hlu.Legal) (e : q.hlu = p.hlu) : q.hlu.Legal := e ▸ h

/-- All head records replaced by legal ones. -/
theorem Hlu.Legal.withHeads {x : Hlu} (h : x.Legal) {heads : Vector HeadRecord 8} (hheads : ∀ g : Head, (heads[g]).Legal) :
    Hlu.Legal { x with heads := heads } := ⟨hheads, h.2⟩

/-- The error count and the receiver of a LOCKED link. -/
theorem Hlu.Legal.ofLocked {x : Hlu} (h : x.Legal) (hlocked : x.locked = true) (errors : Nat) (rx : HeadRx) :
    Hlu.Legal { x with linkErrors := errors, rx := rx } := ⟨h.1, fun hfalse => by simp [hlocked] at hfalse⟩

theorem Vector.legal_map {heads : Vector HeadRecord 8} {f : HeadRecord → HeadRecord}
    (h : ∀ g : Head, (heads[g]).Legal) (hf : ∀ r : HeadRecord, r.Legal → (f r).Legal) (g : Head) : ((heads.map f)[g]).Legal := by
  have hmap : (heads.map f)[g] = f heads[g] := by simp
  rw [hmap]
  exact hf _ (h g)

theorem Part.onHead_legal (h : p.hlu.Legal) {g : Head} {f : HeadRecord → HeadRecord}
    (hf : (p.hlu.heads[g]).Legal → (f p.hlu.heads[g]).Legal) : (p.onHead g f).hlu.Legal := by
  refine h.withHeads fun i => ?_
  rw [vmodify_get]
  split
  · rename_i hgi
    exact hgi ▸ hf (h.1 g)
  · exact h.1 i

theorem Part.writeHead_legal (h : p.hlu.Legal) {g : Head} {r : HeadRecord} (hr : r.Legal) :
    (p.writeHead g r).hlu.Legal := by
  have hwritten : (p.onHead g (fun _ => r)).hlu.Legal := Part.onHead_legal h fun _ => hr
  unfold Part.writeHead
  dsimp only
  split
  · exact hwritten
  · exact hwritten.of_eq (by simp)

/-! ### Lock and hunt (R1 to R3) -/

theorem Part.unlock_legal (h : p.hlu.Legal) : p.unlock.hlu.Legal := by
  refine Hlu.Legal.of_eq (p := p.withHlu _) ?_ (by simp [Part.unlock]; rfl)
  exact ⟨Vector.legal_map h.1 fun _ hr => hr.unlocked, fun _ => ⟨rfl, rfl⟩⟩

theorem Part.lockEvent_legal (h : p.hlu.Legal) : p.lockEvent.hlu.Legal := by
  unfold Part.lockEvent
  split
  · exact ⟨h.1, nofun⟩
  · exact h

theorem Part.headLoss_legal (h : p.hlu.Legal) : p.headLoss.hlu.Legal := by
  unfold Part.headLoss
  dsimp only
  split
  · exact Part.unlock_legal (Part.lockEvent_legal h)
  · exact Part.lockEvent_legal h

/-- A fault on a LOCKED link, with the receiver left as it may be. -/
theorem Part.linkError_legal (h : p.hlu.Legal) (hlocked : p.hlu.locked = true) (rx : HeadRx) (c : Counter) :
    ((p.setRx rx).bump c).linkError.hlu.Legal := by
  have hcounted := h.ofLocked hlocked (min (p.hlu.linkErrors + 1) 15) rx
  unfold Part.linkError
  dsimp only
  split
  · exact Part.unlock_legal hcounted
  · exact hcounted

/-! ### Frames -/

theorem Part.badFrame_legal (h : p.hlu.Legal) (g : Head) (drop : Bool) : (p.badFrame g drop).hlu.Legal := by
  have hwritten := Part.writeHead_legal h (g := g) ((h.1 g).bad drop)
  unfold Part.badFrame
  dsimp only
  split
  · exact hwritten
  · exact hwritten

theorem Part.validFrame_legal (h : p.hlu.Legal) (g : Head) (sequence : BitVec 8) : (p.validFrame g sequence).hlu.Legal := by
  have hgood : (p.goodRecord g sequence).Legal := (h.1 g).good p.oru.settings.passThreshold
  have hcounted : Hlu.Legal { p.hlu with linkErrors := p.hlu.linkErrors - 1 } := ⟨h.1, fun hunlocked => by
    obtain ⟨herrors, hrx⟩ := h.2 hunlocked
    exact ⟨by rw [herrors], hrx⟩⟩
  unfold Part.validFrame
  generalize p.goodRecord g sequence = r at hgood
  exact Part.writeHead_legal hcounted hgood

theorem Part.completeRelay_legal (h : p.hlu.Legal) (x : RelaySlot) (r : Result) (l : List Byte) :
    (p.completeRelay x r l).hlu.Legal := by
  unfold Part.completeRelay
  dsimp only
  split <;> exact h

theorem Part.takeStatus_legal (h : p.hlu.Legal) (g : Head) (b : BitVec 8) : (p.takeStatus g b).hlu.Legal := by
  have htaken := Part.onHead_legal h (g := g) (f := fun x => { x with
    status := b, riseLatch := x.riseLatch ||| (p.hlu.heads[g]).rises b
    fallLatch := x.fallLatch ||| (p.hlu.heads[g]).falls b }) fun hr => hr
  unfold Part.takeStatus
  dsimp only
  split
  · exact htaken
  · exact htaken.of_eq (by simp)

theorem Part.takeReply_legal (h : p.hlu.Legal) (g : Head) (l : List Byte) : (p.takeReply g l).hlu.Legal := by
  unfold Part.takeReply
  split
  · split
    · exact Part.completeRelay_legal h _ _ _
    · exact h
  · exact h.of_eq (by simp)

theorem Part.takeKind_legal (h : p.hlu.Legal) (g : Head) (hd : Header) (l : List Byte) : (p.takeKind g hd l).hlu.Legal := by
  unfold Part.takeKind
  split
  · have hheld : (p.holdSample g hd (payloadOf l)).hlu.Legal := Part.onHead_legal h fun hr => hr
    exact hheld.of_eq (by simp)
  · exact h.of_eq (by simp)
  · have htaken := Part.takeStatus_legal h g ((payloadOf l)[0]?.getD 0)
    exact htaken.of_eq (by simp)
  · exact Part.takeReply_legal h g _

theorem Part.judgeFrame_legal (h : p.hlu.Legal) (l : List Byte) (hd : Header) : (p.judgeFrame l hd).hlu.Legal := by
  unfold Part.judgeFrame
  split
  · exact h
  · split
    · exact Part.badFrame_legal (p := p.bump _) h _ _
    · split
      · exact Part.badFrame_legal (p := p.bump _) h _ _
      · exact Part.takeKind_legal (Part.validFrame_legal h _ _) _ _ _

/-! ### Characters -/

theorem Part.setRx_legal (h : p.hlu.Legal) (hlocked : p.hlu.locked = true) (rx : HeadRx) : (p.setRx rx).hlu.Legal :=
  h.ofLocked hlocked p.hlu.linkErrors rx

theorem Part.frameData_legal (h : p.hlu.Legal) (hlocked : p.hlu.locked = true) (l : List Byte) (hd : Option Header)
    (b : Byte) : (p.frameData l hd b).hlu.Legal := by
  unfold Part.frameData
  dsimp only
  split
  · split
    · exact Part.setRx_legal h hlocked _
    · split
      · exact Part.linkError_legal h hlocked _ _
      · exact Part.setRx_legal h hlocked _
      · exact Part.setRx_legal h hlocked _
  · split
    · exact Part.linkError_legal h hlocked _ _
    · exact Part.setRx_legal h hlocked _

theorem Part.frameEnd_legal (h : p.hlu.Legal) (hlocked : p.hlu.locked = true) (l : List Byte) (hd : Option Header) :
    (p.frameEnd l hd).hlu.Legal := by
  unfold Part.frameEnd
  split
  · exact Part.linkError_legal h hlocked _ _
  · split
    · exact Part.linkError_legal h hlocked _ _
    · exact Part.judgeFrame_legal (Part.setRx_legal h hlocked _) _ _

theorem Part.charInFrame_legal (h : p.hlu.Legal) (hlocked : p.hlu.locked = true) (l : List Byte) (hd : Option Header)
    (c : LineChar) : (p.charInFrame l hd c).hlu.Legal := by
  cases c with
  | idle => exact h
  | violation => exact Part.linkError_legal h hlocked _ _
  | frameStart =>
    have herror : (p.framingError .passing).hlu.Legal := Part.linkError_legal h hlocked _ _
    unfold Part.charInFrame
    dsimp only
    split
    · rename_i hstill
      exact Part.setRx_legal herror hstill _
    · exact herror
  | data b => exact Part.frameData_legal h hlocked l hd b
  | frameEnd => exact Part.frameEnd_legal h hlocked l hd

theorem Part.charOutside_legal (h : p.hlu.Legal) (hlocked : p.hlu.locked = true) (counted : Bool) (c : LineChar) :
    (p.charOutside counted c).hlu.Legal := by
  unfold Part.charOutside
  split
  · exact Part.setRx_legal h hlocked _
  · exact Part.setRx_legal h hlocked _
  · exact h
  · split
    · exact h
    · exact Part.linkError_legal h hlocked _ _
  · split
    · exact h
    · exact Part.linkError_legal h hlocked _ _

theorem Part.charPassing_legal (h : p.hlu.Legal) (hlocked : p.hlu.locked = true) (c : LineChar) :
    (p.charPassing c).hlu.Legal := by
  unfold Part.charPassing
  split
  · exact Part.setRx_legal h hlocked _
  · exact h

theorem Part.charHunting_legal (h : p.hlu.Legal) (c : LineChar) : (p.charHunting c).hlu.Legal := by
  unfold Part.charHunting
  split <;> exact h

theorem Part.charTaken_legal (h : p.hlu.Legal) (c : LineChar) : (p.charTaken c).hlu.Legal := by
  unfold Part.charTaken
  split
  · rename_i hlocked
    split
    · exact Part.charOutside_legal h hlocked _ c
    · exact Part.charOutside_legal h hlocked _ c
    · exact Part.charPassing_legal h hlocked c
    · exact Part.charInFrame_legal h hlocked _ _ c
  · exact Part.charHunting_legal h c

theorem Part.headChar_legal (h : p.hlu.Legal) (c : LineChar) : (p.headChar c).hlu.Legal :=
  Part.charTaken_legal ((Part.lockEvent_legal h).of_eq (by simp)) c

/-! ### Deadlines, Run Control and orders -/

theorem Part.watchdogEvent_legal (h : p.hlu.Legal) (g : Head) : (p.watchdogEvent g).hlu.Legal := by
  unfold Part.watchdogEvent
  split
  · exact Part.writeHead_legal (p := p.bump _) h (h.1 g).expired
  · exact h

theorem Part.relaySentEvent_legal (h : p.hlu.Legal) : p.relaySentEvent.hlu.Legal := by
  unfold Part.relaySentEvent
  split
  · exact h
  · dsimp only
    split
    · split <;> exact h
    · exact h

theorem Part.relayTimeoutEvent_legal (h : p.hlu.Legal) : p.relayTimeoutEvent.hlu.Legal := by
  unfold Part.relayTimeoutEvent
  split
  · exact Part.completeRelay_legal h _ _ _
  · exact h

/-- Watchdog deadlines are no part of what makes a record legal (R16). -/
theorem Part.freshWatchdogs_legal (h : p.hlu.Legal) : p.freshWatchdogs.hlu.Legal :=
  h.withHeads fun g => Vector.legal_map h.1 (fun r hr => by split <;> exact hr) g

theorem Part.stopWatchdogs_legal (h : p.hlu.Legal) : p.stopWatchdogs.hlu.Legal :=
  h.withHeads fun g => Vector.legal_map (f := fun r => { r with watchdog := none }) h.1 (fun _ hr => hr) g

theorem Part.runTick_legal (h : p.hlu.Legal) (t : Time) : (p.runTick t).hlu.Legal := by
  unfold Part.runTick
  split
  · exact h
  · exact h
  · exact h
  · exact Part.freshWatchdogs_legal (p := (p.setRunState .measuring).raise .parkChange) (h.of_eq (by simp))

theorem Part.parkEvent_legal (h : p.hlu.Legal) : p.parkEvent.hlu.Legal := by
  unfold Part.parkEvent Part.enterParked
  split
  · have hraised : (((p.stopParkTimer.setRunState .parked).bump .parks).raise .parkChange).hlu.Legal := h.of_eq (by simp)
    exact (Part.stopWatchdogs_legal hraised).of_eq (by simp)
  · exact h

theorem Part.endRun_legal (h : p.hlu.Legal) : p.endRun.hlu.Legal := by
  have hcut : (p.flush.cut .stop).hlu.Legal := h.of_eq (by simp)
  unfold Part.endRun Part.haltRun
  split
  · exact h
  · dsimp only
    split
    · exact Part.freshWatchdogs_legal (hcut.of_eq (by simp))
    · exact hcut.of_eq (by simp)

theorem Part.deliverTick_legal (h : p.hlu.Legal) (t : TickData) : (p.deliverTick t).hlu.Legal := by
  have htick := Part.runTick_legal (p := p.bump .ticks) h t.time
  unfold Part.deliverTick
  dsimp only
  split
  · exact htick.of_eq (by simp)
  · exact htick.of_eq (by simp)

theorem Part.tickOnce_legal (h : p.hlu.Legal) (found : Bool) : (p.tickOnce found).hlu.Legal :=
  Part.deliverTick_legal (h.of_eq (by simp)) _

theorem Part.switchTicks_legal (h : p.hlu.Legal) (found : Bool) (n : Nat) : (p.switchTicks found n).hlu.Legal := by
  induction n generalizing p with
  | zero => exact h
  | succ n ih =>
    unfold Part.switchTicks
    split
    · exact ih (Part.tickOnce_legal (p := p.nextBoundary) h found)
    · exact h

theorem Part.tickEvent_legal (h : p.hlu.Legal) : p.tickEvent.hlu.Legal := by
  unfold Part.tickEvent
  split
  · exact Part.switchTicks_legal (Part.tickOnce_legal (h.of_eq (by simp)) _) _ _
  · exact h

theorem Part.watchEvent_legal (h : p.hlu.Legal) : p.watchEvent.hlu.Legal := by
  unfold Part.watchEvent
  split
  · exact Part.switchTicks_legal (h.of_eq (by simp)) _ _
  · exact h

/-- Of the settings a head shape alone touches a record, whose held frame it discards (R15). -/
theorem Part.settingEffect_legal (h : p.hlu.Legal) (n a : Nat) : (p.settingEffect n a).hlu.Legal := by
  unfold Part.settingEffect
  split
  · exact h
  · exact h
  · unfold Part.dropHeld
    split
    · exact Part.onHead_legal h fun hr => hr
    · exact h
  · exact h.of_eq (by simp)
  · exact h
  · exact h
  · exact h

/-- Latches and masks are no part of what makes a record legal (R192, R193). -/
theorem Hlu.Legal.mapFinIdx {x : Hlu} (h : x.Legal) {f : (i : Nat) → HeadRecord → i < 8 → HeadRecord}
    (hf : ∀ i r hi, r.Legal → (f i r hi).Legal) : Hlu.Legal { x with heads := x.heads.mapFinIdx f } := by
  refine h.withHeads fun g => ?_
  have hget : (x.heads.mapFinIdx f)[g] = f g.val x.heads[g] g.isLt := by simp
  rw [hget]
  exact hf _ _ _ (h.1 g)

theorem Part.restarted_legal (h : p.hlu.Legal) : p.restarted.hlu.Legal :=
  h.withHeads fun g => Vector.legal_map (f := HeadRecord.restarted) h.1 (fun _ _ => HeadRecord.restarted_legal) g

end

theorem Hlu.reset_legal : Hlu.reset.Legal :=
  ⟨fun h => by simpa [Hlu.reset] using HeadRecord.reset_legal, fun _ => ⟨rfl, rfl⟩⟩

/-- Every effect keeps the head link legal. -/
theorem keptByEffects_headsLegal : KeptByEffects fun p => p.hlu.Legal where
  taken := fun h => h
  bumped := fun _ h => h
  replied := fun _ h => h
  hardReset := fun _ _ => Hlu.reset_legal
  moveOwed := fun h => h.of_eq (by simp)
  elapse := fun h => h
  headChar := fun c h => Part.headChar_legal h c
  headLoss := Part.headLoss_legal
  lockEvent := Part.lockEvent_legal
  watchdogEvent := fun g h => Part.watchdogEvent_legal h g
  freshnessEvent := fun _ h => h.of_eq (by simp)
  relaySentEvent := Part.relaySentEvent_legal
  relayTimeoutEvent := Part.relayTimeoutEvent_legal
  setPhases := fun _ _ _ h => h.of_eq (by simp)
  phaseChange := fun _ _ _ h => h.of_eq (by simp)
  tickEvent := Part.tickEvent_legal
  watchEvent := Part.watchEvent_legal
  reversalEvent := fun h => h.of_eq (by simp)
  closeEvent := fun _ h => h.of_eq (by simp)
  gapEvent := fun _ h => h.of_eq (by simp)
  historyEvent := fun h => h.of_eq (by simp)
  validityTest := fun h => h.of_eq (by simp)
  parkEvent := Part.parkEvent_legal
  recorderChar := fun _ h => h.of_eq (by simp)
  recorderLoss := fun h => h.of_eq (by simp)
  linkUpEvent := fun h => h.of_eq (by simp)
  arbiterEvent := fun h => h.of_eq (by simp)
  leavingEvent := fun h => h.of_eq (by simp)
  setting := @fun p n a v _ h => Part.settingEffect_legal (p := p.withSettings (p.oru.settings.write n a v)) h n a
  beginRun := fun _ _ h => h.of_eq (by simp)
  endRun := Part.endRun_legal
  setPositionTo := fun _ _ h => h.of_eq (by simp)
  appendRouteList := fun _ h => h.of_eq (by simp)
  appendSectionList := fun _ h => h.of_eq (by simp)
  emptyRoute := fun h => h
  emptySections := fun h => h
  limitsWritten := fun _ _ h => h
  mapWritten := fun _ h => h
  clearCounters := fun _ h => h
  clearEvents := fun _ h => h.mapFinIdx fun _ _ _ hr => hr
  writeMasks := fun _ h => h.mapFinIdx fun _ _ _ hr => hr
  restoreHead := fun _ _ h => Part.writeHead_legal h HeadRecord.restored_legal
  relayOrder := fun _ _ h => h
  restarted := Part.restarted_legal

theorem stepKeeps_headsLegal : StepKeeps Part.HeadsLegal := keptByEffects_headsLegal.stepKeeps

end Sys2Proof.Machine

/-! SUPPORT. The Event Unit from one part to the next: flags stay set, the mask stands, counters stay in 32 bits, and the counters that an operation does not name keep their value. -/

namespace Sys2Proof.Machine

/-! ## The Event Unit goes onward (R190, R194) -/

/-- From one state of the Event Unit to another the mask stands, no flag goes, counters that lay in 32 bits still do, and those of a list keep their value. -/
structure Evu.Onward (kept : List Counter) (x y : Evu) : Prop where
  mask : y.mask = x.mask
  flags : ∀ i, x.flags.getLsbD i = true → y.flags.getLsbD i = true
  bounded : (∀ i : Fin 109, x.counters[i] ≤ 4294967295) → ∀ i : Fin 109, y.counters[i] ≤ 4294967295
  counters : ∀ c ∈ kept, y.counters[c.index] = x.counters[c.index]

/-- A counter apart from those of a list. -/
def Counter.apart (c : Counter) (kept : List Counter) : Bool := kept.all fun d => d.index != c.index

/-- The counters of events that are made once in a command: a cut, a reversal, the end of a run. -/
def runCounters : List Counter := [.cuts, .reversals, .runsStopped]

section
variable {kept : List Counter} {p : Part} {x y z : Evu}

theorem Evu.Onward.rfl : Evu.Onward kept x x := ⟨Eq.refl _, fun _ h => h, fun h => h, fun _ _ => Eq.refl _⟩

theorem Evu.Onward.trans (h : Evu.Onward kept x y) (h' : Evu.Onward kept y z) : Evu.Onward kept x z :=
  ⟨h'.mask.trans h.mask, fun i hi => h'.flags i (h.flags i hi), fun hb => h'.bounded (h.bounded hb),
    fun c hc => (h'.counters c hc).trans (h.counters c hc)⟩

/-- With no counter named there is less to say. -/
theorem Evu.Onward.any (h : Evu.Onward kept x y) : Evu.Onward [] x y := ⟨h.mask, h.flags, h.bounded, by simp⟩

theorem Evu.Onward.of_eq (h : y = x) : Evu.Onward kept x y := h ▸ .rfl

theorem counterUp_bounded (n v : Nat) : counterUp n v ≤ 4294967295 := Nat.min_le_right _ _

theorem Evu.Onward.same (h : Evu.Onward kept x y) (e : z = y) : Evu.Onward kept x z := e ▸ h

theorem Part.bumpBy_onward (c : Counter) (n : Nat) (hc : c.apart kept = true) (h : Evu.Onward kept x p.evu) :
    Evu.Onward kept x (p.bumpBy c n).evu := by
  refine h.trans ⟨Eq.refl _, fun _ h => h, fun hb i => ?_, fun d hd => ?_⟩
  · rw [Part.bumpBy_counters]
    split
    · exact counterUp_bounded _ _
    · exact hb i
  · have hne : d.index ≠ c.index := by simpa using List.all_eq_true.1 hc d hd
    rw [Part.bumpBy_counters, if_neg hne.symm]

theorem Part.bump_onward (c : Counter) (hc : c.apart kept = true) (h : Evu.Onward kept x p.evu) :
    Evu.Onward kept x (p.bump c).evu := Part.bumpBy_onward c 1 hc h

theorem Part.setFlag_onward (e : Event) (h : Evu.Onward kept x p.evu) : Evu.Onward kept x (p.setFlag e).evu :=
  h.trans ⟨Eq.refl _, fun i hi => flagsWith_mono _ _ i hi, fun hb => hb, fun _ _ => Eq.refl _⟩

/-- Raising an event counts its notice alone (R190, R191). -/
theorem Part.raise_onward (e : Event) (hs : Counter.apart .statusSent kept = true)
    (hl : Counter.apart .noticesLost kept = true) (h : Evu.Onward kept x p.evu) : Evu.Onward kept x (p.raise e).evu := by
  have hset : Evu.Onward kept x (p.setFlag e).evu := Part.setFlag_onward e h
  unfold Part.raise
  split
  · exact h
  · split
    · unfold Part.offerNotice
      split
      · exact Part.bump_onward _ hs hset
      · exact Part.setFlag_onward _ (Part.bump_onward _ hl hset)
    · exact hset

theorem Part.raiseTimes_onward (e : Event) (n : Nat) (h : Evu.Onward [] x p.evu) :
    Evu.Onward [] x (p.raiseTimes e n).evu := by
  induction n generalizing p with
  | zero => exact h
  | succ n ih => exact ih (Part.raise_onward e rfl rfl h)

/-- A counter and an event of it. -/
theorem Part.bumpRaise_onward (c : Counter) (e : Event) (h : Evu.Onward [] x p.evu) :
    Evu.Onward [] x ((p.bump c).raise e).evu := Part.raise_onward e rfl rfl (Part.bump_onward c rfl h)

/-! ## The tracker, the trace and the cuts -/

theorem Part.finaliseEx_onward (n : SlotNo) (ex : Exceedance) (c : Option CutFlag)
    (h : Evu.Onward runCounters x p.evu) :
    Evu.Onward runCounters x (p.finaliseEx n ex c).evu := by
  unfold Part.finaliseEx
  dsimp only
  split
  · exact Part.bump_onward _ rfl h
  · split
    · exact Part.bump_onward _ rfl h
    · exact Part.bump_onward _ rfl h

theorem Part.cutSlot_onward (c : CutFlag) (n : SlotNo) (h : Evu.Onward runCounters x p.evu) :
    Evu.Onward runCounters x (p.cutSlot c n).evu := by
  unfold Part.cutSlot
  split
  · exact Part.finaliseEx_onward n _ _ h
  · exact h

theorem Part.foldl_cutSlot_onward (c : CutFlag) (l : List SlotNo) (h : Evu.Onward runCounters x p.evu) :
    Evu.Onward runCounters x (l.foldl (fun q n => q.cutSlot c n) p).evu := by
  induction l generalizing p with
  | nil => exact h
  | cons n l ih => exact ih (Part.cutSlot_onward c n h)

/-- A cut counts itself beside its reports. -/
theorem Part.cut_onward (c : CutFlag) (h : Evu.Onward runCounters x p.evu) :
    Evu.Onward [.reversals, .runsStopped] x (p.cut c).evu := by
  have hslots := Part.foldl_cutSlot_onward c p.ext.activeInOrder h
  have hcleared : Evu.Onward [.reversals, .runsStopped] x
      ((p.ext.activeInOrder.foldl (fun q n => q.cutSlot c n) p).clearLatches).evu :=
    ⟨hslots.mask, hslots.flags, hslots.bounded, fun d hd => hslots.counters d (List.mem_cons_of_mem _ hd)⟩
  exact Part.bump_onward .cuts rfl hcleared

theorem Part.sendUrgent_onward (o : Owner) (u : UrgentNotice) (h : Evu.Onward runCounters x p.evu) :
    Evu.Onward runCounters x (p.sendUrgent o u).evu := by
  have hcounted : Evu.Onward runCounters x ((p.withRlu (p.rlu.placeControl (.urgent u))).bump .urgentSent).evu :=
    Part.bump_onward _ rfl h
  exact hcounted.same (by cases o <;> rfl)

theorem Part.urgentDue_onward (o : Owner) (u : UrgentNotice) (h : Evu.Onward runCounters x p.evu) :
    Evu.Onward runCounters x (p.urgentDue o u).evu := by
  unfold Part.urgentDue
  split
  · exact Part.sendUrgent_onward o u h
  · split
    · exact Part.bump_onward _ rfl h
    · exact Part.bump_onward _ rfl (h.same (by cases o <;> rfl))

theorem Part.moveOwedList_onward (l : List Owed) (h : Evu.Onward runCounters x p.evu) :
    Evu.Onward runCounters x (p.moveOwedList l).evu := by
  induction l generalizing p with
  | nil => exact h
  | cons w l ih =>
    unfold Part.moveOwedList
    split
    · exact ih (Part.sendUrgent_onward _ _ (h.same (by cases w.owner <;> rfl)))
    · exact h

theorem Part.contributeTo_onward (n : SlotNo) (k : Pair) (ex : Exceedance) (r : Emitted) (v : Int) (g : Nat)
    (h : Evu.Onward runCounters x p.evu) :
    Evu.Onward runCounters x (p.contributeTo n k ex r v g).evu := by
  unfold Part.contributeTo
  dsimp only
  split
  · exact Part.urgentDue_onward _ _ h
  · exact h

theorem Part.insideStep_onward (n : SlotNo) (ex : Exceedance) (c : Nat) (h : Evu.Onward runCounters x p.evu) :
    Evu.Onward runCounters x (p.insideStep n ex c).evu := by
  unfold Part.insideStep
  split
  · exact h
  · split
    · exact Part.finaliseEx_onward n _ _ h
    · exact h

theorem Part.heldStep_onward (n : SlotNo) (ex : Exceedance) (h : Evu.Onward runCounters x p.evu) :
    Evu.Onward runCounters x (p.heldStep n ex).evu := by
  unfold Part.heldStep
  dsimp only
  split
  · exact Part.finaliseEx_onward n _ _ h
  · exact h

theorem Part.slotTakes_onward (n : SlotNo) (k : Pair) (ph : SlotPhase) (ex : Exceedance) (r : Emitted)
    (h : Evu.Onward runCounters x p.evu) :
    Evu.Onward runCounters x (p.slotTakes n k ph ex r).evu := by
  unfold Part.slotTakes
  split
  · exact Part.finaliseEx_onward n _ _ h
  · split
    · split
      · exact Part.insideStep_onward n _ _ h
      · exact Part.contributeTo_onward n k _ _ _ _ h
    · split
      · exact Part.insideStep_onward n _ _ h
      · exact Part.contributeTo_onward n k _ _ _ _ h
    · split
      · exact Part.contributeTo_onward n k _ _ _ _ h
      · exact Part.heldStep_onward n _ h

theorem Part.latchOut_onward (k : Pair) (r : Emitted) (v : Int) (g : Nat) (h : Evu.Onward runCounters x p.evu) :
    Evu.Onward runCounters x (p.latchOut k r v g).evu := by
  unfold Part.latchOut
  split
  · exact Part.urgentDue_onward _ _ h
  · exact h

theorem Part.latchTakes_onward (k : Pair) (r : Emitted) (h : Evu.Onward runCounters x p.evu) :
    Evu.Onward runCounters x (p.latchTakes k r).1.evu := by
  unfold Part.latchTakes
  split
  · exact h
  · split
    · exact Part.latchOut_onward k _ _ _ h
    · split <;> exact h

theorem Part.openSlot_onward (n : SlotNo) (k : Pair) (r : Emitted) (v : Int) (g : Nat)
    (h : Evu.Onward runCounters x p.evu) :
    Evu.Onward runCounters x (p.openSlot n k r v g).evu := by
  unfold Part.openSlot
  dsimp only
  split
  · exact Part.urgentDue_onward _ _ (Part.bump_onward _ rfl h)
  · exact Part.bump_onward _ rfl h

theorem Part.setLatch_onward (k : Pair) (r : Emitted) (v : Int) (g : Nat) (h : Evu.Onward runCounters x p.evu) :
    Evu.Onward runCounters x (p.setLatch k r v g).evu :=
  Part.latchOut_onward k r v g (Part.raise_onward _ rfl rfl (Part.bump_onward _ rfl h))

theorem Part.mayOpen_onward (k : Pair) (r : Emitted) (h : Evu.Onward runCounters x p.evu) :
    Evu.Onward runCounters x (p.mayOpen k r).1.evu := by
  unfold Part.mayOpen
  split
  · exact h
  · split
    · split
      · exact Part.openSlot_onward _ k r _ _ h
      · exact Part.setLatch_onward k r _ _ h
    · exact h

theorem Part.judgePair_onward (k : Pair) (r : Emitted) (h : Evu.Onward runCounters x p.evu) :
    Evu.Onward runCounters x (p.judgePair k r).1.evu := by
  unfold Part.judgePair
  split
  · split
    · exact Part.slotTakes_onward _ k _ _ r h
    · exact h
  · split
    · exact Part.latchTakes_onward k r h
    · exact Part.mayOpen_onward k r h

theorem Part.judgePairs_onward (r : Emitted) (l : List Pair) (h : Evu.Onward runCounters x p.evu) :
    Evu.Onward runCounters x (p.judgePairs r l).1.evu := by
  induction l generalizing p with
  | nil => exact h
  | cons k l ih => exact ih (Part.judgePair_onward k r h)

theorem Part.offerGr_onward (g : GeometryRecord) (h : Evu.Onward runCounters x p.evu) :
    Evu.Onward runCounters x (p.offerGr g).evu := by
  unfold Part.offerGr
  split
  · exact h
  · dsimp only
    split
    · exact Part.raise_onward _ rfl rfl (Part.bump_onward _ rfl h)
    · exact h

theorem Part.emit_onward (e : TraceEntry) (h : Evu.Onward runCounters x p.evu) :
    Evu.Onward runCounters x (p.emit e).evu := by
  have hjudged : ∀ n r, Evu.Onward runCounters x ((p.bumpBy .parameterSaturations n).judge r).1.evu := fun n r =>
    Part.judgePairs_onward r _ (Part.bumpBy_onward _ n rfl h)
  unfold Part.emit
  dsimp only
  generalize p.emitted e = r
  generalize (p.deriveAll e).toList.countP Derived.limited = n
  have hoffered := Part.offerGr_onward (((p.bumpBy .parameterSaturations n).judge r).1.record e r
    ((p.bumpBy .parameterSaturations n).judge r).2) (hjudged n r)
  exact Part.bump_onward _ rfl (hoffered.same (Part.withTru_evu _ _))

theorem Part.emitNext_onward (h : Evu.Onward runCounters x p.evu) : Evu.Onward runCounters x p.emitNext.evu := by
  unfold Part.emitNext
  split
  · exact (Part.emit_onward _ h).same (Part.withTru_evu _ _)
  · exact h

theorem Part.captureEntry_onward (t : TickData) (h : Evu.Onward runCounters x p.evu) :
    Evu.Onward runCounters x (p.captureEntry t).evu := by
  unfold Part.captureEntry
  exact Part.bump_onward (p := Part.withPfu _ _) .captures rfl h

theorem Part.capture_onward (t : TickData) (h : Evu.Onward runCounters x p.evu) :
    Evu.Onward runCounters x (p.capture t).evu := by
  unfold Part.capture
  exact Part.emitNext_onward (Part.captureEntry_onward t h)

theorem Part.foldl_emit_onward (l : List TraceEntry) (h : Evu.Onward runCounters x p.evu) :
    Evu.Onward runCounters x (l.foldl Part.emit p).evu := by
  induction l generalizing p with
  | nil => exact h
  | cons e l ih =>
    rw [List.foldl_cons]
    exact ih (Part.emit_onward e h)

theorem Part.flush_onward (h : Evu.Onward runCounters x p.evu) : Evu.Onward runCounters x p.flush.evu :=
  Part.bumpBy_onward .flushes _ rfl ((Part.foldl_emit_onward p.tru.waiting h).same (Part.withTru_evu _ _))

theorem Part.reversalFlush_onward (h : Evu.Onward runCounters x p.evu) :
    Evu.Onward runCounters x p.reversalFlush.evu := by
  unfold Part.reversalFlush
  split
  · exact Part.flush_onward h
  · exact Part.flush_onward h
  · exact h

theorem Part.runTick_onward (t : Time) (h : Evu.Onward runCounters x p.evu) :
    Evu.Onward runCounters x (p.runTick t).evu := by
  unfold Part.runTick
  split
  · exact h
  · exact h
  · exact h
  · exact Part.raise_onward (p := p.setRunState .measuring) _ rfl rfl h


theorem Part.haltRun_onward (h : Evu.Onward [.cuts, .reversals] x p.evu) :
    Evu.Onward [.cuts, .reversals] x p.haltRun.evu := by
  have hcounted : Evu.Onward [.cuts, .reversals] x ((p.stopParkTimer.setRunState .halted).bump .runsStopped).evu :=
    Part.bump_onward _ rfl h
  unfold Part.haltRun
  dsimp only
  split
  · exact Part.raise_onward .parkChange rfl rfl hcounted
  · exact hcounted

theorem Part.endRun_onward (h : Evu.Onward [] x p.evu) : Evu.Onward [] x p.endRun.evu := by
  unfold Part.endRun
  split
  · exact h
  · have hflushed := h.trans (Part.flush_onward .rfl).any
    exact (hflushed.trans (Part.cut_onward .stop .rfl).any).trans (Part.haltRun_onward .rfl).any

theorem Part.parkEvent_onward (h : Evu.Onward [] x p.evu) : Evu.Onward [] x p.parkEvent.evu := by
  unfold Part.parkEvent
  split
  · exact Part.bumpRaise_onward (p := p.stopParkTimer.setRunState .parked) _ _ h
  · exact h

/-! ## Position and lists -/

theorem Part.missState_onward (h : Evu.Onward [] x p.evu) : Evu.Onward [] x p.missState.evu := by
  unfold Part.missState
  split
  · split
    · exact h
    · exact h
    · exact Part.raise_onward (p := p.withPfu _) _ rfl rfl h
  · exact h

theorem Part.markerGone_onward (skip : Bool) (h : Evu.Onward [] x p.evu) : Evu.Onward [] x (p.markerGone skip).evu := by
  unfold Part.markerGone
  split
  · exact Part.bump_onward _ rfl h
  · refine Part.missState_onward (Part.raise_onward _ rfl rfl ?_)
    exact Part.bump_onward _ rfl h

theorem Part.scanRoute_onward (skip : Bool) (l : List RouteEntry) (h : Evu.Onward [] x p.evu) :
    Evu.Onward [] x (p.scanRoute skip l).1.evu := by
  induction l generalizing p with
  | nil => exact h
  | cons e l ih =>
    unfold Part.scanRoute
    split
    · split
      · exact ih (h.same (by simp))
      · split
        · exact ih (Part.markerGone_onward skip h)
        · exact ih h
    · exact h

theorem Part.routeLowTest_onward (h : Evu.Onward [] x p.evu) : Evu.Onward [] x p.routeLowTest.evu := by
  unfold Part.routeLowTest
  split
  · exact Part.raise_onward (p := p.withPfu _) _ rfl rfl h
  · exact h

theorem Part.routeAdvance_onward (skip : Bool) (h : Evu.Onward [] x p.evu) :
    Evu.Onward [] x (p.routeAdvance skip).evu := by
  have hscan := Part.scanRoute_onward skip p.pfu.routeList h
  unfold Part.routeAdvance
  dsimp only
  split
  · exact hscan
  · exact Part.routeLowTest_onward hscan

theorem Part.sectionLowTest_onward (h : Evu.Onward [] x p.evu) : Evu.Onward [] x p.sectionLowTest.evu := by
  unfold Part.sectionLowTest
  split
  · exact Part.raise_onward (p := p.withLmu _) _ rfl rfl h
  · exact h

theorem Part.sectionStarvedTest_onward (h : Evu.Onward [] x p.evu) : Evu.Onward [] x p.sectionStarvedTest.evu := by
  unfold Part.sectionStarvedTest
  split
  · exact Part.bumpRaise_onward _ _ h
  · exact h

theorem Part.sectionAdvance_onward (h : Evu.Onward [] x p.evu) : Evu.Onward [] x p.sectionAdvance.evu := by
  unfold Part.sectionAdvance
  dsimp only
  split
  · exact h
  · exact Part.sectionStarvedTest_onward (Part.sectionLowTest_onward (Part.bumpBy_onward _ _ rfl h))

theorem Part.missBefore_onward (n : Nat) (h : Evu.Onward [] x p.evu) : Evu.Onward [] x (p.missBefore n).evu := by
  unfold Part.missBefore
  split
  · exact h
  · exact Part.raise_onward _ rfl rfl (Part.bumpBy_onward _ _ rfl h)

theorem Part.handOff_onward (c : Int) (h : Evu.Onward [] x p.evu) : Evu.Onward [] x (p.handOff c).evu := by
  unfold Part.handOff Part.largeTest
  dsimp only
  split
  · exact Part.bumpRaise_onward _ _ h
  · exact h

theorem Part.fixedAt_onward (m : Int) (h : Evu.Onward [] x p.evu) :
    Evu.Onward [] x (p.fixedAt m).evu := h.same (by simp)

theorem Part.fix_onward (before : List RouteEntry) (m : Int) (after : List RouteEntry) (h : Evu.Onward [] x p.evu) :
    Evu.Onward [] x (p.fix before m after).evu := by
  unfold Part.fix
  refine Part.sectionAdvance_onward (Part.routeAdvance_onward _ (Part.handOff_onward _ ?_))
  refine Part.bumpRaise_onward _ _ (Part.fixedAt_onward m (Part.routeLowTest_onward (p := Part.withPfu _ _) ?_))
  exact Part.missBefore_onward _ h

theorem Part.detect_onward (code : BitVec 32) (h : Evu.Onward [] x p.evu) : Evu.Onward [] x (p.detect code).evu := by
  unfold Part.detect
  split
  · exact Part.bump_onward _ rfl h
  · split
    · exact Part.fix_onward _ _ _ h
    · exact Part.bumpRaise_onward _ _ h

theorem Part.setPositionTo_onward (route : Int) (dir : Direction) (h : Evu.Onward [] x p.evu) :
    Evu.Onward [] x (p.setPositionTo route dir).evu := by
  have hset : Evu.Onward [] x (p.positionSet route dir).evu := h
  have hmoved : Evu.Onward [] x (p.positionMoved route dir).evu := by
    unfold Part.positionMoved
    exact Part.sectionAdvance_onward (Part.routeAdvance_onward true hset)
  rw [Part.setPositionTo_eq]
  split
  · exact hmoved
  · exact hmoved.trans (Part.cut_onward .jump .rfl).any

/-! ## Odometry -/

theorem Part.moveRoute_onward (d : Int) (h : Evu.Onward [] x p.evu) : Evu.Onward [] x (p.moveRoute d).evu := by
  unfold Part.moveRoute
  split
  · exact h
  · dsimp only
    split_ifs
    · exact Part.bump_onward _ rfl (h.same (by simp))
    · exact Part.bump_onward _ rfl (h.same (by simp))
    · exact h.same (by simp)

theorem Part.validityTest_onward (h : Evu.Onward [] x p.evu) : Evu.Onward [] x p.validityTest.evu := h.same (by simp)

theorem Part.addTravel_onward (n : Nat) (h : Evu.Onward [] x p.evu) : Evu.Onward [] x (p.addTravel n).evu :=
  h.same (by simp)

theorem Part.reversalTest_onward (d : Int) (h : Evu.Onward [] x p.evu) : Evu.Onward [] x (p.reversalTest d).evu :=
  h.same (by simp)

theorem Part.stepChannel_onward (c : Encoder) (d : Int) (h : Evu.Onward [] x p.evu) :
    Evu.Onward [] x (p.stepChannel c d).evu := by
  unfold Part.stepChannel Part.activeStep
  dsimp only
  split
  · refine Part.reversalTest_onward _ (Part.validityTest_onward (Part.addTravel_onward _ ?_))
    exact Part.moveRoute_onward (p := Part.withOdu _ _) _ h
  · exact h

theorem Part.phaseChange_onward (c : Encoder) (a b : Bool) (h : Evu.Onward [] x p.evu) :
    Evu.Onward [] x (p.phaseChange c a b).evu := by
  unfold Part.phaseChange
  dsimp only
  split
  · exact h
  · exact Part.bump_onward _ rfl h
  · exact Part.stepChannel_onward _ _ h
  · exact Part.stepChannel_onward _ _ h

theorem Part.zeroUpdate_onward (c : Encoder) (h : Evu.Onward [] x p.evu) : Evu.Onward [] x (p.zeroUpdate c).evu := by
  unfold Part.zeroUpdate
  dsimp only
  split
  · exact Part.bump_onward _ rfl h
  · exact h

theorem Part.countSlip_onward (found : Bool) (h : Evu.Onward [] x p.evu) : Evu.Onward [] x (p.countSlip found).evu := by
  unfold Part.countSlip
  split
  · exact Part.bumpRaise_onward _ _ h
  · exact h

theorem Part.switchChannel_onward (h : Evu.Onward [] x p.evu) : Evu.Onward [] x p.switchChannel.evu := by
  unfold Part.switchChannel
  exact Part.bump_onward _ rfl (Part.validityTest_onward (Part.moveRoute_onward (p := Part.withOdu _ _) _ h))

theorem Part.judgeChannels_onward (h : Evu.Onward [] x p.evu) : Evu.Onward [] x p.judgeChannels.1.evu := by
  unfold Part.judgeChannels
  dsimp only
  split
  · exact Part.switchChannel_onward (Part.countSlip_onward _ h)
  · exact Part.countSlip_onward _ h

theorem Part.comparison_onward (h : Evu.Onward [] x p.evu) : Evu.Onward [] x p.comparison.1.evu := by
  have hzero : Evu.Onward [] x p.zeroUpdates.evu := Part.zeroUpdate_onward _ (Part.zeroUpdate_onward _ h)
  unfold Part.comparison
  dsimp only
  split
  · exact hzero
  · exact Part.judgeChannels_onward hzero

theorem Part.speedTick_onward (t : TickData) (h : Evu.Onward [] x p.evu) : Evu.Onward [] x (p.speedTick t).evu := by
  unfold Part.speedTick
  dsimp only
  split
  · exact Part.bump_onward _ rfl h
  · exact h

theorem Part.tickAdvance_onward (h : Evu.Onward [] x p.evu) : Evu.Onward [] x p.tickAdvance.evu := by
  unfold Part.tickAdvance
  split
  · exact h
  · exact Part.sectionAdvance_onward (Part.routeAdvance_onward _ h)

theorem Part.deliverTick_onward (t : TickData) (h : Evu.Onward [] x p.evu) : Evu.Onward [] x (p.deliverTick t).evu := by
  have hticked : Evu.Onward [] x (((p.bump .ticks).runTick t.time).tickAdvance).evu := by
    refine Part.tickAdvance_onward ?_
    exact (Part.bump_onward .ticks rfl h).trans (Part.runTick_onward t.time .rfl).any
  unfold Part.deliverTick
  dsimp only
  split
  · exact hticked.trans (Part.capture_onward t .rfl).any
  · exact hticked

theorem Part.tickOnce_onward (found : Bool) (h : Evu.Onward [] x p.evu) : Evu.Onward [] x (p.tickOnce found).evu :=
  Part.deliverTick_onward _ (Part.speedTick_onward _ h)

theorem Part.switchTicks_onward (found : Bool) (n : Nat) (h : Evu.Onward [] x p.evu) :
    Evu.Onward [] x (p.switchTicks found n).evu := by
  induction n generalizing p with
  | zero => exact h
  | succ n ih =>
    unfold Part.switchTicks
    split
    · exact ih (Part.tickOnce_onward (p := p.nextBoundary) found h)
    · exact h

theorem Part.tickEvent_onward (h : Evu.Onward [] x p.evu) : Evu.Onward [] x p.tickEvent.evu := by
  unfold Part.tickEvent
  split
  · exact Part.switchTicks_onward _ _ (Part.tickOnce_onward _ (Part.comparison_onward (p := p.nextBoundary) h))
  · exact h

theorem Part.watchEvent_onward (h : Evu.Onward [] x p.evu) : Evu.Onward [] x p.watchEvent.evu := by
  unfold Part.watchEvent
  split
  · exact Part.switchTicks_onward (p := Part.carrySlip _ _) _ _ (Part.comparison_onward h)
  · exact h

theorem Part.reversalEvent_onward (h : Evu.Onward [] x p.evu) : Evu.Onward [] x p.reversalEvent.evu := by
  unfold Part.reversalEvent Part.reverse
  split
  · have hraised := Part.bumpRaise_onward (p := p.withOdu (p.odu.reversed p.time p.oru.settings.recordSpacing))
      .reversals .reversal h
    have hflushed := hraised.trans (Part.reversalFlush_onward (p := Part.loseLists _) .rfl).any
    exact hflushed.trans (Part.cut_onward .reversal .rfl).any
  · exact h

/-! ## The head link -/

theorem Part.writeHead_onward (g : Head) (r : HeadRecord) (h : Evu.Onward [] x p.evu) :
    Evu.Onward [] x (p.writeHead g r).evu := by
  unfold Part.writeHead
  dsimp only
  split
  · exact h
  · exact Part.raise_onward (p := p.onHead g _) _ rfl rfl h

theorem Part.unlock_onward (h : Evu.Onward [] x p.evu) : Evu.Onward [] x p.unlock.evu :=
  Part.bumpRaise_onward _ _ (Part.raiseTimes_onward (p := p.withHlu _) _ _ h)

theorem Part.linkError_onward (h : Evu.Onward [] x p.evu) : Evu.Onward [] x p.linkError.evu := by
  unfold Part.linkError
  dsimp only
  split
  · exact Part.unlock_onward (p := p.withHlu _) h
  · exact h

/-- A fault of the link: its counter and the link error count. -/
theorem Part.fault_onward (rx : HeadRx) (c : Counter) (h : Evu.Onward [] x p.evu) :
    Evu.Onward [] x (((p.setRx rx).bump c).linkError).evu :=
  Part.linkError_onward (Part.bump_onward c rfl h)

theorem Part.lockEvent_onward (h : Evu.Onward [] x p.evu) : Evu.Onward [] x p.lockEvent.evu := h.same (by simp)

theorem Part.headLoss_onward (h : Evu.Onward [] x p.evu) : Evu.Onward [] x p.headLoss.evu := by
  unfold Part.headLoss
  dsimp only
  split
  · exact Part.unlock_onward (Part.lockEvent_onward h)
  · exact Part.lockEvent_onward h

theorem Part.badFrame_onward (g : Head) (drop : Bool) (h : Evu.Onward [] x p.evu) :
    Evu.Onward [] x (p.badFrame g drop).evu := by
  unfold Part.badFrame
  dsimp only
  split
  · exact Part.bump_onward _ rfl (Part.writeHead_onward g _ h)
  · exact Part.writeHead_onward g _ h

theorem Part.validFrame_onward (g : Head) (sequence : BitVec 8) (h : Evu.Onward [] x p.evu) :
    Evu.Onward [] x (p.validFrame g sequence).evu := by
  unfold Part.validFrame
  exact Part.writeHead_onward (p := Part.withHlu _ _) g _ (Part.bumpBy_onward _ _ rfl (Part.bump_onward _ rfl h))

theorem Part.mirrorCopy_onward (g : Head) (k : HeadKind) (l : List Byte) (h : Evu.Onward [] x p.evu) :
    Evu.Onward [] x (p.mirrorCopy g k l).evu := by
  unfold Part.mirrorCopy Part.offerMirror
  split
  · split
    · exact h
    · exact Part.bump_onward _ rfl h
  · exact h

theorem Part.takeStatus_onward (g : Head) (b : BitVec 8) (h : Evu.Onward [] x p.evu) :
    Evu.Onward [] x (p.takeStatus g b).evu := by
  unfold Part.takeStatus
  dsimp only
  split
  · exact h
  · exact Part.raise_onward (p := p.onHead g _) _ rfl rfl h

theorem Part.takeMarker_onward (g : Head) (code : BitVec 32) (h : Evu.Onward [] x p.evu) :
    Evu.Onward [] x (p.takeMarker g code).evu := by
  unfold Part.takeMarker
  split
  · split
    · exact Part.detect_onward code h
    · exact Part.bump_onward _ rfl h
  · exact Part.bump_onward _ rfl h

theorem Part.completeRelay_onward (w : RelaySlot) (r : Result) (l : List Byte) (h : Evu.Onward [] x p.evu) :
    Evu.Onward [] x (p.completeRelay w r l).evu := by
  unfold Part.completeRelay
  dsimp only
  split <;> exact h

theorem Part.takeReply_onward (g : Head) (l : List Byte) (h : Evu.Onward [] x p.evu) :
    Evu.Onward [] x (p.takeReply g l).evu := by
  unfold Part.takeReply
  split
  · split
    · exact Part.completeRelay_onward _ _ _ h
    · exact Part.bump_onward _ rfl h
  · exact Part.bumpRaise_onward _ _ h

theorem Part.takeKind_onward (g : Head) (hd : Header) (l : List Byte) (h : Evu.Onward [] x p.evu) :
    Evu.Onward [] x (p.takeKind g hd l).evu := by
  unfold Part.takeKind
  split
  · exact Part.mirrorCopy_onward (p := p.holdSample g hd _) g _ l h
  · exact Part.takeMarker_onward g _ h
  · exact Part.mirrorCopy_onward g _ l (Part.takeStatus_onward g _ h)
  · exact Part.takeReply_onward g _ h

theorem Part.judgeFrame_onward (l : List Byte) (hd : Header) (h : Evu.Onward [] x p.evu) :
    Evu.Onward [] x (p.judgeFrame l hd).evu := by
  unfold Part.judgeFrame
  split
  · exact Part.bump_onward _ rfl h
  · split
    · exact Part.badFrame_onward _ _ (Part.bump_onward _ rfl h)
    · split
      · exact Part.badFrame_onward _ _ (Part.bump_onward _ rfl h)
      · exact Part.takeKind_onward _ _ _ (Part.validFrame_onward _ _ h)

theorem Part.frameData_onward (l : List Byte) (hd : Option Header) (b : Byte) (h : Evu.Onward [] x p.evu) :
    Evu.Onward [] x (p.frameData l hd b).evu := by
  unfold Part.frameData
  dsimp only
  split
  · split
    · exact h
    · split
      · exact Part.fault_onward _ _ h
      · exact h
      · exact Part.bump_onward _ rfl h
  · split
    · exact Part.fault_onward _ _ h
    · exact h

theorem Part.frameEnd_onward (l : List Byte) (hd : Option Header) (h : Evu.Onward [] x p.evu) :
    Evu.Onward [] x (p.frameEnd l hd).evu := by
  unfold Part.frameEnd
  split
  · exact Part.fault_onward _ _ h
  · split
    · exact Part.fault_onward _ _ h
    · exact Part.judgeFrame_onward (p := p.setRx _) _ _ h

theorem Part.charInFrame_onward (l : List Byte) (hd : Option Header) (c : LineChar) (h : Evu.Onward [] x p.evu) :
    Evu.Onward [] x (p.charInFrame l hd c).evu := by
  cases c with
  | idle => exact h
  | violation => exact Part.fault_onward _ _ h
  | frameStart =>
    have hfault : Evu.Onward [] x (p.framingError .passing).evu := Part.fault_onward _ _ h
    unfold Part.charInFrame
    dsimp only
    split <;> exact hfault
  | data b => exact Part.frameData_onward l hd b h
  | frameEnd => exact Part.frameEnd_onward l hd h

theorem Part.charOutside_onward (counted : Bool) (c : LineChar) (h : Evu.Onward [] x p.evu) :
    Evu.Onward [] x (p.charOutside counted c).evu := by
  unfold Part.charOutside
  split
  · exact h
  · exact h
  · exact h
  · split
    · exact h
    · exact Part.fault_onward _ _ h
  · split
    · exact h
    · exact Part.fault_onward _ _ h

theorem Part.charTaken_onward (c : LineChar) (h : Evu.Onward [] x p.evu) : Evu.Onward [] x (p.charTaken c).evu := by
  unfold Part.charTaken
  split
  · split
    · exact Part.charOutside_onward _ c h
    · exact Part.charOutside_onward _ c h
    · exact h.same (by simp)
    · exact Part.charInFrame_onward _ _ c h
  · exact h.same (by simp)

theorem Part.countViolation_onward (c : LineChar) (h : Evu.Onward [] x p.evu) :
    Evu.Onward [] x (p.countViolation c).evu := by
  unfold Part.countViolation
  split
  · exact Part.bump_onward _ rfl h
  · exact h

theorem Part.headChar_onward (c : LineChar) (h : Evu.Onward [] x p.evu) : Evu.Onward [] x (p.headChar c).evu :=
  Part.charTaken_onward c (Part.countViolation_onward c (Part.lockEvent_onward h))

theorem Part.watchdogEvent_onward (g : Head) (h : Evu.Onward [] x p.evu) : Evu.Onward [] x (p.watchdogEvent g).evu := by
  unfold Part.watchdogEvent
  split
  · exact Part.writeHead_onward g _ (Part.bump_onward _ rfl h)
  · exact h

theorem Part.relayTimeoutEvent_onward (h : Evu.Onward [] x p.evu) : Evu.Onward [] x p.relayTimeoutEvent.evu := by
  unfold Part.relayTimeoutEvent
  split
  · exact Part.bump_onward _ rfl (Part.completeRelay_onward _ _ _ h)
  · exact h

/-! ## The recorder link -/

theorem Part.cutTransmission_onward (h : Evu.Onward [] x p.evu) : Evu.Onward [] x p.cutTransmission.evu := by
  unfold Part.cutTransmission
  split
  · exact Part.bump_onward _ rfl h
  · exact h

theorem Part.goDown_onward (h : Evu.Onward [] x p.evu) :
    Evu.Onward [] x p.goDown.evu := Part.bump_onward _ rfl (Part.cutTransmission_onward h)

theorem Part.recorderError_onward (h : Evu.Onward [] x p.evu) : Evu.Onward [] x p.recorderError.evu := by
  unfold Part.recorderError
  dsimp only
  split
  · exact Part.goDown_onward (p := p.withRlu _) h
  · exact h

theorem Part.checkFailure_onward (h : Evu.Onward [] x p.evu) : Evu.Onward [] x p.checkFailure.evu :=
  Part.recorderError_onward (Part.bump_onward .checkFailures rfl h)

theorem Part.recorderLoss_onward (h : Evu.Onward [] x p.evu) : Evu.Onward [] x p.recorderLoss.evu := by
  unfold Part.recorderLoss
  dsimp only
  split
  · exact h.same (by simp)
  · exact Part.goDown_onward (h.same (by simp))

theorem Part.offerOrder_onward (body : List Byte) (h : Evu.Onward [] x p.evu) :
    Evu.Onward [] x (p.offerOrder body).evu := by
  unfold Part.offerOrder
  split
  · exact Part.bump_onward _ rfl h
  · split
    · exact h
    · exact Part.bumpRaise_onward _ _ h

theorem Part.takeInbound_onward (bytes : List Byte) (h : Evu.Onward [] x p.evu) :
    Evu.Onward [] x (p.takeInbound bytes).evu := by
  unfold Part.takeInbound
  dsimp only
  split
  · exact Part.offerOrder_onward (p := p.withRlu _) _ h
  · split
    · exact Part.bumpBy_onward _ _ rfl h
    · exact Part.bump_onward _ rfl h

theorem Part.charUp_onward (c : LineChar) (h : Evu.Onward [] x p.evu) : Evu.Onward [] x (p.charUp c).evu := by
  have hfailed : Evu.Onward [] x p.checkFailure.evu := Part.checkFailure_onward h
  cases c with
  | idle => exact h.same (by simp [Part.charUp])
  | violation =>
    unfold Part.charUp Part.inboundViolation
    dsimp only
    split
    · exact Part.recorderError_onward h
    · exact hfailed
  | frameStart =>
    unfold Part.charUp Part.inboundStart
    dsimp only
    split
    · exact h
    · split <;> exact hfailed
  | data b =>
    unfold Part.charUp Part.inboundData
    dsimp only
    split
    · exact h
    · split
      · exact hfailed
      · exact h
  | frameEnd =>
    unfold Part.charUp Part.inboundEnd
    dsimp only
    split
    · exact h
    · split
      · exact Part.takeInbound_onward _ h
      · exact hfailed

theorem Part.recorderTaken_onward (c : LineChar) (h : Evu.Onward [] x p.evu) :
    Evu.Onward [] x (p.recorderTaken c).evu := by
  unfold Part.recorderTaken
  split
  · exact h.same (by simp)
  · exact h.same (by simp)
  · exact Part.charUp_onward c h

theorem Part.recorderChar_onward (c : LineChar) (h : Evu.Onward [] x p.evu) :
    Evu.Onward [] x (p.recorderChar c).evu := by
  refine Part.recorderTaken_onward c ?_
  unfold Part.countRecorderViolation
  split
  · exact Part.bump_onward _ rfl (h.same (by simp))
  · exact h.same (by simp)

theorem Part.arbiterEvent_onward (h : Evu.Onward [] x p.evu) : Evu.Onward [] x p.arbiterEvent.evu := by
  unfold Part.arbiterEvent
  split
  · split
    · exact Part.bump_onward _ rfl h
    · exact h
  · exact h

theorem Part.promotePending_onward (h : Evu.Onward [] x p.evu) : Evu.Onward [] x p.promotePending.evu := by
  unfold Part.promotePending
  split
  · exact h
  · dsimp only
    split
    · exact Part.bump_onward _ rfl h
    · exact h

theorem Part.leavingEvent_onward (h : Evu.Onward [] x p.evu) : Evu.Onward [] x p.leavingEvent.evu := by
  unfold Part.leavingEvent
  split
  · exact h
  · dsimp only
    split
    · exact h
    · unfold Part.leaveQueue
      split
      · exact h
      · exact Part.promotePending_onward h
      · exact h
      · exact h

/-! ## The tracker's events and the settings -/

theorem Part.closeEvent_onward (n : SlotNo) (h : Evu.Onward [] x p.evu) : Evu.Onward [] x (p.closeEvent n).evu := by
  unfold Part.closeEvent
  split
  · split
    · exact h
    · split
      · exact h.trans (Part.insideStep_onward n _ _ .rfl).any
      · exact h
  · exact h

theorem Part.gapEvent_onward (n : SlotNo) (h : Evu.Onward [] x p.evu) : Evu.Onward [] x (p.gapEvent n).evu := by
  unfold Part.gapEvent
  split
  · split
    · exact h
    · split
      · exact h.trans (Part.heldStep_onward n _ .rfl).any
      · exact h
  · exact h


theorem Part.settingEffect_evu (n a : Nat) : (p.settingEffect n a).evu = p.evu := by
  unfold Part.settingEffect
  split
  · rfl
  · rfl
  · simp
  · simp
  · rfl
  · rfl
  · rfl

/-- Counters in 32 bits stay so while the Event Unit goes onward. -/
theorem Part.CountersBounded.onward {p q : Part} (h : p.CountersBounded) (hq : Evu.Onward [] p.evu q.evu) :
    q.CountersBounded :=
  hq.bounded h

theorem Part.clearCounters_bounded (h : p.CountersBounded) (l : List Nat) : (p.clearCounters l).CountersBounded := by
  intro i
  have hget : (p.clearCounters l).evu.counters[i] = if l.contains i.val then 0 else p.evu.counters[i] := by
    simp [Part.clearCounters]
  rw [hget]
  split
  · exact Nat.zero_le _
  · exact h i

end

theorem Evu.reset_bounded (i : Fin 109) : Evu.reset.counters[i] ≤ 4294967295 := by simp [Evu.reset]

/-- Every effect keeps the counters in 32 bits. -/
theorem keptByEffects_countersBounded : KeptByEffects Part.CountersBounded where
  taken := fun h => h.onward (Part.bump_onward .ordersTaken rfl .rfl)
  bumped := fun c h => h.onward (Part.bump_onward c rfl .rfl)
  replied := fun _ h => h
  hardReset := fun _ _ => Evu.reset_bounded
  moveOwed := fun h => h.onward (Part.moveOwedList_onward _ .rfl).any
  elapse := fun h => h
  headChar := fun c h => h.onward (Part.headChar_onward c .rfl)
  headLoss := fun h => h.onward (Part.headLoss_onward .rfl)
  lockEvent := fun h => h.onward (.of_eq (by simp))
  watchdogEvent := fun g h => h.onward (Part.watchdogEvent_onward g .rfl)
  freshnessEvent := fun _ h => h.onward (.of_eq (by simp))
  relaySentEvent := fun h => h.onward (.of_eq (by simp))
  relayTimeoutEvent := fun h => h.onward (Part.relayTimeoutEvent_onward .rfl)
  setPhases := fun _ _ _ h => h
  phaseChange := fun c a b h => h.onward (Part.phaseChange_onward c a b .rfl)
  tickEvent := fun h => h.onward (Part.tickEvent_onward .rfl)
  watchEvent := fun h => h.onward (Part.watchEvent_onward .rfl)
  reversalEvent := fun h => h.onward (Part.reversalEvent_onward .rfl)
  closeEvent := fun n h => h.onward (Part.closeEvent_onward n .rfl)
  gapEvent := fun n h => h.onward (Part.gapEvent_onward n .rfl)
  historyEvent := fun h => h.onward (.of_eq (by simp))
  validityTest := fun h => h.onward (.of_eq (by simp))
  parkEvent := fun h => h.onward (Part.parkEvent_onward .rfl)
  recorderChar := fun c h => h.onward (Part.recorderChar_onward c .rfl)
  recorderLoss := fun h => h.onward (Part.recorderLoss_onward .rfl)
  linkUpEvent := fun h => h.onward (.of_eq (by simp))
  arbiterEvent := fun h => h.onward (Part.arbiterEvent_onward .rfl)
  leavingEvent := fun h => h.onward (Part.leavingEvent_onward .rfl)
  setting := @fun p n a v _ h => h.onward (.of_eq (Part.settingEffect_evu (p := p.withSettings (p.oru.settings.write n a v)) n a))
  beginRun := fun _ _ h => h.onward (Part.bump_onward .runsStarted rfl .rfl)
  endRun := fun h => h.onward (Part.endRun_onward .rfl)
  setPositionTo := fun _ d h => h.onward (Part.setPositionTo_onward _ d .rfl)
  appendRouteList := fun _ h => h.onward (.of_eq (by simp))
  appendSectionList := fun _ h => h.onward (.of_eq (by simp))
  emptyRoute := fun h => h
  emptySections := fun h => h
  limitsWritten := fun _ _ h => h
  mapWritten := fun _ h => h
  clearCounters := fun l h => Part.clearCounters_bounded h l
  clearEvents := fun _ h => h
  writeMasks := fun _ h => h
  restoreHead := fun g _ h => h.onward (Part.writeHead_onward g _ .rfl)
  relayOrder := fun _ _ h => h
  restarted := fun _ => Evu.reset_bounded

/-- Settles O58: each of the four parts is kept by every effect of a command, so by every step. -/
theorem recordsAndTablesStayLegal : Obligations.RecordsAndTablesStayLegal :=
  stepKeeps_headsLegal.and (stepKeeps_rowsValid.and
    (stepKeeps_settingsInRange.and keptByEffects_countersBounded.stepKeeps))

end Sys2Proof.Machine

/-! SUPPORT. The odometer and the position: what every operation makes of the ahead distance, the channels, the route distance and the fix, and that every step keeps them in their places. -/

namespace Sys2Proof.Machine

/-! ## The odometer (R45, R53) -/

/-- What the statement says of a pair of channels: one that has counted a step is not faulted, and never both are faulted. -/
def ChannelsSound (x y : Channel) : Prop :=
  (x.stepped → x.faulted = false) ∧ (y.stepped → y.faulted = false) ∧ ¬ (x.faulted = true ∧ y.faulted = true)

/-- What the statement says of the Odometry Unit alone. -/
def Odu.Sound (o : Odu) : Prop :=
  (o.ahead ≤ o.high ∧ 0 ≤ o.high ∧ o.high ≤ 9223372036854775807) ∧ ChannelsSound o.e1 o.e2

theorem Part.oduSound_iff (p : Part) : p.odu.Sound ↔ p.OdometerPlaced ∧ p.OneFaultAtMost := Iff.rfl

section
variable {o : Odu} {p : Part}

theorem Odu.Sound.of_eq {p q : Part} (h : p.odu.Sound) (e : q.odu = p.odu) : q.odu.Sound := e ▸ h

theorem sat64_le (z : Int) : sat64 z ≤ 9223372036854775807 := by
  unfold sat64 clampInt
  split_ifs <;> omega

/-- A movement takes H along (R45). -/
theorem Odu.Sound.advance (h : o.Sound) (d : Int) : (o.advance d).Sound := by
  obtain ⟨⟨-, hlow, hhigh⟩, hchannels⟩ := h
  have hsat := sat64_le (o.ahead + d)
  refine ⟨?_, hchannels⟩
  unfold Odu.advance
  dsimp only
  split
  · exact ⟨le_rfl, by omega, hsat⟩
  · exact ⟨by omega, hlow, hhigh⟩

/-- A channel replaced by one that keeps the pair sound. -/
theorem Odu.Sound.withChannel (h : o.Sound) (c : Encoder) {x : Channel} (hstep : x.stepped → x.faulted = false)
    (hfault : x.faulted = true → (o.channel c).faulted = true) : (o.withChannel c x).Sound := by
  obtain ⟨hplace, h1, h2, hboth⟩ := h
  cases c with
  | e1 => exact ⟨hplace, hstep, h2, fun ⟨hx, hy⟩ => hboth ⟨hfault hx, hy⟩⟩
  | e2 => exact ⟨hplace, h1, hstep, fun ⟨hx, hy⟩ => hboth ⟨hx, hfault hy⟩⟩

theorem Odu.Sound.stepped (h : o.Sound) (c : Encoder) : (o.channel c).stepped → (o.channel c).faulted = false := by
  obtain ⟨-, h1, h2, -⟩ := h
  cases c with
  | e1 => exact h1
  | e2 => exact h2

theorem Part.setPhases_oduSound (h : p.odu.Sound) (c : Encoder) (a b : Bool) : (p.setPhases c a b).odu.Sound :=
  h.withChannel c (x := { p.odu.channel c with phaseA := a, phaseB := b }) (h.stepped c) fun hf => hf

theorem Part.moveRoute_odu (d : Int) : (p.moveRoute d).odu = { p.odu with residue := (p.moveRoute d).odu.residue } := by
  unfold Part.moveRoute
  split
  · rfl
  · dsimp only
    split_ifs <;> simp [Part.placeAt, Part.routeSaturated]

theorem Part.moveRoute_oduSound (h : p.odu.Sound) (d : Int) : (p.moveRoute d).odu.Sound := by
  rw [Part.moveRoute_odu]
  exact h

theorem Part.stepChannel_oduSound (h : p.odu.Sound) (c : Encoder) (d : Int) : (p.stepChannel c d).odu.Sound := by
  have hstepped : (p.odu.withChannel c ((p.odu.channel c).stepBy d)).Sound :=
    h.withChannel c (fun _ => rfl) (fun hf => by simp [Channel.stepBy] at hf)
  have htest : ∀ q : Part, q.odu.Sound → (q.reversalTest d).odu.Sound := fun q hq => by
    unfold Part.reversalTest
    split
    · exact hq
    · exact hq
  unfold Part.stepChannel Part.activeStep
  dsimp only
  split
  · refine htest _ ?_
    simp only [Part.validityTest_frame, Part.addTravel_frame]
    exact Part.moveRoute_oduSound (p := Part.withOdu _ _) (hstepped.advance d) _
  · exact hstepped

theorem Part.phaseChange_oduSound (h : p.odu.Sound) (c : Encoder) (a b : Bool) : (p.phaseChange c a b).odu.Sound := by
  have hset := Part.setPhases_oduSound h c a b
  unfold Part.phaseChange
  dsimp only
  split
  · exact h
  · exact hset
  · exact Part.stepChannel_oduSound hset c _
  · exact Part.stepChannel_oduSound hset c _

/-! ### Comparison (R50 to R53) -/

theorem Part.zeroUpdates_odu (p : Part) : p.zeroUpdates.odu =
    { p.odu with e1 := p.odu.e1.countedBeside p.odu.e2, e2 := p.odu.e2.countedBeside p.odu.e1 } := by
  have hzero : ∀ (q : Part) c, (q.zeroUpdate c).odu =
      q.odu.withChannel c ((q.odu.channel c).countedBeside (q.odu.channel (otherEncoder c))) := fun q c => by
    have hupdate : (q.odu.channel c).zeroUpdate (q.missesSteps c) =
        (q.odu.channel c).countedBeside (q.odu.channel (otherEncoder c)) := by
      unfold Channel.zeroUpdate Channel.countedBeside Part.missesSteps
      simp
    unfold Part.zeroUpdate
    dsimp only
    rw [hupdate]
    split <;> rfl
  have hstepped : (p.odu.e1.countedBeside p.odu.e2).stepped = p.odu.e1.stepped := by
    unfold Channel.countedBeside
    split_ifs <;> rfl
  have hbeside : p.odu.e2.countedBeside (p.odu.e1.countedBeside p.odu.e2) = p.odu.e2.countedBeside p.odu.e1 := by
    unfold Channel.countedBeside at hstepped ⊢
    rw [hstepped]
  have hfirst := hzero p .e1
  have hboth := hzero (p.zeroUpdate .e1) .e2
  rw [hfirst] at hboth
  unfold Part.zeroUpdates
  rw [hboth]
  simp only [Odu.withChannel, Odu.channel, otherEncoder, hbeside]

/-- A channel that the other has outrun counts no step, and the other is then not faulted (R53). -/
theorem ChannelsSound.counted {x y : Channel} (h : ChannelsSound x y) :
    ChannelsSound (x.countedBeside y) (y.countedBeside x) := by
  obtain ⟨h1, h2, hboth⟩ := h
  unfold ChannelsSound Channel.countedBeside
  cases hx : x.stepped <;> cases hy : y.stepped <;> simp_all

theorem Part.newWindow_oduSound (h : p.odu.Sound) : p.newWindow.odu.Sound := by
  obtain ⟨hplace, -, -, hboth⟩ := h
  exact ⟨hplace, nofun, nofun, hboth⟩

theorem Part.switchChannel_oduSound (h : p.odu.Sound) : p.switchChannel.odu.Sound := by
  have hmoved : ∀ (o : Odu) d, o.Sound → (((p.withOdu o).moveRoute d).validityTest.bump .channelSwitches).odu.Sound :=
    fun o d ho => (Part.moveRoute_oduSound (p := p.withOdu o) ho d).of_eq (by simp)
  exact hmoved _ _ (Odu.Sound.advance (o := { p.odu with active := otherEncoder p.odu.active }) h _)

theorem Part.comparison_oduSound (h : p.odu.Sound) : p.comparison.1.odu.Sound := by
  have hzero : p.zeroUpdates.odu.Sound := by
    rw [Part.zeroUpdates_odu]
    exact ⟨h.1, h.2.counted⟩
  have hjudged : p.zeroUpdates.judgeChannels.1.odu.Sound := by
    unfold Part.judgeChannels
    dsimp only
    split
    · exact Part.switchChannel_oduSound (hzero.of_eq (by simp))
    · exact hzero.of_eq (by simp)
  unfold Part.comparison
  dsimp only
  split
  · exact Part.newWindow_oduSound hzero
  · exact Part.newWindow_oduSound hjudged

/-! ### Ticks, reversal and settings -/

theorem Part.speedTick_oduSound (h : p.odu.Sound) (t : TickData) : (p.speedTick t).odu.Sound := by
  unfold Part.speedTick
  dsimp only
  split <;> exact h

theorem Part.deliverTick_odu (p : Part) (t : TickData) : (p.deliverTick t).odu = p.odu := by
  unfold Part.deliverTick
  dsimp only
  split <;> simp

theorem Part.tickOnce_oduSound (h : p.odu.Sound) (found : Bool) : (p.tickOnce found).odu.Sound :=
  (Part.speedTick_oduSound h _).of_eq (Part.deliverTick_odu _ _)

theorem Part.switchTicks_oduSound (h : p.odu.Sound) (found : Bool) (n : Nat) : (p.switchTicks found n).odu.Sound := by
  induction n generalizing p with
  | zero => exact h
  | succ n ih =>
    unfold Part.switchTicks
    split
    · exact ih (Part.tickOnce_oduSound (p := p.nextBoundary) h found)
    · exact h

theorem Part.tickEvent_oduSound (h : p.odu.Sound) : p.tickEvent.odu.Sound := by
  unfold Part.tickEvent
  split
  · exact Part.switchTicks_oduSound (Part.tickOnce_oduSound (Part.comparison_oduSound (p := p.nextBoundary) h) _) _ _
  · exact h

theorem Part.watchEvent_oduSound (h : p.odu.Sound) : p.watchEvent.odu.Sound := by
  unfold Part.watchEvent
  split
  · exact Part.switchTicks_oduSound (p := Part.carrySlip _ _) (Part.comparison_oduSound h) _ _
  · exact h

theorem Odu.Sound.reversed (h : o.Sound) (now : Time) (spacing : Nat) : (o.reversed now spacing).Sound := by
  obtain ⟨-, -, -, hboth⟩ := h
  exact ⟨⟨le_rfl, le_rfl, by simp [Odu.reversed]⟩, nofun, nofun, hboth⟩

theorem Part.reversalEvent_odu (p : Part) : p.reversalEvent.odu =
    if p.odu.reversalDue then p.odu.reversed p.time p.oru.settings.recordSpacing else p.odu := by
  unfold Part.reversalEvent Part.reverse
  split
  · have hflush : ∀ q : Part, q.reversalFlush.odu = q.odu := fun q => by simp
    have hlose : ∀ q : Part, q.loseLists.odu = q.odu := fun q => rfl
    simp only [Part.cut_frame, hflush, hlose, Part.raise_frame, Part.bump_frame, Part.withOdu_odu]
  · rfl

theorem Part.reversalEvent_oduSound (h : p.odu.Sound) : p.reversalEvent.odu.Sound := by
  rw [Part.reversalEvent_odu]
  split
  · exact h.reversed _ _
  · exact h

theorem Part.settingEffect_oduSound (h : p.odu.Sound) (n a : Nat) : (p.settingEffect n a).odu.Sound := by
  unfold Part.settingEffect
  split
  · exact h
  · exact h
  · exact h.of_eq (by simp)
  · exact h.of_eq (by simp)
  · exact h
  · exact h
  · exact h

theorem Odu.sound_fresh {x y : Channel} (hplace : o.ahead = 0 ∧ o.high = 0) (h1 : o.e1 = x.fresh) (h2 : o.e2 = y.fresh) :
    o.Sound := by
  obtain ⟨hahead, hhigh⟩ := hplace
  refine ⟨⟨by omega, by omega, by omega⟩, ?_⟩
  rw [h1, h2]
  exact ⟨nofun, nofun, by simp [Channel.fresh, Channel.reset]⟩

theorem Part.setPositionTo_odu (p : Part) (route : Int) (dir : Direction) :
    (p.setPositionTo route dir).odu = { p.odu with direction := dir, residue := 0 } := by
  obtain ⟨-, -, -, -, -, -, -, -, hodu⟩ := p.positionMoved_frame route dir
  rw [Part.setPositionTo_eq]
  split
  · exact hodu
  · simpa using hodu

theorem Part.setPositionTo_oduSound (h : p.odu.Sound) (route : Int) (dir : Direction) :
    (p.setPositionTo route dir).odu.Sound := by
  rw [Part.setPositionTo_odu]
  exact h

end

/-- Every effect keeps the odometer and the channels sound. -/
theorem keptByEffects_oduSound : KeptByEffects fun p => p.odu.Sound where
  taken := fun h => h
  bumped := fun _ h => h
  replied := fun _ h => h
  hardReset := fun _ _ => Odu.sound_fresh ⟨rfl, rfl⟩ rfl rfl
  moveOwed := fun h => h.of_eq (by simp)
  elapse := fun h => h
  headChar := fun _ h => h.of_eq (by simp)
  headLoss := fun h => h.of_eq (by simp)
  lockEvent := fun h => h.of_eq (by simp)
  watchdogEvent := fun _ h => h.of_eq (by simp)
  freshnessEvent := fun _ h => h.of_eq (by simp)
  relaySentEvent := fun h => h.of_eq (by simp)
  relayTimeoutEvent := fun h => h.of_eq (by simp)
  setPhases := fun c a b h => Part.setPhases_oduSound h c a b
  phaseChange := fun c a b h => Part.phaseChange_oduSound h c a b
  tickEvent := Part.tickEvent_oduSound
  watchEvent := Part.watchEvent_oduSound
  reversalEvent := Part.reversalEvent_oduSound
  closeEvent := fun _ h => h.of_eq (by simp)
  gapEvent := fun _ h => h.of_eq (by simp)
  historyEvent := fun h => by
    unfold Part.historyEvent
    split <;> exact h
  validityTest := fun h => h.of_eq (by simp)
  parkEvent := fun h => by
    unfold Part.parkEvent Part.enterParked
    split
    · exact Odu.Sound.of_eq (q := Part.raise _ .parkChange) h (by simp)
    · exact h
  recorderChar := fun _ h => h.of_eq (by simp)
  recorderLoss := fun h => h.of_eq (by simp)
  linkUpEvent := fun h => h.of_eq (by simp)
  arbiterEvent := fun h => h.of_eq (by simp)
  leavingEvent := fun h => h.of_eq (by simp)
  setting := @fun p n a v _ h => Part.settingEffect_oduSound (p := p.withSettings (p.oru.settings.write n a v)) h n a
  beginRun := fun _ _ h => h
  endRun := fun h => h.of_eq (by simp)
  setPositionTo := fun _ d h => Part.setPositionTo_oduSound h _ d
  appendRouteList := fun _ h => h.of_eq (by simp)
  appendSectionList := fun _ h => h.of_eq (by simp)
  emptyRoute := fun h => h
  emptySections := fun h => h
  limitsWritten := fun _ _ h => h
  mapWritten := fun _ h => h
  clearCounters := fun _ h => h
  clearEvents := fun _ h => h
  writeMasks := fun _ h => h
  restoreHead := fun _ _ h => h.of_eq (by simp)
  relayOrder := fun _ _ h => h
  restarted := fun _ => Odu.sound_fresh ⟨rfl, rfl⟩ rfl rfl

end Sys2Proof.Machine

/-! SUPPORT. The position: the route distance and the residue in their ranges, FIXED within the fix validity distance, through every operation. -/

namespace Sys2Proof.Machine

/-! ## The position (R43, R44, R68) -/

/-- A route distance in 32 bits. -/
def InRoute (d : Int) : Prop := -2147483648 ≤ d ∧ d ≤ 2147483647

/-- What the statement says of the Position Fixing Unit, beside the route residue and the fix validity distance. -/
def Pfu.Sound (x : Pfu) (residue : Int) (validity : Nat) : Prop :=
  (0 ≤ residue ∧ residue ≤ 999 ∧ -2147483648 ≤ x.routeDistance ∧ x.routeDistance ≤ 2147483647 ∧
    (x.position = .unset → x.routeDistance = 0 ∧ residue = 0) ∧
    ∀ e ∈ x.routeList, -2147483648 ≤ e.distance ∧ e.distance ≤ 2147483647) ∧
  (x.position = .fixed → ∃ n, x.sinceFix = some n ∧ n ≤ validity * 1000000)

/-- The position of the part is sound. -/
def Part.PositionSound (p : Part) : Prop := p.pfu.Sound p.odu.residue p.oru.settings.fixValidity

theorem Part.positionSound_iff (p : Part) : p.PositionSound ↔ p.RoutePlaced ∧ p.FixValid := Iff.rfl

section
variable {p : Part}

theorem Part.PositionSound.of_eq {p q : Part} (h : p.PositionSound) (hpfu : q.pfu = p.pfu)
    (hresidue : q.odu.residue = p.odu.residue) (hsettings : q.oru.settings = p.oru.settings) : q.PositionSound := by
  unfold Part.PositionSound
  rw [hpfu, hresidue, hsettings]
  exact h

/-- The position state lowered: not to UNSET, and not to FIXED. -/
theorem Pfu.Sound.lowered {x : Pfu} {residue : Int} {validity : Nat} (h : x.Sound residue validity) {s : PositionState}
    (hunset : s = .unset → x.position = .unset) (hfixed : s = .fixed → x.position = .fixed) :
    Pfu.Sound { x with position := s } residue validity := by
  obtain ⟨⟨hlow, hhigh, hroute, hroute', hzero, hlist⟩, hfix⟩ := h
  exact ⟨⟨hlow, hhigh, hroute, hroute', fun hs => hzero (hunset hs), hlist⟩, fun hs => hfix (hfixed hs)⟩

theorem PositionState.doubted_eq_unset {s : PositionState} (h : s.doubted = .unset) : s = .unset := by
  cases s <;> simp_all [PositionState.doubted]

theorem PositionState.doubted_ne_fixed (s : PositionState) : s.doubted ≠ .fixed := by
  cases s <;> simp [PositionState.doubted]

theorem Pfu.Sound.doubted {x : Pfu} {residue : Int} {validity : Nat} (h : x.Sound residue validity) :
    Pfu.Sound { x with position := x.position.doubted } residue validity :=
  h.lowered PositionState.doubted_eq_unset fun hs => absurd hs (PositionState.doubted_ne_fixed _)

/-- The route list replaced by part of it. -/
theorem Pfu.Sound.withRoute {x : Pfu} {residue : Int} {validity : Nat} (h : x.Sound residue validity)
    {l : List RouteEntry} (hl : ∀ e ∈ l, InRoute e.distance) : Pfu.Sound { x with routeList := l } residue validity := by
  obtain ⟨⟨hlow, hhigh, hroute, hroute', hzero, -⟩, hfix⟩ := h
  exact ⟨⟨hlow, hhigh, hroute, hroute', hzero, hl⟩, hfix⟩

theorem Part.PositionSound.inRoute (h : p.PositionSound) : ∀ e ∈ p.pfu.routeList, InRoute e.distance := by
  obtain ⟨⟨-, -, -, -, -, hlist⟩, -⟩ := h
  exact hlist

theorem Part.bumpBy_positionSound (c : Counter) (n : Nat) (h : p.PositionSound) : (p.bumpBy c n).PositionSound := h

theorem Part.bump_positionSound (c : Counter) (h : p.PositionSound) : (p.bump c).PositionSound := h

theorem Part.raise_positionSound (e : Event) (h : p.PositionSound) : (p.raise e).PositionSound :=
  h.of_eq (by simp) (by simp) (by simp)

/-! ### Movement (R43, R44, R67 to R69) -/

theorem Part.dropPost_positionSound (h : p.PositionSound) : p.dropPost.PositionSound := by
  unfold Part.dropPost
  split
  · split <;> exact h
  · exact h

/-- A set position put at a distance and a residue in range. -/
theorem Part.placeAt_positionSound (h : p.PositionSound) (hset : p.pfu.position ≠ .unset) {route residue : Int}
    (hroute : InRoute route) (hlow : 0 ≤ residue) (hhigh : residue ≤ 999) : (p.placeAt route residue).PositionSound := by
  obtain ⟨⟨-, -, -, -, -, hlist⟩, hfix⟩ := h
  obtain ⟨hroute, hroute'⟩ := hroute
  exact Part.dropPost_positionSound ⟨⟨hlow, hhigh, hroute, hroute', fun hs => absurd hs hset, hlist⟩, hfix⟩

theorem Part.routeSaturated_positionSound (h : p.PositionSound) : p.routeSaturated.PositionSound := h.doubted

theorem Part.moveRoute_positionSound (h : p.PositionSound) (d : Int) : (p.moveRoute d).PositionSound := by
  unfold Part.moveRoute
  split
  · exact h
  · rename_i hset
    dsimp only
    split_ifs with hlow hhigh
    · exact Part.routeSaturated_positionSound (Part.placeAt_positionSound h hset ⟨by decide, by decide⟩ (by decide) (by decide))
    · exact Part.routeSaturated_positionSound (Part.placeAt_positionSound h hset ⟨by decide, by decide⟩ (by decide) (by decide))
    · exact Part.placeAt_positionSound h hset ⟨by omega, by omega⟩ (by omega) (by omega)

/-- The validity test restores the fix validity distance, whatever has moved the distance since last fix or the setting (R68). -/
theorem Part.validityTest_positionSound (hroute : p.RoutePlaced)
    (hknown : p.pfu.position = .fixed → p.pfu.sinceFix ≠ none) : p.validityTest.PositionSound := by
  unfold Part.validityTest
  split
  · obtain ⟨hlow, hhigh, hdist, hdist', -, hlist⟩ := hroute
    exact ⟨⟨hlow, hhigh, hdist, hdist', nofun, hlist⟩, nofun⟩
  · rename_i hvalid
    refine ⟨hroute, fun hfixed => ?_⟩
    obtain ⟨n, hn⟩ := Option.ne_none_iff_exists'.1 (hknown hfixed)
    refine ⟨n, hn, ?_⟩
    by_contra hbeyond
    exact hvalid ⟨hfixed, by simpa [Part.fixExpired, hn] using hbeyond⟩

theorem Part.PositionSound.known (h : p.PositionSound) (hfixed : p.pfu.position = .fixed) : p.pfu.sinceFix ≠ none := by
  obtain ⟨n, hn, -⟩ := h.2 hfixed
  simp [hn]

theorem Part.PositionSound.validityTest (h : p.PositionSound) : p.validityTest.PositionSound :=
  Part.validityTest_positionSound h.1 h.known

/-- A step moves the distance since last fix, which the validity test then judges. -/
theorem Part.addTravel_positionSound (h : p.PositionSound) (n : Nat) :
    ((p.addTravel n).validityTest).PositionSound := by
  unfold Part.addTravel
  split
  · exact h.validityTest
  · have hknown := h.known
    exact Part.validityTest_positionSound h.1 fun hfixed => by
      have hmap := hknown hfixed
      simpa using hmap

theorem Part.reversalTest_positionSound (d : Int) (h : p.PositionSound) : (p.reversalTest d).PositionSound := by
  unfold Part.reversalTest
  split <;> exact h

theorem Part.withChannel_positionSound (h : p.PositionSound) (c : Encoder) (x : Channel) :
    (p.withOdu (p.odu.withChannel c x)).PositionSound := by
  cases c <;> exact h

theorem Part.stepChannel_positionSound (h : p.PositionSound) (c : Encoder) (d : Int) :
    (p.stepChannel c d).PositionSound := by
  have hstepped := Part.withChannel_positionSound h c ((p.odu.channel c).stepBy d)
  unfold Part.stepChannel Part.activeStep
  dsimp only
  split
  · refine Part.reversalTest_positionSound _ (Part.addTravel_positionSound (Part.moveRoute_positionSound ?_ _) _)
    exact hstepped
  · exact hstepped

theorem Part.setPhases_positionSound (h : p.PositionSound) (c : Encoder) (a b : Bool) :
    (p.setPhases c a b).PositionSound := by
  cases c <;> exact h

theorem Part.phaseChange_positionSound (h : p.PositionSound) (c : Encoder) (a b : Bool) :
    (p.phaseChange c a b).PositionSound := by
  have hset := Part.setPhases_positionSound h c a b
  unfold Part.phaseChange
  dsimp only
  split
  · exact h
  · exact hset
  · exact Part.stepChannel_positionSound hset c _
  · exact Part.stepChannel_positionSound hset c _

theorem Part.switchChannel_positionSound (h : p.PositionSound) : p.switchChannel.PositionSound := by
  unfold Part.switchChannel
  refine Part.bump_positionSound _ (Part.PositionSound.validityTest (Part.moveRoute_positionSound ?_ _))
  exact h

theorem Part.comparison_positionSound (h : p.PositionSound) : p.comparison.1.PositionSound := by
  have hzero : p.zeroUpdates.PositionSound := h.of_eq (by simp) (by rw [Part.zeroUpdates_odu]) (by simp)
  have hslip : ∀ b, (p.zeroUpdates.countSlip b).PositionSound := fun b => hzero.of_eq (by simp) (by simp) (by simp)
  have hjudged : p.zeroUpdates.judgeChannels.1.PositionSound := by
    unfold Part.judgeChannels
    dsimp only
    split
    · exact Part.switchChannel_positionSound (hslip _)
    · exact hslip _
  unfold Part.comparison
  dsimp only
  split
  · exact hzero
  · exact hjudged

/-! ### The route list (R60 to R64, R76, R80) -/

theorem Part.missState_positionSound (h : p.PositionSound) : p.missState.PositionSound := by
  unfold Part.missState
  split
  · split
    · exact h
    · exact h
    · refine Part.raise_positionSound _ ?_
      exact h.lowered nofun nofun
  · exact h.doubted

theorem Part.markerGone_positionSound (h : p.PositionSound) (skip : Bool) : (p.markerGone skip).PositionSound := by
  unfold Part.markerGone
  split
  · exact h
  · refine Part.missState_positionSound (Part.raise_positionSound _ ?_)
    exact h

theorem Part.postPassed_positionSound (h : p.PositionSound) (x : Post) : (p.postPassed x).PositionSound := by
  unfold Part.postPassed
  split <;> exact h

theorem Part.scanRoute_positionSound (h : p.PositionSound) (skip : Bool) (l : List RouteEntry) :
    (p.scanRoute skip l).1.PositionSound := by
  induction l generalizing p with
  | nil => exact h
  | cons e l ih =>
    unfold Part.scanRoute
    split
    · split
      · exact ih (Part.postPassed_positionSound h _)
      · split
        · exact ih (Part.markerGone_positionSound h skip)
        · exact ih h
    · exact h

theorem Part.routeLowTest_positionSound (h : p.PositionSound) : p.routeLowTest.PositionSound := by
  unfold Part.routeLowTest
  split
  · refine Part.raise_positionSound _ ?_
    exact h
  · exact h

theorem Part.routeAdvance_positionSound (h : p.PositionSound) (skip : Bool) : (p.routeAdvance skip).PositionSound := by
  have hkept : ∀ e ∈ (p.scanRoute skip p.pfu.routeList).2, InRoute e.distance := fun e he =>
    h.inRoute e ((Part.scanRoute_sublist skip _ p).subset he)
  have hscan := (Part.scanRoute_positionSound h skip p.pfu.routeList).withRoute hkept
  unfold Part.routeAdvance
  dsimp only
  split
  · exact hscan
  · exact Part.routeLowTest_positionSound (p := Part.withPfu _ _) hscan

theorem Part.advances_positionSound (h : p.PositionSound) (skip : Bool) :
    ((p.routeAdvance skip).sectionAdvance).PositionSound :=
  (Part.routeAdvance_positionSound h skip).of_eq (by simp) (by simp) (by simp)

/-! ### Fixes (R70 to R74) -/

theorem findMatch_distance {w d : Int} {code : BitVec 32} {l : List RouteEntry} {n : Nat}
    {x : List RouteEntry × Int × List RouteEntry} (h : findMatch w d code n l = some x) :
    ∃ e ∈ l, e.distance = x.2.1 := by
  induction l generalizing n x with
  | nil => cases n <;> cases h
  | cons e es ih =>
    have hlater : ∀ {m}, (findMatch w d code m es).map (fun y => (e :: y.1, y.2)) = some x →
        ∃ e' ∈ e :: es, e'.distance = x.2.1 := by
      intro m hm
      obtain ⟨y, hy, rfl⟩ := Option.map_eq_some_iff.1 hm
      obtain ⟨e', he', hd⟩ := ih hy
      exact ⟨e', List.mem_cons_of_mem _ he', hd⟩
    cases n with
    | zero => cases h
    | succ n =>
      rw [findMatch] at h
      split at h
      · exact hlater h
      · split at h
        · cases h
          exact ⟨e, by simp, rfl⟩
        · exact hlater h

theorem Part.fixedAt_positionSound (h : p.PositionSound) {m : Int} (hm : InRoute m) : (p.fixedAt m).PositionSound := by
  obtain ⟨⟨hlow, hhigh, -, -, -, hlist⟩, -⟩ := h
  obtain ⟨hm, hm'⟩ := hm
  exact Part.dropPost_positionSound
    ⟨⟨hlow, hhigh, hm, hm', nofun, hlist⟩, fun _ => ⟨0, rfl, Nat.zero_le _⟩⟩

theorem Part.handOff_positionSound (h : p.PositionSound) (c : Int) : (p.handOff c).PositionSound := by
  unfold Part.handOff Part.largeTest
  dsimp only
  split
  · refine Part.raise_positionSound _ ?_
    exact h
  · exact h

theorem Part.fix_positionSound (h : p.PositionSound) {before after : List RouteEntry} {m : Int} (hm : InRoute m)
    (hlist : ∀ e ∈ before ++ after, InRoute e.distance) : (p.fix before m after).PositionSound := by
  have hkept : ∀ e ∈ before.filter (fun e => !e.isMarker) ++ after, InRoute e.distance := fun e he =>
    hlist e ((List.filter_sublist.append_right after).subset he)
  have hlisted : ∀ n, ((p.missBefore n).withPfu { (p.missBefore n).pfu with
      routeList := before.filter (fun e => !e.isMarker) ++ after }).PositionSound := fun n =>
    Pfu.Sound.withRoute (h.of_eq (q := p.missBefore n) (by simp) (by simp) (by simp)) hkept
  unfold Part.fix
  refine Part.advances_positionSound (Part.handOff_positionSound ?_ _) _
  refine Part.raise_positionSound _ (Part.bump_positionSound _ (Part.fixedAt_positionSound ?_ hm))
  exact Part.routeLowTest_positionSound (hlisted _)

theorem Part.detect_positionSound (h : p.PositionSound) (code : BitVec 32) : (p.detect code).PositionSound := by
  unfold Part.detect
  split
  · exact h
  · split
    · rename_i x hmatch
      obtain ⟨e, he, hdist⟩ := findMatch_distance hmatch
      obtain ⟨e', hsplit⟩ := findMatch_split hmatch
      refine Part.fix_positionSound h (hdist ▸ h.inRoute e he) fun f hf => h.inRoute f ?_
      rw [hsplit]
      rcases List.mem_append.1 hf with hf | hf
      · exact List.mem_append_left _ hf
      · exact List.mem_append_right _ (List.mem_cons_of_mem _ hf)
    · exact h.of_eq (by simp) (by simp) (by simp)

/-! ### SET POSITION and APPEND ROUTE (R60, R79) -/

theorem natOfBytes_lt (l : List Byte) : natOfBytes l < 256 ^ l.length := by
  induction l using List.reverseRecOn with
  | nil => simp [natOfBytes]
  | append_singleton l b ih =>
    have hlast : natOfBytes (l ++ [b]) = natOfBytes l * 256 + b.toNat := by simp [natOfBytes, List.foldl_append]
    have hb := b.isLt
    rw [hlast, List.length_append, List.length_singleton, pow_succ]
    omega

/-- Four bytes or fewer spell a route distance. -/
theorem fieldInt_inRoute (bs : List Byte) (off : Nat) : InRoute (fieldInt bs off 4) := by
  have hlen : ((bs.drop off).take 4).length ≤ 4 := by simp
  have hlt := natOfBytes_lt ((bs.drop off).take 4)
  unfold InRoute fieldInt intOfBytes
  generalize (bs.drop off).take 4 = l at hlen hlt
  have hpow : 256 ^ l.length ≤ 256 ^ 4 := Nat.pow_le_pow_right (by decide) hlen
  dsimp only
  split_ifs <;> omega

theorem Part.positionSet_positionSound (h : p.PositionSound) {route : Int} (hroute : InRoute route) (dir : Direction) :
    (p.positionSet route dir).PositionSound := by
  obtain ⟨hroute, hroute'⟩ := hroute
  refine ⟨⟨le_rfl, by simp [Part.positionSet], hroute, hroute', nofun, ?_⟩, nofun⟩
  intro e he
  refine h.inRoute e ?_
  by_cases hdir : dir = p.odu.direction <;> simp_all [Part.positionSet]

theorem Part.setPositionTo_positionSound (h : p.PositionSound) {route : Int} (hroute : InRoute route) (dir : Direction) :
    (p.setPositionTo route dir).PositionSound := by
  have hmoved : (p.positionMoved route dir).PositionSound :=
    Part.advances_positionSound (Part.positionSet_positionSound h hroute dir) true
  rw [Part.setPositionTo_eq]
  split
  · exact hmoved
  · exact hmoved.of_eq (by simp) (by simp) (by simp)

theorem takeRoutes_inRoute (dir : Direction) (set : Bool) (d : Int) {rs : List RawRoute}
    (hrs : ∀ r ∈ rs, InRoute r.distance) {xs : List RouteEntry} (hxs : ∀ e ∈ xs, InRoute e.distance) :
    ∀ e ∈ (takeRoutes dir set d rs xs).1, InRoute e.distance := by
  induction rs generalizing xs with
  | nil => exact hxs
  | cons r rs ih =>
    unfold takeRoutes
    split
    · exact hxs
    · rename_i k _
      split_ifs
      · exact hxs
      · exact hxs
      · refine ih (fun r' hr' => hrs r' (List.mem_cons_of_mem _ hr')) fun e he => ?_
        rcases List.mem_append.1 he with he | he
        · exact hxs e he
        · rw [List.mem_singleton.1 he]
          exact hrs r (by simp)

theorem Part.appendRouteList_positionSound (h : p.PositionSound) (l : List (List Byte)) :
    (p.appendRouteList (l.map rawRoute)).1.PositionSound := by
  have hraw : ∀ r ∈ l.map rawRoute, InRoute r.distance := fun r hr => by
    obtain ⟨bs, -, rfl⟩ := List.mem_map.1 hr
    exact fieldInt_inRoute bs 1
  have hlist := h.withRoute (takeRoutes_inRoute p.odu.direction (p.pfu.position != .unset) p.pfu.routeDistance hraw h.inRoute)
  unfold Part.appendRouteList
  dsimp only
  split <;> exact hlist

/-! ### Ticks, the head link, runs and settings -/

theorem Part.tickAdvance_positionSound (h : p.PositionSound) : p.tickAdvance.PositionSound := by
  unfold Part.tickAdvance
  split
  · exact h
  · exact Part.advances_positionSound h false

theorem Part.captureEntry_positionSound (h : p.PositionSound) (t : TickData) : (p.captureEntry t).PositionSound := h

theorem Part.capture_positionSound (h : p.PositionSound) (t : TickData) : (p.capture t).PositionSound := by
  unfold Part.capture
  exact (Part.captureEntry_positionSound h t).of_eq (by simp) (by simp) (by simp)

theorem Part.tickOnce_positionSound (h : p.PositionSound) (found : Bool) : (p.tickOnce found).PositionSound := by
  have hspeed : ∀ t, (p.speedTick t).PositionSound := fun t => by
    unfold Part.speedTick
    dsimp only
    split <;> exact h
  have hrun : ∀ (q : Part) t, q.PositionSound → ((q.bump .ticks).runTick t).PositionSound := fun q t hq =>
    hq.of_eq (by simp) (by simp) (by simp)
  unfold Part.tickOnce Part.deliverTick
  dsimp only
  split
  · exact Part.capture_positionSound (Part.tickAdvance_positionSound (hrun _ _ (hspeed _))) _
  · exact Part.tickAdvance_positionSound (hrun _ _ (hspeed _))

theorem Part.switchTicks_positionSound (h : p.PositionSound) (found : Bool) (n : Nat) :
    (p.switchTicks found n).PositionSound := by
  induction n generalizing p with
  | zero => exact h
  | succ n ih =>
    unfold Part.switchTicks
    split
    · exact ih (Part.tickOnce_positionSound (p := p.nextBoundary) h found)
    · exact h

theorem Part.tickEvent_positionSound (h : p.PositionSound) : p.tickEvent.PositionSound := by
  unfold Part.tickEvent
  split
  · have hcompared := Part.comparison_positionSound (p := p.nextBoundary) h
    exact Part.switchTicks_positionSound (Part.tickOnce_positionSound hcompared _) _ _
  · exact h

theorem Part.watchEvent_positionSound (h : p.PositionSound) : p.watchEvent.PositionSound := by
  unfold Part.watchEvent
  split
  · exact Part.switchTicks_positionSound (p := Part.carrySlip _ _) (Part.comparison_positionSound h) _ _
  · exact h

theorem Part.emptyRoute_positionSound (h : p.PositionSound) : p.emptyRoute.PositionSound :=
  Pfu.Sound.withRoute (l := []) h nofun

theorem Part.loseLists_positionSound (h : p.PositionSound) : p.loseLists.PositionSound := by
  have hempty := Part.emptyRoute_positionSound h
  exact hempty

theorem Part.reversalEvent_positionSound (h : p.PositionSound) : p.reversalEvent.PositionSound := by
  have hcut : ∀ q : Part, q.PositionSound → ((q.reversalFlush).cut .reversal).PositionSound := fun q hq =>
    hq.of_eq (by simp) (by simp) (by simp)
  unfold Part.reversalEvent Part.reverse
  split
  · refine hcut _ (Part.loseLists_positionSound (Part.raise_positionSound _ (Part.bump_positionSound _ ?_)))
    exact h
  · exact h

theorem Part.takeMarker_positionSound (h : p.PositionSound) (g : Head) (code : BitVec 32) :
    (p.takeMarker g code).PositionSound := by
  unfold Part.takeMarker
  split
  · split
    · exact Part.detect_positionSound h code
    · exact h
  · exact h

theorem Part.completeRelay_positionSound (h : p.PositionSound) (w : RelaySlot) (r : Result) (l : List Byte) :
    (p.completeRelay w r l).PositionSound := by
  unfold Part.completeRelay
  dsimp only
  split <;> exact h

theorem Part.takeReply_positionSound (h : p.PositionSound) (g : Head) (l : List Byte) :
    (p.takeReply g l).PositionSound := by
  unfold Part.takeReply
  split
  · split
    · exact Part.completeRelay_positionSound h _ _ _
    · exact h
  · exact h.of_eq (by simp) (by simp) (by simp)

theorem Part.takeKind_positionSound (h : p.PositionSound) (g : Head) (hd : Header) (l : List Byte) :
    (p.takeKind g hd l).PositionSound := by
  unfold Part.takeKind
  split
  · exact h.of_eq (by simp) (by simp) (by simp)
  · exact Part.takeMarker_positionSound h g _
  · exact h.of_eq (by simp) (by simp) (by simp)
  · exact Part.takeReply_positionSound h g _

theorem Part.judgeFrame_positionSound (h : p.PositionSound) (l : List Byte) (hd : Header) :
    (p.judgeFrame l hd).PositionSound := by
  unfold Part.judgeFrame
  split
  · exact h
  · split
    · exact h.of_eq (by simp) (by simp) (by simp)
    · split
      · exact h.of_eq (by simp) (by simp) (by simp)
      · exact Part.takeKind_positionSound (h.of_eq (by simp) (by simp) (by simp)) _ _ _

theorem Part.frameEnd_positionSound (h : p.PositionSound) (l : List Byte) (hd : Option Header) :
    (p.frameEnd l hd).PositionSound := by
  unfold Part.frameEnd
  split
  · exact h.of_eq (by simp) (by simp) (by simp)
  · split
    · exact h.of_eq (by simp) (by simp) (by simp)
    · refine Part.judgeFrame_positionSound ?_ _ _
      exact h

theorem Part.charInFrame_positionSound (h : p.PositionSound) (l : List Byte) (hd : Option Header) (c : LineChar) :
    (p.charInFrame l hd c).PositionSound := by
  cases c with
  | idle => exact h
  | violation => exact h.of_eq (by simp [Part.charInFrame]) (by simp) (by simp [Part.charInFrame])
  | frameStart =>
    unfold Part.charInFrame
    dsimp only
    split <;> exact h.of_eq (by simp) (by simp) (by simp)
  | data b => exact h.of_eq (by simp [Part.charInFrame]) (by simp) (by simp [Part.charInFrame])
  | frameEnd => exact Part.frameEnd_positionSound h l hd

theorem Part.headChar_positionSound (h : p.PositionSound) (c : LineChar) : (p.headChar c).PositionSound := by
  have hcounted : (p.lockEvent.countViolation c).PositionSound := h.of_eq (by simp) (by simp) (by simp)
  unfold Part.headChar Part.charTaken
  split
  · split
    · exact hcounted.of_eq (by simp) (by simp) (by simp)
    · exact hcounted.of_eq (by simp) (by simp) (by simp)
    · exact hcounted.of_eq (by simp) (by simp) (by simp)
    · exact Part.charInFrame_positionSound hcounted _ _ c
  · exact hcounted.of_eq (by simp) (by simp) (by simp)

theorem Part.relayTimeoutEvent_positionSound (h : p.PositionSound) : p.relayTimeoutEvent.PositionSound := by
  unfold Part.relayTimeoutEvent
  split
  · exact Part.completeRelay_positionSound h _ _ _
  · exact h

/-- Only setting 17 writes the fix validity distance. -/
theorem Settings.write_fixValidity (s : Settings) {n : Nat} (a v : Nat) (h : n ≠ 17) :
    (s.write n a v).fixValidity = s.fixValidity := by
  unfold Settings.write
  split <;> simp_all

theorem Part.setting_positionSound (h : p.PositionSound) (n a v : Nat) :
    ((p.withSettings (p.oru.settings.write n a v)).settingEffect n a).PositionSound := by
  by_cases hvalidity : n = 17
  · subst hvalidity
    exact Part.validityTest_positionSound (p := p.withSettings (p.oru.settings.write 17 a v)) h.1 h.known
  · have hwritten : (p.withSettings (p.oru.settings.write n a v)).PositionSound := by
      unfold Part.PositionSound
      simp only [Part.withSettings_frame]
      exact (Settings.write_fixValidity p.oru.settings a v hvalidity) ▸ h
    unfold Part.settingEffect
    split
    · exact hwritten
    · exact hwritten
    · exact hwritten.of_eq (by simp) (by simp) (by simp)
    · exact absurd rfl hvalidity
    · exact hwritten
    · exact hwritten
    · exact hwritten

end

theorem Pfu.reset_sound (validity : Nat) : Pfu.reset.Sound 0 validity :=
  ⟨⟨le_rfl, by decide, by decide, by decide, fun _ => ⟨rfl, rfl⟩, nofun⟩, nofun⟩

/-- Every effect keeps the position sound. -/
theorem keptByEffects_positionSound : KeptByEffects Part.PositionSound where
  taken := fun h => h
  bumped := fun _ h => h
  replied := fun _ h => h
  hardReset := fun _ _ => Pfu.reset_sound _
  moveOwed := fun h => h.of_eq (by simp) (by simp) (by simp)
  elapse := fun h => h
  headChar := fun c h => Part.headChar_positionSound h c
  headLoss := fun h => h.of_eq (by simp) (by simp) (by simp)
  lockEvent := fun h => h.of_eq (by simp) (by simp) (by simp)
  watchdogEvent := fun _ h => h.of_eq (by simp) (by simp) (by simp)
  freshnessEvent := fun _ h => h.of_eq (by simp) (by simp) (by simp)
  relaySentEvent := fun h => h.of_eq (by simp) (by simp) (by simp)
  relayTimeoutEvent := Part.relayTimeoutEvent_positionSound
  setPhases := fun c a b h => Part.setPhases_positionSound h c a b
  phaseChange := fun c a b h => Part.phaseChange_positionSound h c a b
  tickEvent := Part.tickEvent_positionSound
  watchEvent := Part.watchEvent_positionSound
  reversalEvent := Part.reversalEvent_positionSound
  closeEvent := fun _ h => h.of_eq (by simp) (by simp) (by simp)
  gapEvent := fun _ h => h.of_eq (by simp) (by simp) (by simp)
  historyEvent := fun h => by
    unfold Part.historyEvent
    split <;> exact h
  validityTest := fun h => h.validityTest
  parkEvent := fun h => by
    unfold Part.parkEvent Part.enterParked
    split
    · exact Part.PositionSound.of_eq (q := Part.raise _ .parkChange) h (by simp) (by simp) (by simp)
    · exact h
  recorderChar := fun _ h => h.of_eq (by simp) (by simp) (by simp)
  recorderLoss := fun h => h.of_eq (by simp) (by simp) (by simp)
  linkUpEvent := fun h => h.of_eq (by simp) (by simp) (by simp)
  arbiterEvent := fun h => h.of_eq (by simp) (by simp) (by simp)
  leavingEvent := fun h => h.of_eq (by simp) (by simp) (by simp)
  setting := @fun p n a v _ h => Part.setting_positionSound h n a v
  beginRun := fun _ _ h => h
  endRun := fun h => h.of_eq (by simp) (by simp) (by simp)
  setPositionTo := fun ps d h => Part.setPositionTo_positionSound h (fieldInt_inRoute ps 0) d
  appendRouteList := fun l h => Part.appendRouteList_positionSound h l
  appendSectionList := fun _ h => h.of_eq (by simp) (by simp) (by simp)
  emptyRoute := Part.emptyRoute_positionSound
  emptySections := fun h => h
  limitsWritten := fun _ _ h => h
  mapWritten := fun _ h => h
  clearCounters := fun _ h => h
  clearEvents := fun _ h => h
  writeMasks := fun _ h => h
  restoreHead := fun _ _ h => h.of_eq (by simp) (by simp) (by simp)
  relayOrder := fun _ _ h => h
  restarted := fun _ => Pfu.reset_sound _

/-- Settles O56: every effect of a command keeps the odometer with its channels, and the position. -/
theorem positionStaysPlaced : Obligations.PositionStaysPlaced := by
  have hboth := keptByEffects_oduSound.stepKeeps.and keptByEffects_positionSound.stepKeeps
  intro s t ⟨hroute, hodometer, hfix, hfault⟩ hstep
  obtain ⟨⟨hodometer, hfault⟩, hroute, hfix⟩ := hboth s t ⟨⟨hodometer, hfault⟩, hroute, hfix⟩ hstep
  exact ⟨hroute, hodometer, hfix, hfault⟩

end Sys2Proof.Machine

/-! SUPPORT. The trace window: what captures, emissions and flushes make of it, what keeps the part quiet outside a run, and that every step keeps the window bounded. -/

namespace Sys2Proof.Machine

/-! ## Quiet outside a run (R138, R151, R153) -/

/-- Outside a run nothing is traced, no slot stands active and no latch is set. -/
structure Tracking.Quiet (x : Tracking) : Prop where
  untraced : x.recording = false → x.Untraced
  noneActive : x.recording = false → ∀ n, ¬ x.Active n
  noneLatched : x.recording = false → ∀ k, x.latched k = false

/-- The property of the statement in the tracking's terms. -/
theorem Part.tracking_quiet_iff (p : Part) : p.tracking.Quiet ↔ p.QuietOutsideRun := by
  have hidle : ∀ n, (p.ext.slots[n]).isActive = false ↔ ¬ p.tracking.Active n := fun n => by
    rw [p.active_iff, Bool.not_eq_true]
  have hrun : (p.rnc.runState = .halted ∨ p.rnc.runState = .armed) ↔ p.tracking.recording = false :=
    (RunState.recording_eq_false_iff _).symm
  unfold Part.QuietOutsideRun
  simp only [hidle, hrun]
  constructor
  · rintro ⟨htrace, hactive, hlatched⟩ hr
    obtain ⟨hwindow, hnext, hstart⟩ := htrace hr
    exact ⟨hwindow, hnext, hstart, hactive hr, hlatched hr⟩
  · intro h
    refine ⟨fun hr => ?_, fun hr => ?_, fun hr => ?_⟩
    · obtain ⟨hwindow, hnext, hstart, -, -⟩ := h hr
      exact ⟨hwindow, hnext, hstart⟩
    · obtain ⟨-, -, -, hactive, -⟩ := h hr
      exact hactive
    · obtain ⟨-, -, -, -, hlatched⟩ := h hr
      exact hlatched

/-- From one tracking to another the run state and the trace stand, and no slot has become active and no latch set. -/
structure Tracking.Calmer (x y : Tracking) : Prop where
  recording : y.recording = x.recording
  trace : x.Untraced → y.Untraced
  active : ∀ n, y.Active n → x.Active n
  latched : ∀ k, y.latched k = true → x.latched k = true

section
variable {x y z : Tracking} {p : Part}

theorem Tracking.Calmer.refl (x : Tracking) : x.Calmer x := ⟨rfl, id, fun _ => id, fun _ => id⟩

theorem Tracking.Calmer.trans (h : x.Calmer y) (h' : y.Calmer z) : x.Calmer z :=
  ⟨h'.recording.trans h.recording, fun ht => h'.trace (h.trace ht), fun n hn => h.active n (h'.active n hn),
    fun k hk => h.latched k (h'.latched k hk)⟩

theorem Tracking.Quiet.calmer (h : x.Quiet) (hy : x.Calmer y) : y.Quiet := by
  refine ⟨fun hr => ?_, fun hr n hn => ?_, fun hr k => ?_⟩
  · exact hy.trace (h.untraced (hy.recording ▸ hr))
  · exact h.noneActive (hy.recording ▸ hr) n (hy.active n hn)
  · have hclear := h.noneLatched (hy.recording ▸ hr) k
    exact Bool.eq_false_iff.2 fun hk => by simp [hy.latched k hk] at hclear

/-- Within a run there is nothing to say. -/
theorem Tracking.Quiet.of_recording (h : x.recording = true) : x.Quiet := by
  constructor <;> simp [h]

/-- A slot made to stand otherwise than active. -/
theorem Tracking.calmer_stand (x : Tracking) (n : SlotNo) {s : Standing} (hs : ∀ q t, s ≠ .active q t) :
    x.Calmer (x.stand n s) := by
  refine ⟨rfl, id, fun m ⟨q, t, hm⟩ => ?_, fun _ => id⟩
  unfold Tracking.stand at hm
  dsimp only at hm
  by_cases hmn : m = n
  · subst hmn
    exact absurd ((Function.update_self m s x.standing).symm.trans hm) (hs q t)
  · exact ⟨q, t, (Function.update_of_ne hmn s x.standing).symm.trans hm⟩

/-! ### What the tracker's operations make of it -/

theorem Part.calmer_of_tracking_eq {q : Part} (h : q.tracking = p.tracking) : p.tracking.Calmer q.tracking := h ▸ .refl _

theorem Part.markOwed_calmer (p : Part) (o : Owner) (b : Bool) : p.tracking.Calmer (p.markOwed o b).tracking := by
  rw [Part.markOwed_tracking]
  exact ⟨rfl, id, fun _ => id, fun _ => id⟩

theorem Part.moveOwedList_calmer (l : List Owed) : ∀ p : Part, p.tracking.Calmer (p.moveOwedList l).tracking := by
  induction l with
  | nil => exact fun p => .refl _
  | cons w l ih =>
    intro p
    have hdropped : p.tracking.Calmer (p.withExt { p.ext with owed := l }).tracking := ⟨rfl, id, fun _ => id, fun _ => id⟩
    have hsent : p.tracking.Calmer
        (((p.withExt { p.ext with owed := l }).markOwed w.owner false).sendUrgent w.owner w.notice).tracking := by
      rw [Part.sendUrgent_tracking]
      exact hdropped.trans (Part.markOwed_calmer _ _ _)
    unfold Part.moveOwedList
    split
    · exact hsent.trans (ih _)
    · exact .refl _

theorem Part.placeReport_calmer (p : Part) (n : SlotNo) (ex : Exceedance) (r : Report) :
    p.tracking.Calmer (p.placeReport n ex r).tracking := by
  rw [Part.placeReport_tracking]
  exact (p.tracking.calmer_stand n (s := .free) nofun).trans ⟨rfl, id, fun _ => id, fun _ => id⟩

theorem Part.promotePending_calmer (p : Part) : p.tracking.Calmer p.promotePending.tracking := by
  have hdropped : ∀ rest, p.tracking.Calmer (p.withExt { p.ext with pendingList := rest }).tracking := fun _ =>
    ⟨rfl, id, fun _ => id, fun _ => id⟩
  unfold Part.promotePending
  split
  · exact .refl _
  · dsimp only
    split
    · exact (hdropped _).trans (Part.placeReport_calmer _ _ _ _)
    · exact hdropped _

theorem Part.leavingEvent_calmer (p : Part) : p.tracking.Calmer p.leavingEvent.tracking := by
  have hwrite : ∀ (q : Part) x, q.tracking.Calmer (q.withRlu x).tracking := fun _ _ => ⟨rfl, id, fun _ => id, fun _ => id⟩
  have hqueue : ∀ (q : Part) w, q.tracking.Calmer (q.leaveQueue w).tracking := fun q w => by
    cases w with
    | xr => exact (hwrite q _).trans (Part.promotePending_calmer _)
    | control => exact hwrite q _
    | gr => exact hwrite q _
    | mirror => exact hwrite q _
  unfold Part.leavingEvent
  split
  · exact .refl _
  · dsimp only
    split
    · exact hwrite p _
    · exact (hwrite p _).trans (hqueue _ _)

theorem Part.cut_calmer (p : Part) (c : CutFlag) : p.tracking.Calmer (p.cut c).tracking := by
  obtain ⟨hactive, hlatched⟩ := p.cut_quiet c
  have htru : (p.cut c).tru = p.tru := by simp
  have hrnc : (p.cut c).rnc = p.rnc := by simp
  refine ⟨congrArg (fun x => x.runState.recording) hrnc, fun ⟨hw, hn, hs⟩ => ?_, fun n hn => absurd hn (hactive n),
    fun k hk => by simp [hlatched k] at hk⟩
  exact ⟨(congrArg Tru.window htru).trans hw, (congrArg Tru.nextEmit htru).trans hn, (congrArg Tru.segStart htru).trans hs⟩

/-- A flush leaves the trace window empty, with no entry to emit and no segment (R98). -/
theorem Part.flush_untraced (p : Part) : p.flush.tracking.Untraced := ⟨rfl, rfl, rfl⟩

/-- The end of a run leaves the part quiet (R161). -/
theorem Part.endRun_quiet (h : p.tracking.Quiet) : p.endRun.tracking.Quiet := by
  unfold Part.endRun
  split
  · exact h
  · obtain ⟨hactive, hlatched⟩ := p.flush.cut_quiet .stop
    rw [Part.haltRun_tracking]
    exact ⟨fun _ => (Part.cut_calmer _ _).trace p.flush_untraced, fun _ => hactive, fun _ => hlatched⟩

/-- A REVERSAL flushes within a run alone, and cuts (R100, R137). -/
theorem Part.reversalEvent_quiet (h : p.tracking.Quiet) : p.reversalEvent.tracking.Quiet := by
  have hflush : ∀ q : Part, q.tracking.Quiet → q.reversalFlush.tracking.Quiet := fun q hq => by
    have hrnc : q.flush.rnc = q.rnc := by simp
    unfold Part.reversalFlush
    split
    · rename_i hrun
      exact .of_recording (by rw [Part.tracking_recording, hrnc, hrun]; rfl)
    · rename_i hrun
      exact .of_recording (by rw [Part.tracking_recording, hrnc, hrun]; rfl)
    · exact hq
  have hlost : ∀ q : Part, q.loseLists.tracking = q.tracking := fun q => by simp [Part.tracking]
  unfold Part.reversalEvent
  split
  · exact (hflush _ (by simpa [hlost] using h)).calmer (Part.cut_calmer _ _)
  · exact h

/-- A slot's own events find an active slot within a run alone. -/
theorem Tracking.Quiet.recording_of_hold (h : p.tracking.Quiet) {n : SlotNo} {ph : SlotPhase} {ex : Exceedance}
    (hn : (p.ext.slots[n]).hold = .active ph ex) : p.tracking.recording = true := by
  by_contra hr
  exact h.noneActive (Bool.eq_false_iff.2 hr) n ⟨_, _, Part.standing_of_hold hn⟩

theorem Part.closeEvent_quiet (h : p.tracking.Quiet) (n : SlotNo) : (p.closeEvent n).tracking.Quiet := by
  unfold Part.closeEvent
  split
  · rename_i hn
    have hr := h.recording_of_hold hn
    split_ifs
    · exact h
    · exact .of_recording (by simpa [Part.tracking_recording] using hr)
    · exact h
  · exact h

theorem Part.gapEvent_quiet (h : p.tracking.Quiet) (n : SlotNo) : (p.gapEvent n).tracking.Quiet := by
  unfold Part.gapEvent
  split
  · rename_i hn
    have hr := h.recording_of_hold hn
    split_ifs
    · exact h
    · exact .of_recording (by simpa [Part.tracking_recording] using hr)
    · exact h
  · exact h

end

/-! ## The trace window (R83, R87, R88) -/

/-- The window with `j` entries not yet emitted. -/
structure Tru.Waits (t : Tru) (depth j : Nat) : Prop where
  consecutive : t.Consecutive
  emit : t.nextEmit = some (t.nextSeq - BitVec.ofNat 32 j)
  room : j ≤ t.window.length
  kept : t.window.length ≤ depth + 1 + j

/-- What the statement says of the trace window for a lag and a retention depth. -/
def Tru.Within (t : Tru) (lag depth : Nat) : Prop :=
  t.Consecutive ∧ (t.window = [] → t.nextEmit = none) ∧
  (t.window ≠ [] → ∃ j, j ≤ lag ∧ j ≤ t.window.length ∧ t.window.length ≤ depth + 1 + j ∧
    t.nextEmit = some (t.nextSeq - BitVec.ofNat 32 j))

theorem Part.windowBounded_iff (p : Part) :
    p.WindowBounded ↔ p.tru.Within p.oru.settings.lag p.oru.settings.depth := Iff.rfl

section
variable {t : Tru} {lag depth j : Nat}

theorem Tru.within_empty (n : Seq) (start : Option Seq) : (Tru.mk [] n start none).Within lag depth :=
  ⟨fun i e h => by simp at h, fun _ => rfl, fun h => absurd rfl h⟩

theorem Tru.Waits.within (h : t.Waits depth j) (hj : j ≤ lag) (hne : t.window ≠ []) : t.Within lag depth :=
  ⟨h.consecutive, fun he => absurd he hne, fun _ => ⟨j, hj, h.room, h.kept, h.emit⟩⟩

/-- A place behind the next sequence, and one place more behind the sequence after it. -/
theorem sub_ofNat_succ (n : Seq) (k : Nat) : n + 1 - BitVec.ofNat 32 (k + 1) = n - BitVec.ofNat 32 k := by
  have hone : BitVec.ofNat 32 1 = 1 := rfl
  rw [BitVec.ofNat_add, hone]
  ring

/-- Sequences counted back from the next one. -/
theorem Tru.Consecutive.append (h : t.Consecutive) {e : TraceEntry} (he : e.seq = t.nextSeq) :
    (t.append e).Consecutive := by
  intro i x hx
  have hlen : (t.append e).window.length = t.window.length + 1 := by simp [Tru.append]
  have hnext : (t.append e).nextSeq = t.nextSeq + 1 := rfl
  rw [hlen, hnext]
  rcases Nat.lt_or_ge i t.window.length with hi | hi
  · have hx' : t.window[i]? = some x := by
      rw [← hx]
      exact (List.getElem?_append_left hi).symm
    have hstep : t.window.length + 1 - i = (t.window.length - i) + 1 := by omega
    rw [h i x hx', hstep, sub_ofNat_succ]
  · obtain rfl : i = t.window.length := by
      have hlt := (List.getElem?_eq_some_iff.1 hx).1
      rw [hlen] at hlt
      omega
    have hx' : e = x := by simpa [Tru.append] using hx
    rw [← hx', he, Nat.add_sub_cancel_left]
    simp

/-- A capture adds one entry that is not yet emitted (R85). -/
theorem Tru.Within.append (h : t.Within lag depth) {e : TraceEntry} (he : e.seq = t.nextSeq) :
    ∃ j, 1 ≤ j ∧ j ≤ lag + 1 ∧ (t.append e).Waits depth j := by
  obtain ⟨hconsecutive, -, hwaits⟩ := h
  have hlen : (t.append e).window.length = t.window.length + 1 := by simp [Tru.append]
  have hnext : (t.append e).nextSeq = t.nextSeq + 1 := rfl
  by_cases hempty : t.window = []
  · refine ⟨1, le_rfl, by omega, hconsecutive.append he, ?_, by omega, by rw [hlen, hempty]; simp⟩
    have hemit : (t.append e).nextEmit = some e.seq := by simp [Tru.append, hempty]
    rw [hemit, he, hnext]
    simp
  · obtain ⟨j, hj, hroom, hkept, hemit⟩ := hwaits hempty
    refine ⟨j + 1, by omega, by omega, hconsecutive.append he, ?_, by omega, by omega⟩
    have hemit' : (t.append e).nextEmit = t.nextEmit := by simp [Tru.append, hempty]
    rw [hemit', hemit, hnext, sub_ofNat_succ]

/-- The entry `lag` places behind the newest. -/
theorem Tru.Consecutive.behind (h : t.Consecutive) {x : TraceEntry} (hlag : lag < t.window.length)
    (hx : t.window[t.window.length - 1 - lag]? = some x) : x.seq = t.nextSeq - BitVec.ofNat 32 (lag + 1) := by
  rw [h _ x hx]
  congr 2
  omega

/-- Small numbers of places behind the next sequence are told apart. -/
theorem sub_ofNat_inj {n : Seq} {a b : Nat} (ha : a < 2 ^ 32) (hb : b < 2 ^ 32)
    (h : n - BitVec.ofNat 32 a = n - BitVec.ofNat 32 b) : a = b := by
  have hab : BitVec.ofNat 32 a = BitVec.ofNat 32 b := by simpa using h
  have hnat := congrArg BitVec.toNat hab
  rwa [BitVec.toNat_ofNat, BitVec.toNat_ofNat, Nat.mod_eq_of_lt ha, Nat.mod_eq_of_lt hb] at hnat

/-- How far an entry lies behind another of the same window. -/
theorem Tru.Consecutive.distance (h : t.Consecutive) {i k : Nat} {x y : TraceEntry} (hik : i ≤ k)
    (hx : t.window[i]? = some x) (hy : t.window[k]? = some y) (hlen : t.window.length < 2 ^ 32) :
    (y.seq - x.seq).toNat = k - i := by
  have hk := (List.getElem?_eq_some_iff.1 hy).1
  have hsplit : t.window.length - i = (t.window.length - k) + (k - i) := by omega
  have hdiff : y.seq - x.seq = BitVec.ofNat 32 (k - i) := by
    rw [h i x hx, h k y hy, hsplit, BitVec.ofNat_add]
    ring
  rw [hdiff, BitVec.toNat_ofNat, Nat.mod_eq_of_lt (by omega)]

/-- Part of a window from some place on carries the same sequences. -/
theorem Tru.Consecutive.drop (h : t.Consecutive) (k : Nat) (next : Option Seq) :
    Tru.Consecutive { t with window := t.window.drop k, nextEmit := next } := by
  intro i x hx
  dsimp only at hx ⊢
  rw [List.getElem?_drop] at hx
  rw [h _ x hx, List.length_drop]
  congr 2
  omega

/-- What the retention discards is a part from the head on, and what it keeps reaches back `depth` records from the emitted one, if that far (R88). -/
theorem Tru.Consecutive.retained (h : t.Consecutive) {x : TraceEntry} (hlag : lag < t.window.length)
    (hx : t.window[t.window.length - 1 - lag]? = some x) (hlen : t.window.length < 2 ^ 31) :
    ∃ k, t.window.dropWhile (behindBy depth x.seq) = t.window.drop k ∧ k + lag + 1 ≤ t.window.length ∧
      t.window.length ≤ depth + 1 + lag + k := by
  have hplace : ∀ i y, i + lag + 1 ≤ t.window.length → t.window[i]? = some y →
      behindBy depth x.seq y = decide (depth < t.window.length - 1 - lag - i) := by
    intro i y hi hy
    have hdistance := h.distance (by omega) hy hx (by omega)
    unfold behindBy
    rw [hdistance, Bool.and_eq_left_iff_imp]
    simp only [decide_eq_true_eq]
    omega
  let k := t.window.length - 1 - lag - depth
  refine ⟨k, ?_, by omega, by omega⟩
  have hdropped : ∀ y ∈ t.window.take k, behindBy depth x.seq y = true := by
    intro y hy
    obtain ⟨i, hi, hget⟩ := List.mem_take_iff_getElem.1 hy
    have hget' : t.window[i]? = some y := by
      rw [← hget]
      exact List.getElem?_eq_getElem _
    rw [hplace i y (by omega) hget']
    exact decide_eq_true (by omega)
  have hstays : ¬ (behindBy depth x.seq t.window[k] = true) := by
    have hget : t.window[k]? = some t.window[k] := List.getElem?_eq_getElem (by omega)
    rw [hplace k _ (by omega) hget]
    simp only [decide_eq_true_eq]
    omega
  calc t.window.dropWhile (behindBy depth x.seq)
      = (t.window.take k ++ t.window.drop k).dropWhile (behindBy depth x.seq) := by rw [List.take_append_drop]
    _ = (t.window.drop k).dropWhile (behindBy depth x.seq) := List.dropWhile_append_of_pos hdropped
    _ = t.window.drop k := by
      rw [List.drop_eq_getElem_cons (by omega), List.dropWhile_cons_of_neg hstays]

end

end Sys2Proof.Machine

/-! SUPPORT. Captures, emissions and flushes on the trace window, and that every step keeps the window bounded. -/

namespace Sys2Proof.Machine

section
variable {p : Part}

/-! ## Emission and capture (R85, R87, R88) -/

/-- An emission moves the next emit sequence, and touches no more of the trace (R97). -/
theorem Part.emit_tru (p : Part) (e : TraceEntry) : (p.emit e).tru = { p.tru with nextEmit := some (e.seq + 1) } := by
  have hjudged : ∀ n r g, ((((p.bumpBy .parameterSaturations n).judge r).1.offerGr g)).tru = p.tru := fun n r g => by simp
  unfold Part.emit
  dsimp only
  rw [Part.bump_frame _ _ |>.2.2.2.2.2.2.1, Part.withTru_tru, hjudged]

/-- The window with at most L + 1 entries waiting, the emit entry among them if there is one, goes on with at most L (R87, R88). -/
theorem Part.emitNext_within {j : Nat} (h : p.tru.Waits p.oru.settings.depth j) (hj : j ≤ p.oru.settings.lag + 1)
    (hpos : 1 ≤ j) (hsmall : p.oru.settings.lag + p.oru.settings.depth < 1000) :
    p.emitNext.tru.Within p.oru.settings.lag p.oru.settings.depth := by
  have hroom := h.room
  have hkept := h.kept
  have hne : p.tru.window ≠ [] := List.ne_nil_of_length_pos (by omega)
  unfold Part.emitNext Part.emitEntry
  by_cases hlag : p.oru.settings.lag < p.tru.window.length
  · rw [if_pos hlag]
    have hin : p.tru.window.length - 1 - p.oru.settings.lag < p.tru.window.length := by omega
    obtain ⟨x, hx⟩ : ∃ x, p.tru.window[p.tru.window.length - 1 - p.oru.settings.lag]? = some x :=
      ⟨_, List.getElem?_eq_getElem hin⟩
    have hseq := h.consecutive.behind hlag hx
    rw [hx]
    dsimp only
    by_cases hlast : j = p.oru.settings.lag + 1
    · have hemit : p.tru.nextEmit = some x.seq := by rw [h.emit, hseq, hlast]
      obtain ⟨k, hdrop, hfar, hnear⟩ := h.consecutive.retained (depth := p.oru.settings.depth) hlag hx (by omega)
      have htru : ((p.emit x).retain x.seq).tru =
          { p.tru with window := p.tru.window.drop k, nextEmit := some (x.seq + 1) } := by
        have horu : (p.emit x).oru = p.oru := by simp
        rw [Part.retain, Part.withTru_tru, Part.emit_tru, horu, ← hdrop]
      have hnext : x.seq + 1 = p.tru.nextSeq - BitVec.ofNat 32 p.oru.settings.lag := by
        rw [hseq, ← sub_ofNat_succ p.tru.nextSeq p.oru.settings.lag]
        ring
      rw [if_pos hemit]
      dsimp only
      rw [htru]
      have hlength : (p.tru.window.drop k).length = p.tru.window.length - k := List.length_drop
      refine Tru.Waits.within (j := p.oru.settings.lag)
        ⟨h.consecutive.drop k _, congrArg some hnext, ?_, ?_⟩ le_rfl (List.ne_nil_of_length_pos ?_)
      · dsimp only
        omega
      · dsimp only
        omega
      · dsimp only
        omega
    · have hemit : p.tru.nextEmit ≠ some x.seq := by
        rw [h.emit, hseq]
        intro heq
        exact hlast (sub_ofNat_inj (by omega) (by omega) (Option.some.inj heq))
      rw [if_neg hemit]
      exact h.within (by omega) hne
  · rw [if_neg hlag]
    exact h.within (by omega) hne

/-- The lag and the retention depth that settings in range give (section 10.4). -/
theorem Settings.InRange.small {st : Settings} (h : st.InRange) : st.lag + st.depth < 1000 := by
  have hchord := h 19 0 (by decide)
  have halign := h 20 0 (by decide)
  have hshort := h 21 0 (by decide)
  have hlong := h 22 0 (by decide)
  simp only [settingInRange, Settings.value, between, Bool.and_eq_true, decide_eq_true_eq] at hchord halign hshort hlong
  unfold Settings.depth Settings.lag
  omega

theorem Part.capture_windowBounded (h : p.WindowBounded) (hsettings : p.oru.settings.InRange) (t : TickData) :
    (p.capture t).WindowBounded := by
  have hentry : (p.captureEntry t).tru = p.tru.append (p.entryOf t) := rfl
  have horu : (p.captureEntry t).oru = p.oru := by simp
  have horu' : (p.capture t).oru = p.oru := by simp
  obtain ⟨j, hpos, hj, hwaits⟩ := Tru.Within.append h (e := p.entryOf t) rfl
  rw [Part.windowBounded_iff, horu', ← horu]
  refine Part.emitNext_within (p := p.captureEntry t) (j := j) ?_ ?_ hpos ?_
  · rw [hentry, horu]
    exact hwaits
  · rw [horu]
    exact hj
  · rw [horu]
    exact hsettings.small

/-! ## The invariant through the operations -/

/-- The invariant of the statement: the window bounded, the part quiet outside a run, the settings in range. -/
structure Part.WindowSound (p : Part) : Prop where
  bounded : p.WindowBounded
  quiet : p.tracking.Quiet
  settings : p.oru.settings.InRange

theorem Part.windowSound_iff (p : Part) :
    p.WindowSound ↔ p.WindowBounded ∧ p.QuietOutsideRun ∧ p.SettingsInRange := by
  rw [← p.tracking_quiet_iff]
  exact ⟨fun ⟨hbounded, hquiet, hsettings⟩ => ⟨hbounded, hquiet, hsettings⟩,
    fun ⟨hbounded, hquiet, hsettings⟩ => ⟨hbounded, hquiet, hsettings⟩⟩

theorem Part.WindowBounded.of_eq {q : Part} (h : p.WindowBounded) (htru : q.tru = p.tru)
    (hsettings : q.oru.settings = p.oru.settings) : q.WindowBounded := by
  rw [Part.windowBounded_iff, htru, hsettings]
  exact h

/-- The trace and the settings left, the part still quiet. -/
theorem Part.WindowSound.calmer {q : Part} (h : p.WindowSound) (hcalm : p.tracking.Calmer q.tracking)
    (htru : q.tru = p.tru) (hsettings : q.oru.settings = p.oru.settings) : q.WindowSound :=
  ⟨h.bounded.of_eq htru hsettings, h.quiet.calmer hcalm, hsettings ▸ h.settings⟩

/-- The tracking, the trace and the settings left. -/
theorem Part.WindowSound.of_eq {q : Part} (h : p.WindowSound) (htracking : q.tracking = p.tracking)
    (htru : q.tru = p.tru) (hsettings : q.oru.settings = p.oru.settings) : q.WindowSound :=
  h.calmer (Part.calmer_of_tracking_eq htracking) htru hsettings

/-- The window emptied. -/
theorem Part.WindowSound.emptied {q : Part} (h : p.WindowSound) (hquiet : q.tracking.Quiet) (hwindow : q.tru.window = [])
    (hnext : q.tru.nextEmit = none) (hsettings : q.oru.settings = p.oru.settings) : q.WindowSound := by
  refine ⟨?_, hquiet, hsettings ▸ h.settings⟩
  exact ⟨fun i e he => by simp [hwindow] at he, fun _ => hnext, fun hne => absurd hwindow hne⟩

/-! ### Ticks -/

theorem Part.runTick_halted (h : p.rnc.runState = .halted) (t : Time) : p.runTick t = p := by
  unfold Part.runTick
  rw [h]

/-- A tick out of HALTED leaves the run MEASURING (R154, R155, R159). -/
theorem Part.runTick_measuring (h : p.rnc.runState ≠ .halted) (t : Time) : (p.runTick t).rnc.runState = .measuring := by
  unfold Part.runTick
  split
  · rename_i hs
    exact absurd hs h
  · rfl
  · rename_i hs
    exact hs
  · simp [Part.startParkTimer, Part.setRunState]

theorem Part.deliverTick_windowSound (h : p.WindowSound) (t : TickData) : (p.deliverTick t).WindowSound := by
  have htru : (((p.bump .ticks).runTick t.time).tickAdvance).tru = p.tru := by simp
  have hsettings : (((p.bump .ticks).runTick t.time).tickAdvance).oru.settings = p.oru.settings := by simp
  have hrnc : (((p.bump .ticks).runTick t.time).tickAdvance).rnc = ((p.bump .ticks).runTick t.time).rnc := by simp
  have hbounded := h.bounded.of_eq htru hsettings
  unfold Part.deliverTick
  dsimp only
  split
  · rename_i hrun
    have hcapture : (Part.capture (((p.bump .ticks).runTick t.time).tickAdvance) t).rnc.runState = .measuring := by
      simpa using hrun
    refine ⟨Part.capture_windowBounded hbounded (hsettings ▸ h.settings) t, .of_recording ?_, ?_⟩
    · rw [Part.tracking_recording, hcapture]
      rfl
    · simpa using hsettings ▸ h.settings
  · rename_i hrun
    have hhalted : (p.bump .ticks).rnc.runState = .halted := by
      by_contra hne
      exact hrun (by rw [hrnc, Part.runTick_measuring hne])
    rw [Part.runTick_halted hhalted]
    exact h.of_eq (by simp) (by simp) (by simp)

theorem Part.tickOnce_windowSound (h : p.WindowSound) (found : Bool) : (p.tickOnce found).WindowSound :=
  Part.deliverTick_windowSound (h.of_eq (by simp) (by simp) (by simp)) _

theorem Part.nextBoundary_windowSound (h : p.WindowSound) : p.nextBoundary.WindowSound := h.of_eq rfl rfl rfl

theorem Part.switchTicks_windowSound (h : p.WindowSound) (found : Bool) (n : Nat) : (p.switchTicks found n).WindowSound := by
  induction n generalizing p with
  | zero => exact h
  | succ n ih =>
    unfold Part.switchTicks
    split
    · exact ih (Part.tickOnce_windowSound (Part.nextBoundary_windowSound h) found)
    · exact h

theorem Part.comparison_windowSound (h : p.WindowSound) : p.comparison.1.WindowSound :=
  h.of_eq p.comparison_tracking (by simp) (by simp)

theorem Part.tickEvent_windowSound (h : p.WindowSound) : p.tickEvent.WindowSound := by
  unfold Part.tickEvent
  split
  · have hcompared := Part.comparison_windowSound (Part.nextBoundary_windowSound h)
    exact Part.switchTicks_windowSound (Part.tickOnce_windowSound hcompared _) _ _
  · exact h

theorem Part.watchEvent_windowSound (h : p.WindowSound) : p.watchEvent.WindowSound := by
  have hcompared := Part.comparison_windowSound h
  unfold Part.watchEvent
  split
  · have hcarried : (p.comparison.1.carrySlip p.comparison.2).WindowSound := hcompared.of_eq rfl rfl rfl
    exact Part.switchTicks_windowSound hcarried _ _
  · exact h

/-! ### Runs, reversals and settings -/

theorem Part.reversalEvent_windowSound (h : p.WindowSound) : p.reversalEvent.WindowSound := by
  have hquiet := Part.reversalEvent_quiet h.quiet
  have hflush : ∀ q : Part, q.reversalFlush.tru = q.tru ∨
      (q.reversalFlush.tru.window = [] ∧ q.reversalFlush.tru.nextEmit = none) := fun q => by
    unfold Part.reversalFlush
    split
    · exact .inr ⟨rfl, rfl⟩
    · exact .inr ⟨rfl, rfl⟩
    · exact .inl rfl
  have hlost : ∀ q : Part, q.loseLists.tru = q.tru := fun _ => rfl
  have hsettings : p.reversalEvent.oru.settings = p.oru.settings := congrArg Prod.snd p.reversalEvent_tables
  by_cases hdue : p.odu.reversalDue = true
  · have htru : p.reversalEvent.tru = ((((p.withOdu (p.odu.reversed p.time p.oru.settings.recordSpacing)).bump
        .reversals).raise .reversal).loseLists.reversalFlush).tru := by
      rw [Part.reversalEvent, if_pos hdue, Part.reverse]
      simp
    obtain hsame | ⟨hwindow, hnext⟩ := hflush ((((p.withOdu (p.odu.reversed p.time
        p.oru.settings.recordSpacing)).bump .reversals).raise .reversal).loseLists)
    · refine ⟨h.bounded.of_eq ?_ hsettings, hquiet, hsettings ▸ h.settings⟩
      rw [htru, hsame, hlost]
      simp
    · rw [← htru] at hwindow hnext
      exact h.emptied hquiet hwindow hnext hsettings
  · have hsame : p.reversalEvent = p := if_neg hdue
    rwa [hsame]

theorem Part.endRun_windowSound (h : p.WindowSound) : p.endRun.WindowSound := by
  have hquiet := Part.endRun_quiet h.quiet
  by_cases hhalted : p.rnc.runState = .halted
  · have hsame : p.endRun = p := if_pos hhalted
    rwa [hsame]
  · have htru : p.endRun.tru = p.flush.tru := by
      rw [Part.endRun, if_neg hhalted]
      simp
    refine h.emptied hquiet ?_ ?_ (by simp)
    · rw [htru]
      rfl
    · rw [htru]
      rfl

/-- START RUN comes in HALTED, with the trace window empty (R151, R153). -/
theorem Part.beginRun_windowSound (h : p.WindowSound) (n : BitVec 16) (hhalted : p.rnc.runState = .halted) :
    (p.beginRun n).WindowSound := by
  have htracking := Part.beginRun_tracking n hhalted
  have hrecording : p.tracking.recording = false := by rw [Part.tracking_recording, hhalted]; rfl
  obtain ⟨hwindow, hnext, -⟩ := h.quiet.untraced hrecording
  exact h.emptied (htracking ▸ h.quiet) hwindow hnext rfl

theorem Part.settingEffect_settings (p : Part) (n a : Nat) : (p.settingEffect n a).oru.settings = p.oru.settings :=
  congrArg Prod.snd (p.settingEffect_tables n a)

/-- Only the chords and the twist bases move the lag and the retention depth, and these are written in HALTED alone (section 10.4). -/
theorem Settings.write_lag_depth (s : Settings) {n : Nat} (a v : Nat) (h : haltedOnlySetting n = false) :
    (s.write n a v).lag = s.lag ∧ (s.write n a v).depth = s.depth := by
  unfold Settings.write
  split <;> simp_all [haltedOnlySetting, Settings.lag, Settings.depth]

theorem Part.setting_windowSound (h : p.WindowSound) {n a v : Nat} (haccepted : p.setRefusal n a v = none) :
    ((p.withSettings (p.oru.settings.write n a v)).settingEffect n a).WindowSound := by
  obtain ⟨hnamed, hrange, hhalted⟩ := Part.checked_of_setRefusal haccepted
  have hsettings : ((p.withSettings (p.oru.settings.write n a v)).settingEffect n a).oru.settings =
      p.oru.settings.write n a v := Part.settingEffect_settings _ n a
  have htru : ((p.withSettings (p.oru.settings.write n a v)).settingEffect n a).tru = p.tru := by simp
  have htracking : ((p.withSettings (p.oru.settings.write n a v)).settingEffect n a).tracking = p.tracking := by
    simp [Part.tracking]
  refine ⟨?_, htracking ▸ h.quiet, by rw [hsettings]; exact h.settings.write hnamed hrange⟩
  rw [Part.windowBounded_iff, htru, hsettings]
  by_cases honly : haltedOnlySetting n = true
  · have hrecording : p.tracking.recording = false := by rw [Part.tracking_recording, hhalted honly]; rfl
    obtain ⟨hwindow, hnext, -⟩ := h.quiet.untraced hrecording
    exact ⟨h.bounded.1, fun _ => hnext, fun hne => absurd hwindow hne⟩
  · obtain ⟨hlag, hdepth⟩ := p.oru.settings.write_lag_depth (n := n) a v (Bool.eq_false_iff.2 honly)
    rw [hlag, hdepth]
    exact h.bounded

theorem Part.setPositionTo_windowSound (h : p.WindowSound) (route : Int) (dir : Direction) :
    (p.setPositionTo route dir).WindowSound := by
  have hset : (p.positionSet route dir).tracking = p.tracking := rfl
  have hmoved : (p.positionMoved route dir).tracking = p.tracking := by simp [Part.positionMoved, hset]
  have hsettings : (p.setPositionTo route dir).oru.settings = p.oru.settings := by simp
  refine h.calmer ?_ (by simp) hsettings
  rw [Part.setPositionTo_eq]
  split
  · exact Part.calmer_of_tracking_eq hmoved
  · exact (Part.calmer_of_tracking_eq hmoved).trans (Part.cut_calmer _ _)

theorem Part.parkEvent_windowSound (h : p.WindowSound) : p.parkEvent.WindowSound := by
  refine ⟨h.bounded.of_eq (by simp) (by simp), ?_, by simpa using h.settings⟩
  unfold Part.parkEvent
  split
  · have hrun : p.enterParked.rnc.runState = .parked := by
      unfold Part.enterParked
      simp [Part.setRunState]
    exact .of_recording (by rw [Part.tracking_recording, hrun]; rfl)
  · exact h.quiet

end

/-- A reset leaves the window bounded. -/
theorem reset_windowBounded : Part.reset.WindowBounded := Tru.within_empty 0 none

theorem reset_quiet : (Ext.reset.tracking [] .halted Tru.reset).Quiet :=
  ⟨reset_consistent.untraced, reset_consistent.noneActive, reset_consistent.noneLatched⟩

/-- Every effect keeps the window sound. -/
theorem keptByEffects_windowSound : KeptByEffects Part.WindowSound where
  taken := fun h => h.of_eq rfl rfl rfl
  bumped := fun _ h => h.of_eq rfl rfl rfl
  replied := fun _ h => h.of_eq rfl rfl rfl
  hardReset := fun _ _ => ⟨reset_windowBounded, reset_quiet, Settings.default_inRange⟩
  moveOwed := fun h => h.calmer (Part.moveOwedList_calmer _ _) (by simp) (by simp)
  elapse := fun h => h.of_eq rfl rfl rfl
  headChar := fun c h => h.of_eq (by simp) (by simp) (congrArg Prod.snd (Part.headChar_tables _ c))
  headLoss := fun h => h.of_eq (by simp) (by simp) (by simp)
  lockEvent := fun h => h.of_eq (by simp) (by simp) (by simp)
  watchdogEvent := fun g h => h.of_eq (Part.watchdogEvent_tracking _ g) (by simp) (by simp)
  freshnessEvent := fun _ h => h.of_eq (by simp [Part.tracking]) (by simp) (by simp)
  relaySentEvent := fun h => h.of_eq (by simp [Part.tracking]) (by simp) (by simp)
  relayTimeoutEvent := fun h =>
    h.of_eq (Part.relayTimeoutEvent_tracking _) (by simp) (congrArg Prod.snd (Part.relayTimeoutEvent_tables _))
  setPhases := fun _ _ _ h => h.of_eq rfl rfl rfl
  phaseChange := fun _ _ _ h => h.of_eq (by simp) (by simp) (by simp)
  tickEvent := Part.tickEvent_windowSound
  watchEvent := Part.watchEvent_windowSound
  reversalEvent := Part.reversalEvent_windowSound
  closeEvent := fun n h => ⟨h.bounded.of_eq (by simp) (by simp), Part.closeEvent_quiet h.quiet n, by simpa using h.settings⟩
  gapEvent := fun n h => ⟨h.bounded.of_eq (by simp) (by simp), Part.gapEvent_quiet h.quiet n, by simpa using h.settings⟩
  historyEvent := fun h => h.of_eq (by simp [Part.tracking]) (by simp) (by simp)
  validityTest := fun h => h.of_eq (by simp [Part.tracking]) (by simp) (by simp)
  parkEvent := Part.parkEvent_windowSound
  recorderChar := fun c h => h.of_eq (by simp) (by simp) (by simp)
  recorderLoss := fun h => h.of_eq (Part.recorderLoss_tracking _) (by simp) (by simp)
  linkUpEvent := fun h => h.of_eq (by simp) (by simp) (by simp)
  arbiterEvent := fun h => h.of_eq (Part.arbiterEvent_tracking _) (by simp) (by simp)
  leavingEvent := fun h => h.calmer (Part.leavingEvent_calmer _) (by simp) (by simp)
  setting := fun _ _ _ haccepted h => Part.setting_windowSound h haccepted
  beginRun := fun n hhalted h => Part.beginRun_windowSound h n hhalted
  endRun := Part.endRun_windowSound
  setPositionTo := fun _ d h => Part.setPositionTo_windowSound h _ d
  appendRouteList := fun _ h => h.of_eq (by simp [Part.tracking]) (by simp) (by simp)
  appendSectionList := fun _ h => h.of_eq (by simp [Part.tracking]) (by simp) (by simp)
  emptyRoute := fun h => h.of_eq rfl rfl rfl
  emptySections := fun h => h.of_eq rfl rfl rfl
  limitsWritten := fun _ _ h => h.of_eq rfl rfl rfl
  mapWritten := fun _ h => h.of_eq rfl rfl rfl
  clearCounters := fun _ h => h.of_eq rfl rfl rfl
  clearEvents := fun _ h => h.of_eq rfl rfl rfl
  writeMasks := fun _ h => h.of_eq rfl rfl rfl
  restoreHead := fun _ _ h => h.of_eq (by simp) (by simp) (by simp)
  relayOrder := fun _ _ h => h.of_eq rfl rfl rfl
  restarted := fun h => h.emptied reset_quiet rfl rfl rfl

/-- Settles O60: every effect of a command keeps the window bounded; with it go the quiet outside a run, where the lag and the depth may change, and the ranges of the settings, which bound both. -/
theorem windowStaysBounded : Obligations.WindowStaysBounded := by
  intro s t h hstep
  exact (Part.windowSound_iff _).1 (keptByEffects_windowSound.stepKeeps s t ((Part.windowSound_iff _).2 h) hstep)

end Sys2Proof.Machine

/-! SUPPORT. What a hard reset leaves, in values and against the invariants. -/

namespace Sys2Proof.Machine

/-- Settles O54: the reset state meets each invariant, the families of invariants one by one. -/
theorem resetSatisfiesInvariants : Obligations.ResetSatisfiesInvariants := by
  obtain ⟨hqueues, hidle⟩ := Part.reset.traffic_bounded_iff.1 reset_bounded
  obtain ⟨hodometer, hfaults⟩ := Part.reset.oduSound_iff.1 (Odu.sound_fresh (x := Channel.reset) (y := Channel.reset) ⟨rfl, rfl⟩ rfl rfl)
  obtain ⟨hplaced, hfix⟩ := Part.reset.positionSound_iff.1 (Pfu.reset_sound _)
  obtain ⟨hroute, hsections, hmarks⟩ := Part.reset.lookAhead_ordered_iff.1 (LookAhead.ordered_empty _ _ _)
  obtain ⟨hone, hquiet, hpending, howed⟩ := Part.reset.tracking_consistent_iff.1 reset_consistent
  exact ⟨hqueues, hidle, Hlu.reset_legal, hplaced, hodometer, hfaults, hfix, hroute, hsections, hmarks, limitRow_reset_valid,
    Settings.default_inRange, hquiet, hone, hpending, howed, reset_windowBounded, Evu.reset_bounded⟩

/-! ## The tables of a reset, entry by entry -/

theorem Hlu.reset_head (h : Head) : Hlu.reset.heads[h] = HeadRecord.reset := Vector.getElem_replicate _

theorem Shu.reset_freshness (h : Head) : Shu.reset.freshness[h] = none := Vector.getElem_replicate _

theorem Shu.reset_map (i : Fin 7) : Shu.reset.map[i] = none := Vector.getElem_replicate _

theorem Lmu.reset_limit (a : Fin 64) : Lmu.reset.limits[a] = LimitRow.reset := Vector.getElem_replicate _

theorem Ext.reset_slot (n : SlotNo) : Ext.reset.slots[n] = Slot.reset := Vector.getElem_replicate _

theorem Ext.reset_latch (k : Pair) : Ext.reset.latches[k] = Latch.reset := Vector.getElem_replicate _

theorem Evu.reset_counter (i : Fin 109) : Evu.reset.counters[i] = 0 := Vector.getElem_replicate _

theorem Odu.reset_channel (c : Encoder) : Odu.reset.channel c = Channel.reset := by cases c <;> rfl

/-- Settles O6: the reset state is made of these values, each table of one value throughout. -/
theorem resetValues : Obligations.ResetValues := by
  unfold Obligations.ResetValues
  dsimp only
  refine ⟨rfl, rfl, rfl, ⟨rfl, rfl, rfl, rfl, rfl, fun h => ?_⟩, Shu.reset_map,
    ⟨rfl, rfl, rfl, rfl, rfl, rfl, rfl, rfl, rfl, rfl, rfl, fun c => ?_⟩, ⟨rfl, rfl, rfl, rfl, rfl, rfl, rfl, rfl⟩,
    ⟨rfl, rfl, rfl, rfl⟩, ⟨rfl, rfl, Lmu.reset_limit⟩, ⟨Ext.reset_slot, Ext.reset_latch, rfl, rfl, rfl⟩, ⟨rfl, rfl, rfl⟩,
    ⟨rfl, rfl, rfl, rfl, rfl, rfl, rfl, rfl, rfl, rfl, rfl, rfl, rfl⟩, ⟨rfl, rfl, rfl⟩,
    rfl, rfl, Evu.reset_counter, by decide⟩
  · rw [show State.reset.part.hlu.heads[h] = HeadRecord.reset from Hlu.reset_head h]
    exact ⟨rfl, rfl, rfl, rfl, rfl, rfl, rfl, rfl, rfl, rfl, rfl, rfl, Shu.reset_freshness h⟩
  · rw [show State.reset.part.odu.channel c = Channel.reset from Odu.reset_channel c]
    exact ⟨rfl, rfl, rfl⟩

end Sys2Proof.Machine

/-! SUPPORT. Counters by name, and what a command reports: the counters it moves, the events it raises and the notices that join. -/

namespace Sys2Proof.Machine

/-! ## Counters by name (R194) -/

/-- The counters of a head in the order of their places. -/
def headCounter (h : Head) : Fin 6 → Counter
  | 0 => .validFrames h
  | 1 => .lostFrames h
  | 2 => .crcFailures h
  | 3 => .shapeMismatches h
  | 4 => .watchdogExpiries h
  | 5 => .exclusions h

/-- The counters that are not per head, in the order of their places. -/
def unitCounters : List Counter :=
  [.headCodeViolations, .framingErrors, .uncorrectableHeaders, .correctedHeaders, .foreignAddress, .lockLosses,
    .strayMarkers, .withheldMarkers, .wrongTagReplies, .lateReplies, .relayTimeouts, .quadratureE1, .quadratureE2,
    .routeSaturations, .ticks, .reversals, .slips, .channelSwitches, .faultsE1, .faultsE2, .speedSaturations, .fixes,
    .largeCorrections, .unknownMarkers, .missedMarkers, .unsetMarkers, .skippedMarkers, .sectionsRetired,
    .sectionStarvations, .captures, .emissions, .flushes, .parameterSaturations, .opened, .slotOverflows,
    .shortDiscards, .reportsPlaced, .pendings, .cuts, .urgentSent, .urgentOwed, .owedReplacements, .runsStarted,
    .parks, .runsStopped, .recorderCodeViolations, .checkFailures, .unknownKinds, .creditExcess, .linkDowns,
    .framesCut, .framesStarted, .grDrops, .mirrorDrops, .malformedOrders, .orderOverruns, .ordersTaken, .badLengths,
    .unknownOrders, .statusSent, .noticesLost]

/-- The counters in the order of their places. -/
def countersInOrder : List Counter :=
  unitCounters ++ (List.finRange 8).flatMap fun h => (List.finRange 6).map (headCounter h)

/-- Each counter stands at its place in the order. -/
theorem countersInOrder_index (c : Counter) : countersInOrder[c.index.val]? = some c := by
  have hhead : ∀ (h : Head) (n : Fin 6), countersInOrder[(headCounterIndex h n).val]? = some (headCounter h n) := by decide
  cases c with
  | validFrames h => exact hhead h 0
  | lostFrames h => exact hhead h 1
  | crcFailures h => exact hhead h 2
  | shapeMismatches h => exact hhead h 3
  | watchdogExpiries h => exact hhead h 4
  | exclusions h => exact hhead h 5
  | _ => rfl

theorem Counter.index_inj {c d : Counter} : c.index = d.index ↔ c = d := by
  refine ⟨fun h => ?_, congrArg _⟩
  have hplace := countersInOrder_index c
  rw [h, countersInOrder_index d] at hplace
  exact (Option.some.inj hplace).symm

theorem Part.counter_bumpBy (p : Part) (c d : Counter) (n : Nat) :
    (p.bumpBy c n).counter d = if c = d then counterUp n (p.counter d) else p.counter d := by
  rw [Part.counter, Part.bumpBy_counters]
  exact if_congr Counter.index_inj rfl rfl

theorem Part.counter_bump (p : Part) (c d : Counter) :
    (p.bump c).counter d = if c = d then counterUp 1 (p.counter d) else p.counter d := p.counter_bumpBy c d 1

/-- A raised event moves no counter but those of the notices (R191). -/
theorem Part.counter_raise (p : Part) (e : Event) {c : Counter} (hsent : c ≠ .statusSent) (hlost : c ≠ .noticesLost) :
    (p.raise e).counter c = p.counter c :=
  p.raise_counters e c.index (mt Counter.index_inj.1 hsent) (mt Counter.index_inj.1 hlost)

/-! ## Reports -/

/-- What the part `q` reports beyond the part `p`: the counters `cs` with those of the notices moved at most, just the events `es` raised, notices alone joined. -/
structure Part.Reported (p q : Part) (cs : List Counter) (es : List Event) : Prop where
  rlu : q.rlu = { p.rlu with control := q.rlu.control }
  joined : p.NoticesJoined q
  counters : p.CountersKeptBut q (cs ++ [.statusSent, .noticesLost])
  raised : p.Raised q es

section
variable {p q r : Part} {cs : List Counter} {es fs : List Event}

theorem Part.NoticesJoined.refl (p : Part) : p.NoticesJoined p := ⟨[], (List.append_nil _).symm, by simp⟩

theorem Part.NoticesJoined.trans (h : p.NoticesJoined q) (k : q.NoticesJoined r) : p.NoticesJoined r := by
  obtain ⟨l, hl, hstatus⟩ := h
  obtain ⟨m, hm, hstatus'⟩ := k
  refine ⟨l ++ m, by rw [hm, hl, List.append_assoc], fun f hf => ?_⟩
  exact (List.mem_append.1 hf).elim (hstatus f) (hstatus' f)

theorem Part.Reported.refl (p : Part) (cs : List Counter) : p.Reported p cs [] where
  rlu := rfl
  joined := .refl p
  counters := fun _ _ => rfl
  raised := ⟨rfl, fun e _ => by simp⟩

/-- What another block's change leaves of the reports: all of them. -/
theorem Part.Reported.of_eq (h : p.Reported q cs es) (hrlu : r.rlu = q.rlu) (hevu : r.evu = q.evu) :
    p.Reported r cs es := by
  obtain ⟨l, hl, hstatus⟩ := h.joined
  refine ⟨hrlu ▸ h.rlu, ⟨l, (congrArg Rlu.control hrlu).trans hl, hstatus⟩, fun i hi => ?_, ?_, fun e he => ?_⟩
  · rw [hevu]; exact h.counters i hi
  · rw [hevu]; exact h.raised.1
  · rw [← h.raised.2 e he, Part.flagSet, Part.flagSet, hevu]

theorem Part.Reported.trans (h : p.Reported q cs es) (k : q.Reported r cs fs) : p.Reported r cs (es ++ fs) := by
  obtain ⟨hmask, hflags⟩ := h.raised
  obtain ⟨kmask, kflags⟩ := k.raised
  refine ⟨k.rlu.trans (by rw [h.rlu]), h.joined.trans k.joined, fun i hi => (k.counters i hi).trans (h.counters i hi), kmask.trans hmask, fun e he => ?_⟩
  rw [kflags e he, hflags e he, List.mem_append, or_assoc]

theorem Part.reported_bumpBy (p : Part) {c : Counter} (hc : c ∈ cs) (n : Nat) : p.Reported (p.bumpBy c n) cs [] where
  rlu := rfl
  joined := .refl p
  counters := fun i hi => by rw [Part.bumpBy_counters, if_neg (hi c (List.mem_append_left _ hc))]
  raised := ⟨rfl, fun e _ => by simp [Part.flagSet, Part.bumpBy]⟩

theorem Part.reported_raise (p : Part) (e : Event) (cs : List Counter) : p.Reported (p.raise e) cs [e] where
  rlu := p.raise_rlu_control e
  joined := p.raise_noticesJoined e
  counters := fun i hi => p.raise_counters e i (hi .statusSent (by simp)).symm (hi .noticesLost (by simp)).symm
  raised := ⟨p.raise_mask e, fun f hf => by rw [Part.raise_flagSet_iff p hf, List.mem_singleton]⟩

theorem Part.Reported.bumpBy (h : p.Reported q cs es) {c : Counter} (hc : c ∈ cs) (n : Nat) :
    p.Reported (q.bumpBy c n) cs es := by
  simpa using h.trans (q.reported_bumpBy hc n)

theorem Part.Reported.bump (h : p.Reported q cs es) {c : Counter} (hc : c ∈ cs) : p.Reported (q.bump c) cs es :=
  h.bumpBy hc 1

theorem Part.Reported.raise (h : p.Reported q cs es) (e : Event) : p.Reported (q.raise e) cs (es ++ [e]) :=
  h.trans (q.reported_raise e cs)

/-- A counter that is not named stands. -/
theorem Part.Reported.counter (h : p.Reported q cs es) {c : Counter} (hc : c ∉ cs ++ [.statusSent, .noticesLost]) :
    q.counter c = p.counter c :=
  h.counters c.index fun _ hd hindex => hc (Counter.index_inj.1 hindex ▸ hd)

/-- More counters allowed to move. -/
theorem Part.Reported.mono (h : p.Reported q cs es) {ds : List Counter} (hcs : cs ⊆ ds) : p.Reported q ds es :=
  ⟨h.rlu, h.joined, fun i hi => h.counters i fun c hc => hi c <| by
    obtain hc | hc := List.mem_append.1 hc
    · exact List.mem_append_left _ (hcs hc)
    · exact List.mem_append_right _ hc, h.raised⟩

/-- The same events in another order. -/
theorem Part.Reported.congr (h : p.Reported q cs es) (he : ∀ e, e ∈ es ↔ e ∈ fs) : p.Reported q cs fs :=
  ⟨h.rlu, h.joined, h.counters, h.raised.1, fun e hne => by rw [h.raised.2 e hne, he]⟩

end

/-! ### Events raised more than once, and events raised where something changes -/

/-- An event raised some times is raised, or it is not. -/
theorem Part.raiseTimes_eq (p : Part) (e : Event) (n : Nat) : p.raiseTimes e n = if n = 0 then p else p.raise e := by
  induction n generalizing p with
  | zero => rfl
  | succ n ih =>
    rw [Part.raiseTimes, ih, Part.raise_of_flagSet _ e (p.raise_flagSet e), ite_self]
    rfl

end Sys2Proof.Machine

/-! SUPPORT. The head link's hunt, its loss and its framing errors. -/

namespace Sys2Proof.Machine

section
variable {p : Part} {c : LineChar}

/-! ## Hunt and lock (R1, R3) -/

theorem exec_headLinkCharacter {s : State} (line : BitVec 10) (h : s.part.resetHeld = false) :
    exec (.headLinkCharacter line) s = nextWith s (s.part.headChar (lineCharOf line)) :=
  live_nextWith s (fun p => p.headChar (lineCharOf line)) h

theorem Part.lockDue_iff (p : Part) : p.lockDue = true ↔ p.hlu.locked = false ∧ 32 ≤ p.hlu.idleRun := by
  simp [Part.lockDue]

theorem Part.lockEvent_of_due (hopen : p.hlu.locked = false) (hrun : 32 ≤ p.hlu.idleRun) :
    p.lockEvent = { p with hlu := { p.hlu with locked := true, idleRun := 0 } } :=
  if_pos ((p.lockDue_iff).2 ⟨hopen, hrun⟩)

theorem Part.lockEvent_of_not_due (h : p.hlu.locked = true ∨ p.hlu.idleRun < 32) : p.lockEvent = p :=
  if_neg fun hdue => by
    obtain ⟨hopen, hrun⟩ := p.lockDue_iff.1 hdue
    exact h.elim (fun hlocked => Bool.false_ne_true (hopen.symm.trans hlocked)) (fun hlt => by omega)

/-- A character that is due a lock finds the link LOCKED (log 3). -/
theorem Part.headChar_of_due (hopen : p.hlu.locked = false) (hrun : 32 ≤ p.hlu.idleRun) (c : LineChar) :
    p.headChar c = Part.headChar { p with hlu := { p.hlu with locked := true, idleRun := 0 } } c := by
  unfold Part.headChar
  rw [Part.lockEvent_of_due hopen hrun, Part.lockEvent_locked _ rfl]

/-- A character while the link hunts (R3). -/
theorem Part.headChar_hunting (hopen : p.hlu.locked = false) (hrun : p.hlu.idleRun < 32) (c : LineChar) :
    p.headChar c =
      (let q : Part := { p with hlu := { p.hlu with idleRun := if c = .idle then p.hlu.idleRun + 1 else 0 } }
      if c = .violation then q.bump .headCodeViolations else q) := by
  have hmin : min (p.hlu.idleRun + 1) 32 = p.hlu.idleRun + 1 := by omega
  have hcounted : (p.countViolation c).hlu = p.hlu := by cases c <;> rfl
  unfold Part.headChar Part.charTaken
  rw [Part.lockEvent_of_not_due (.inr hrun), if_neg (by rw [hcounted, hopen]; exact Bool.false_ne_true)]
  cases c with
  | idle => exact congrArg (fun n => p.withHlu { p.hlu with idleRun := n }) hmin
  | violation => rfl
  | frameStart => rfl
  | frameEnd => rfl
  | data b => rfl

/-- An IDLE character of a LOCKED link outside a frame ends a run of stray characters, and is nothing else (R5). -/
theorem Part.headChar_idle_outside (hlocked : p.hlu.locked = true) (hrx : p.hlu.rx = .outside ∨ p.hlu.rx = .stray) :
    p.headChar .idle = p.setRx .outside := by
  rw [Part.headChar_locked p .idle hlocked (by decide), Part.charTaken, if_pos hlocked]
  obtain hrx | hrx := hrx <;> rw [hrx] <;> rfl

/-- Settles O7, one law of the receiver per clause. -/
theorem huntAndLock : Obligations.HuntAndLock := by
  intro s hreset
  refine ⟨fun line hopen hrun => ?_, fun hopen hrun => ?_, fun hnot => ?_, fun line hopen hrun => ?_,
    fun line hlocked hrx hidle => ?_⟩
  · rw [exec_headLinkCharacter line hreset, Part.headChar_hunting hopen hrun]
  · exact (live_nextWith s _ hreset).trans (congrArg (nextWith s) (Part.lockEvent_of_due hopen hrun))
  · exact (live_nextWith s _ hreset).trans (congrArg (nextWith s) (Part.lockEvent_of_not_due hnot))
  · rw [exec_headLinkCharacter line hreset, Part.headChar_of_due hopen hrun]
    exact (exec_headLinkCharacter (s := { s with part := { s.part with hlu := { s.part.hlu with
      locked := true, idleRun := 0 } } }) line hreset).symm
  · rw [exec_headLinkCharacter line hreset, hidle, Part.headChar_idle_outside hlocked hrx]
    rfl

/-- A part of which the link, the Recorder Link Unit and the Event Unit alone have moved. -/
theorem Part.eq_of_head_frame {p q : Part} (h : q.time = p.time ∧ q.resetHeld = p.resetHeld ∧ q.shu = p.shu ∧ q.odu = p.odu ∧
    q.pfu = p.pfu ∧ q.tru = p.tru ∧ q.lmu = p.lmu ∧ q.ext = p.ext ∧ q.rnc = p.rnc ∧ q.oru = p.oru) :
    q = { p with hlu := q.hlu, rlu := q.rlu, evu := q.evu } := by
  obtain ⟨htime, hheld, hshu, hodu, hpfu, htru, hlmu, hext, hrnc, horu⟩ := h
  rw [← htime, ← hheld, ← hshu, ← hodu, ← hpfu, ← htru, ← hlmu, ← hext, ← hrnc, ← horu]

/-- Two such changes one after the other. -/
theorem Part.head_trans {p q r : Part} (h : q = { p with hlu := q.hlu, rlu := q.rlu, evu := q.evu })
    (k : r = { q with hlu := r.hlu, rlu := r.rlu, evu := r.evu }) :
    r = { p with hlu := r.hlu, rlu := r.rlu, evu := r.evu } := k.trans (by rw [h])

/-! ## Becoming UNLOCKED (R2, R3) -/

/-- A head record at the loss of lock, state by state. -/
theorem HeadRecord.unlocked_eq (r : HeadRecord) : r.unlocked = match r.state with
    | .absent => r
    | .acquiring => { r with goodRun := 0 }
    | .excluded => { r with goodRun := 0 }
    | .qualified => { r with goodRun := 0, state := .acquiring }
    | .suspect => { r with goodRun := 0, state := .acquiring } := by
  obtain ⟨state, _⟩ := r
  cases state <;> rfl

theorem provenCount_eq_zero_iff (heads : Vector HeadRecord 8) :
    heads.toList.countP (fun r => r.state.proven) = 0 ↔ ¬ ∃ h : Head, (heads[h]).state.proven = true := by
  have hany := vector_any heads (fun r => r.state.proven)
  rw [List.countP_eq_zero, ← List.any_eq_false, hany]
  simp

theorem Part.unlock_hlu (p : Part) : p.unlock.hlu = { p.hlu with
    locked := false, linkErrors := 0, idleRun := 0, rx := .outside, heads := p.hlu.heads.map HeadRecord.unlocked } := by
  unfold Part.unlock
  simp

theorem Part.unlock_head (p : Part) (h : Head) : p.unlock.hlu.heads[h] = (p.hlu.heads[h]).unlocked := by
  rw [p.unlock_hlu]
  exact Vector.getElem_map _ _

/-- The events of a link that becomes UNLOCKED (R3). -/
def Part.unlockEvents (p : Part) : List Event :=
  if ∃ h : Head, (p.hlu.heads[h]).state.proven = true then [.headChange, .headLinkLost] else [.headLinkLost]

theorem Part.unlock_reported (p : Part) : p.Reported p.unlock [.lockLosses] p.unlockEvents := by
  have hproven := provenCount_eq_zero_iff p.hlu.heads
  have hopened : ∀ hlu : Hlu, p.Reported (p.withHlu hlu) [.lockLosses] [] := fun hlu => (Part.Reported.refl p _).of_eq rfl rfl
  unfold Part.unlock Part.unlockEvents
  dsimp only
  rw [Part.raiseTimes_eq]
  split
  · rename_i hzero
    rw [if_neg (hproven.1 hzero)]
    exact ((hopened _).bump (List.mem_singleton_self _)).raise _
  · rename_i hsome
    rw [if_pos (by_contra fun h => hsome (hproven.2 h))]
    exact (((hopened _).raise _).bump (List.mem_singleton_self _)).raise _

theorem Part.unlock_counter (p : Part) {c : Counter} (hsent : c ≠ .statusSent) (hlost : c ≠ .noticesLost) :
    p.unlock.counter c = if .lockLosses = c then counterUp 1 (p.counter c) else p.counter c := by
  have hchanged : ∀ (q : Part) (n : Nat), (q.raiseTimes .headChange n).counter c = q.counter c := fun q n => by
    rw [Part.raiseTimes_eq]
    split
    · rfl
    · exact q.counter_raise _ hsent hlost
  unfold Part.unlock
  dsimp only
  rw [Part.counter_raise _ _ hsent hlost, Part.counter_bump, hchanged]
  rfl

/-- What becoming UNLOCKED leaves of a part `p` whose link and counters alone have moved to `q` before it. -/
theorem Part.unlock_after {p q : Part} {cs : List Counter}
    (hlink : q = { p with hlu := q.hlu, rlu := q.rlu, evu := q.evu })
    (hhlu : q.hlu = { p.hlu with
      locked := q.hlu.locked, linkErrors := q.hlu.linkErrors, idleRun := q.hlu.idleRun, rx := q.hlu.rx })
    (hreported : p.Reported q cs []) (hlosses : .lockLosses ∈ cs) :
    q.unlock = { p with hlu := q.unlock.hlu, rlu := q.unlock.rlu, evu := q.unlock.evu } ∧
      q.unlock.hlu = { p.hlu with
        locked := false, linkErrors := 0, idleRun := 0, rx := .outside, heads := q.unlock.hlu.heads } ∧
      (∀ h : Head, q.unlock.hlu.heads[h] = (p.hlu.heads[h]).unlocked) ∧ p.Reported q.unlock cs p.unlockEvents := by
  have hheads : q.hlu.heads = p.hlu.heads := by rw [hhlu]
  refine ⟨?_, ?_, fun h => ?_, ?_⟩
  · exact Part.head_trans hlink (Part.eq_of_head_frame q.unlock_frame)
  · rw [q.unlock_hlu, hhlu]
  · rw [q.unlock_head, hheads]
  · have hevents : q.unlockEvents = p.unlockEvents := by rw [Part.unlockEvents, hheads, Part.unlockEvents]
    rw [← hevents]
    exact hreported.trans (q.unlock_reported.mono (by simpa using hlosses))

/-- The loss of signal on a link that is LOCKED or due its lock (log 3). -/
theorem Part.headLoss_locked (h : p.hlu.locked = true ∨ 32 ≤ p.hlu.idleRun) : p.headLoss = p.lockEvent.unlock := by
  have hlocked : p.lockEvent.hlu.locked = true := by
    cases hopen : p.hlu.locked with
    | true => rw [Part.lockEvent_locked p hopen, hopen]
    | false => rw [Part.lockEvent_of_due hopen (h.resolve_left (by simp [hopen]))]
  exact if_pos hlocked

theorem Part.headLoss_hunting (hopen : p.hlu.locked = false) (hrun : p.hlu.idleRun < 32) :
    p.headLoss = { p with hlu := { p.hlu with idleRun := 0 } } := by
  unfold Part.headLoss
  rw [Part.lockEvent_of_not_due (.inr hrun)]
  exact if_neg (by simp [hopen])

/-- A lock moves the link alone. -/
theorem Part.lockEvent_link (p : Part) : p.lockEvent = { p with
    hlu := p.lockEvent.hlu, rlu := p.lockEvent.rlu, evu := p.lockEvent.evu } ∧
    p.lockEvent.hlu = { p.hlu with
      locked := p.lockEvent.hlu.locked, linkErrors := p.lockEvent.hlu.linkErrors, idleRun := p.lockEvent.hlu.idleRun
      rx := p.lockEvent.hlu.rx } ∧
    p.lockEvent.rlu = p.rlu ∧ p.lockEvent.evu = p.evu := by
  unfold Part.lockEvent
  split
  · exact ⟨rfl, rfl, rfl, rfl⟩
  · exact ⟨rfl, rfl, rfl, rfl⟩

/-- Settles O8: a lock that is due, then all that R3 says of a link that becomes UNLOCKED. -/
theorem headLossOfSignal : Obligations.HeadLossOfSignal := by
  intro s hreset
  refine ⟨fun hlost => ?_, fun hopen hrun => ?_⟩
  · obtain ⟨hlink, hhlu, hrlu, hevu⟩ := s.part.lockEvent_link
    obtain ⟨hrest, hhlu, hheads, hreported⟩ := Part.unlock_after hlink hhlu ((Part.Reported.refl _ _).of_eq hrlu hevu)
      (List.mem_singleton_self _)
    have hcounter : s.part.lockEvent.counter .lockLosses = s.part.counter .lockLosses := by
      rw [Part.counter, hevu, Part.counter]
    refine ⟨s.part.lockEvent.unlock, ?_, hrest, hhlu, fun h => (hheads h).trans (HeadRecord.unlocked_eq _), hreported.rlu,
      hreported.joined, ?_, hreported.counters, hreported.raised⟩
    · exact (live_nextWith s _ hreset).trans (congrArg (nextWith s) (Part.headLoss_locked hlost))
    · rw [Part.unlock_counter _ (by decide) (by decide), if_pos rfl, hcounter]
  · exact (live_nextWith s _ hreset).trans (congrArg (nextWith s) (Part.headLoss_hunting hopen hrun))

/-! ## Framing errors (R2, R5, R6) -/

/-- A fault counted, one link error more, the receiver standing at `rx`. -/
def Part.erred (p : Part) (fault : Counter) (rx : HeadRx) : Part :=
  Part.bump { p with hlu := { p.hlu with rx := rx, linkErrors := min (p.hlu.linkErrors + 1) 15 } } fault

/-- What a fault of framing leaves, the receiver going on from `after`: below the threshold one error and one link error; at the threshold an UNLOCKED link, wherever the receiver stood. -/
def Part.Faulted (p : Part) (after : HeadRx) (fault : Counter) (q : Part) : Prop :=
  (min (p.hlu.linkErrors + 1) 15 < p.oru.settings.headErrorThreshold → q = p.erred fault after) ∧
    (p.oru.settings.headErrorThreshold ≤ min (p.hlu.linkErrors + 1) 15 → ∃ rx, q = (p.erred fault rx).unlock)

theorem Part.framingError_faulted (p : Part) (rx : HeadRx) : p.Faulted rx .framingErrors (p.framingError rx) :=
  ⟨fun h => if_neg (Nat.not_le.2 h), fun h => ⟨rx, if_pos h⟩⟩

theorem Part.headerError_faulted (p : Part) : p.Faulted .passing .uncorrectableHeaders p.headerError :=
  ⟨fun h => if_neg (Nat.not_le.2 h), fun h => ⟨.passing, if_pos h⟩⟩

/-- A FRAME START inside a frame opens another one, unless its error unlocks the link (log 12). -/
theorem Part.frameStart_faulted (hlocked : p.hlu.locked = true) (bytes : List Byte) (hd : Option Header) :
    p.Faulted (.inFrame [] none) .framingErrors (p.charInFrame bytes hd .frameStart) := by
  obtain ⟨hbelow, hat⟩ := p.framingError_faulted .passing
  refine ⟨fun h => ?_, fun h => ?_⟩
  · have herror := hbelow h
    unfold Part.charInFrame
    dsimp only
    rw [if_pos (by rw [herror]; exact hlocked), herror]
    rfl
  · obtain ⟨rx, herror⟩ := hat h
    refine ⟨rx, ?_⟩
    unfold Part.charInFrame
    dsimp only
    rw [if_neg (by rw [herror, Part.unlock_hlu]; exact Bool.false_ne_true), herror]

/-- The characters of FRAMING ERRORS, by where the receiver stands (R5, R6). -/
theorem Part.headChar_faulted {after : HeadRx} {fault : Counter} (hlocked : p.hlu.locked = true)
    (hfault : (∃ bytes b, p.hlu.rx = .inFrame bytes none ∧ bytes.length = 3 ∧ c = .data b ∧
        decodeHeader (headerWord (bytes ++ [b])) = none ∧ after = .passing ∧ fault = .uncorrectableHeaders) ∨
      (p.hlu.rx = .outside ∧ (c = .frameEnd ∨ ∃ b, c = .data b) ∧ after = .stray ∧ fault = .framingErrors) ∨
      (∃ bytes hd, p.hlu.rx = .inFrame bytes hd ∧ fault = .framingErrors ∧
        ((c = .frameStart ∧ after = .inFrame [] none) ∨ (c = .violation ∧ after = .passing) ∨
          (c = .frameEnd ∧ hd = none ∧ after = .passing) ∨
          (∃ h b, hd = some h ∧ after = .passing ∧
            ((c = .frameEnd ∧ bytes.length < h.impliedLength) ∨ (c = .data b ∧ h.impliedLength ≤ bytes.length)))))) :
    (if c = .violation then p.bump .headCodeViolations else p).Faulted after fault (p.headChar c) := by
  have htaken : p.headChar c = (p.countViolation c).charTaken c := by rw [Part.headChar, p.lockEvent_locked hlocked]
  have houtside : ∀ q : Part, q.hlu = p.hlu → p.hlu.rx = .outside → q.charTaken c = q.charOutside false c := fun q hq hrx => by
    rw [Part.charTaken, if_pos (by rw [hq, hlocked]), hq, hrx]
  have hinFrame : ∀ (q : Part) (bytes : List Byte) (hd : Option Header), q.hlu = p.hlu → p.hlu.rx = .inFrame bytes hd →
      q.charTaken c = q.charInFrame bytes hd c := fun q bytes hd hq hrx => by
    rw [Part.charTaken, if_pos (by rw [hq, hlocked]), hq, hrx]
  have hcounted : (p.countViolation c).hlu = p.hlu := by cases c <;> rfl
  rw [htaken]
  obtain ⟨bytes, b, hrx, hlength, rfl, hheader, rfl, rfl⟩ | ⟨hrx, hstray, rfl, rfl⟩ | ⟨bytes, hd, hrx, rfl, hinside⟩ := hfault
  · rw [hinFrame _ _ _ hcounted hrx, if_neg nofun]
    have hword : p.frameData bytes none b = p.headerError := by
      have hlong : ¬ (bytes ++ [b]).length < 4 := by simp [hlength]
      unfold Part.frameData
      dsimp only
      rw [if_neg hlong, hheader]
    show p.Faulted _ _ (p.frameData bytes none b)
    rw [hword]
    exact p.headerError_faulted
  · obtain rfl | ⟨b, rfl⟩ := hstray
    · rw [houtside _ hcounted hrx, if_neg nofun]
      exact p.framingError_faulted _
    · rw [houtside _ hcounted hrx, if_neg nofun]
      exact p.framingError_faulted _
  · obtain ⟨rfl, rfl⟩ | ⟨rfl, rfl⟩ | ⟨rfl, rfl, rfl⟩ | ⟨h, b, rfl, rfl, hshort | hlong⟩ := hinside
    · rw [hinFrame _ _ _ hcounted hrx, if_neg nofun]
      exact p.frameStart_faulted hlocked _ _
    · rw [hinFrame _ _ _ hcounted hrx, if_pos rfl]
      exact Part.framingError_faulted _ _
    · rw [hinFrame _ _ _ hcounted hrx, if_neg nofun]
      exact p.framingError_faulted _
    · obtain ⟨rfl, hlength⟩ := hshort
      have hend : p.frameEnd bytes (some h) = p.framingError .passing := if_pos hlength
      rw [hinFrame _ _ _ hcounted hrx, if_neg nofun]
      show p.Faulted _ _ (p.frameEnd bytes (some h))
      rw [hend]
      exact p.framingError_faulted _
    · obtain ⟨rfl, hlength⟩ := hlong
      have hdata : p.frameData bytes (some h) b = p.framingError .passing := if_pos (by simp; omega)
      rw [hinFrame _ _ _ hcounted hrx, if_neg nofun]
      show p.Faulted _ _ (p.frameData bytes (some h) b)
      rw [hdata]
      exact p.framingError_faulted _

/-- A code violation counted, or nothing, as the Event Unit alone shows. -/
theorem Part.violation_counted (p : Part) (violated : Prop) [Decidable violated] :
    ∃ evu, (if violated then p.bump .headCodeViolations else p) = p.withEvu evu ∧
      p.Reported (p.withEvu evu) [.headCodeViolations] [] := by
  split
  · exact ⟨_, rfl, p.reported_bumpBy (List.mem_singleton_self _) 1⟩
  · exact ⟨p.evu, rfl, .refl p _⟩

/-- Settles O9: each such character is a fault, which below the threshold moves the count of link errors, and at it unlocks the link. -/
theorem framingErrors : Obligations.FramingErrors := by
  intro s line after fault hreset hlocked hcases p0
  obtain ⟨hbelow, hat⟩ := Part.headChar_faulted hlocked hcases
  have hfault : fault = .uncorrectableHeaders ∨ fault = .framingErrors := by
    obtain ⟨_, _, _, _, _, _, _, h⟩ | ⟨_, _, _, h⟩ | ⟨_, _, _, h, _⟩ := hcases
    · exact .inl h
    · exact .inr h
    · exact .inr h
  obtain ⟨evu, hp0, hviolation⟩ := s.part.violation_counted (lineCharOf line = .violation)
  have hcounted : p0 = s.part.withEvu evu := hp0
  rw [exec_headLinkCharacter line hreset]
  rw [hp0] at hbelow hat
  rw [hcounted]
  refine ⟨fun h => ?_, fun h => ?_⟩
  · rw [hbelow h]
    rfl
  · obtain ⟨rx, herror⟩ := hat h
    have hreported : s.part.Reported ((s.part.withEvu evu).erred fault rx) [fault, .lockLosses, .headCodeViolations] [] := by
      refine Part.Reported.bump ?_ (by simp)
      exact (hviolation.mono (by simp)).of_eq rfl rfl
    have hcounter : ∀ c, ((s.part.withEvu evu).erred fault rx).counter c =
        if fault = c then counterUp 1 ((s.part.withEvu evu).counter c) else (s.part.withEvu evu).counter c := fun c =>
      Part.counter_bump _ fault c
    obtain ⟨hrest, hhlu, hheads, hunlocked⟩ := Part.unlock_after (p := s.part)
      (q := (s.part.withEvu evu).erred fault rx) rfl rfl hreported (by simp)
    refine ⟨_, congrArg (nextWith s) herror, hrest, hhlu, fun h => (hheads h).trans (HeadRecord.unlocked_eq _),
      hunlocked.rlu, hunlocked.joined, ?_, ?_, ?_, hunlocked.counters, hunlocked.raised⟩
    · obtain rfl | rfl := hfault
      · rw [Part.unlock_counter _ (by decide) (by decide), hcounter, if_neg (by decide), if_pos rfl, hviolation.counter (by decide)]
      · rw [Part.unlock_counter _ (by decide) (by decide), hcounter, if_neg (by decide), if_pos rfl, hviolation.counter (by decide)]
    · obtain rfl | rfl := hfault
      · rw [Part.unlock_counter _ (by decide) (by decide), hcounter, if_pos rfl, if_neg (by decide), hviolation.counter (by decide)]
      · rw [Part.unlock_counter _ (by decide) (by decide), hcounter, if_pos rfl, if_neg (by decide), hviolation.counter (by decide)]
    · obtain rfl | rfl := hfault
      · rw [Part.unlock_counter _ (by decide) (by decide), hcounter, if_neg (by decide), if_neg (by decide)]
      · rw [Part.unlock_counter _ (by decide) (by decide), hcounter, if_neg (by decide), if_neg (by decide)]

end

end Sys2Proof.Machine

/-! SUPPORT. The qualification of the heads, and the deadlines of heads and relays. -/

namespace Sys2Proof.Machine

/-! ## Qualification (R10 to R13) -/

theorem qualifiedState_eq (pass goodRun score : Nat) : qualifiedState pass goodRun score =
    if goodRun < pass then .acquiring else if score < 96 then .qualified else .suspect := by
  unfold qualifiedState
  by_cases h : goodRun < pass
  · rw [if_neg (Nat.not_le.2 h), if_pos h]
  · rw [if_pos (Nat.not_lt.1 h), if_neg h]

/-- The gap in front of a sequence number that lies some numbers beyond the next (R10). -/
theorem sequenceGap_beyond (last : BitVec 8) {gap : Nat} (h : gap < 256) :
    sequenceGap (some last) (last + 1 + BitVec.ofNat 8 gap) = gap := by
  have hdiff : last + 1 + BitVec.ofNat 8 gap - last - 1 = BitVec.ofNat 8 gap := by ring
  unfold sequenceGap
  dsimp only
  rw [hdiff, BitVec.toNat_ofNat]
  exact Nat.mod_eq_of_lt h

section
variable {r : HeadRecord} {mismatch : Bool}

/-! ### Bad frames, state by state (R8, R9, R12) -/

theorem HeadRecord.bad_excluded (h : 247 ≤ r.score) :
    r.bad mismatch = { r with score := 255, goodRun := 0, state := .excluded } := by
  have hscore : min (r.score + 8) 255 = 255 := by omega
  unfold HeadRecord.bad
  dsimp only
  rw [hscore, if_pos rfl]

theorem HeadRecord.bad_below (h : r.score < 247) : r.bad mismatch = { r with
    score := r.score + 8
    goodRun := 0
    state := if (mismatch && r.state.proven) = true then .acquiring
      else if r.state = .qualified ∧ 96 ≤ r.score + 8 then .suspect else r.state } := by
  have hscore : min (r.score + 8) 255 = r.score + 8 := by omega
  unfold HeadRecord.bad
  dsimp only
  rw [hscore, if_neg (by omega)]

end

/-- Settles O10: each row of the table is a branch of the record's own rules. -/
theorem qualificationTable : Obligations.QualificationTable := by
  refine ⟨fun _ _ _ => rfl, fun _ => rfl, fun last gap h => sequenceGap_beyond last h, fun r pass _ => ?_⟩
  refine ⟨fun hstate => ?_, fun hstate => ?_, fun hstate => ?_, fun hstate => ?_, fun hstate hrun => ?_, fun hstate hrun => ?_,
    fun mismatch => ⟨HeadRecord.bad_excluded, fun hscore hmismatch hproven => ?_, fun hscore hmismatch hstate => ?_,
      fun hscore hstate => ?_⟩⟩
  · rw [HeadRecord.good, hstate, ← qualifiedState_eq]
  · rw [HeadRecord.good, hstate, ← qualifiedState_eq]
  · rw [HeadRecord.good, hstate]
  · rw [HeadRecord.good, hstate]
  · have hgrown : min (r.goodRun + 1) 1023 = r.goodRun + 1 := by omega
    rw [HeadRecord.good, hstate]
    dsimp only
    rw [if_neg (by omega), hgrown]
  · rw [HeadRecord.good, hstate]
    exact if_pos hrun
  · rw [HeadRecord.bad_below hscore, hmismatch]
    obtain hstate | hstate := hproven <;> rw [hstate] <;> rfl
  · rw [HeadRecord.bad_below hscore, hmismatch, hstate]
    simp
  · rw [HeadRecord.bad_below hscore]
    obtain hstate | hstate | ⟨hstate, hmismatch⟩ := hstate
    · simp [hstate, HeadState.proven]
    · simp [hstate, HeadState.proven]
    · simp [hstate, hmismatch]

/-! ## A head record written (section 1.3) -/

/-- The event of a head record written: HEAD_CHANGE where its state moves. -/
def HeadRecord.change (old new : HeadRecord) : List Event := if new.state = old.state then [] else [.headChange]

section
variable {p : Part} {h : Head} {r : HeadRecord}

theorem Part.writeHead_hlu (p : Part) (h : Head) (r : HeadRecord) :
    (p.writeHead h r).hlu = { p.hlu with heads := vmodify p.hlu.heads h fun _ => r } := by
  unfold Part.writeHead
  dsimp only
  split
  · rfl
  · simp only [Part.raise_frame]
    rfl

theorem Part.writeHead_same (p : Part) (h : Head) (r : HeadRecord) : (p.writeHead h r).hlu.heads[h] = r := by
  rw [p.writeHead_hlu]
  exact (vmodify_get _ _ _ _).trans (if_pos rfl)

theorem Part.writeHead_other (p : Part) {h g : Head} (r : HeadRecord) (hne : g ≠ h) :
    (p.writeHead h r).hlu.heads[g] = p.hlu.heads[g] := by
  rw [p.writeHead_hlu]
  exact (vmodify_get _ _ _ _).trans (if_neg hne.symm)

theorem Part.writeHead_reported (p : Part) (h : Head) (r : HeadRecord) (cs : List Counter) :
    p.Reported (p.writeHead h r) cs ((p.hlu.heads[h]).change r) := by
  have hwritten : p.Reported (p.onHead h fun _ => r) cs [] := (Part.Reported.refl p cs).of_eq rfl rfl
  unfold Part.writeHead HeadRecord.change
  split
  · exact hwritten
  · exact hwritten.raise _

theorem Part.writeHead_counter (p : Part) (h : Head) (r : HeadRecord) {c : Counter} (hsent : c ≠ .statusSent)
    (hlost : c ≠ .noticesLost) : (p.writeHead h r).counter c = p.counter c :=
  (p.writeHead_reported h r []).counter (by simp [hsent, hlost])

/-! ## Watchdogs and freshness (R14, R29) -/

theorem reached_iff (now deadline : Time) : reached now deadline = true ↔ (now - deadline).toNat < 2 ^ 31 := by
  simp [reached]

theorem Part.watchdogDue_iff (p : Part) (h : Head) : p.watchdogDue h = true ↔
    p.rnc.runState ≠ .parked ∧ ∃ d, (p.hlu.heads[h]).watchdog = some d ∧ (p.time - d).toNat < 2 ^ 31 := by
  unfold Part.watchdogDue
  cases (p.hlu.heads[h]).watchdog <;> simp [reached_iff]

theorem Part.freshnessDue_iff (p : Part) (h : Head) : p.freshnessDue h = true ↔
    ∃ d, p.shu.freshness[h] = some d ∧ (p.time - d).toNat < 2 ^ 31 := by
  unfold Part.freshnessDue
  cases p.shu.freshness[h] <;> simp [reached_iff]

theorem HeadRecord.expired_eq (r : HeadRecord) : r.expired = { r with watchdog := none, goodRun := 0, state := match r.state with
    | .qualified => .acquiring
    | .suspect => .acquiring
    | x => x } := by
  unfold HeadRecord.expired
  cases r.state <;> rfl

theorem HeadRecord.change_expired (r : HeadRecord) : r.change r.expired = if r.state.proven = true then [.headChange] else [] := by
  unfold HeadRecord.change HeadRecord.expired
  cases r.state <;> rfl

/-- The expiry of a watchdog, where it is due. -/
theorem Part.watchdogEvent_due (hdue : p.watchdogDue h = true) :
    p.watchdogEvent h = (p.bump (.watchdogExpiries h)).writeHead h (p.hlu.heads[h]).expired := if_pos hdue

theorem Part.stopFreshness_head (p : Part) (h g : Head) :
    (p.stopFreshness h).shu.freshness[g] = if h = g then none else p.shu.freshness[g] := vmodify_get _ _ _ _

/-- Settles O17: a due deadline writes its own head alone; one that is not due does nothing. -/
theorem headDeadlines : Obligations.HeadDeadlines := by
  intro s h hreset p r
  have hwatchdog : exec (.watchdogExpiry h) s = nextWith s (p.watchdogEvent h) :=
    live_nextWith s (fun q => q.watchdogEvent h) hreset
  have hfreshness : exec (.freshnessDeadline h) s = nextWith s (p.freshnessEvent h) :=
    live_nextWith s (fun q => q.freshnessEvent h) hreset
  rw [hwatchdog, hfreshness]
  refine ⟨fun d hd hreached hrun => ?_, fun hnot => ?_, fun d hd hreached => ?_, fun hnot => ?_⟩
  · rw [Part.watchdogEvent_due ((p.watchdogDue_iff h).2 ⟨hrun, d, hd, hreached⟩)]
    have hreported : p.Reported ((p.bump (.watchdogExpiries h)).writeHead h r.expired) [.watchdogExpiries h]
        (if r.state.proven = true then [.headChange] else []) := by
      rw [← HeadRecord.change_expired]
      exact (p.reported_bumpBy (List.mem_singleton_self _) 1).trans (Part.writeHead_reported _ h _ _)
    refine ⟨_, rfl, Part.eq_of_head_frame (by simp), ?_, ?_, fun g hg => Part.writeHead_other _ _ hg, hreported.rlu,
      hreported.joined, ?_, hreported.counters, hreported.raised⟩
    · rw [Part.writeHead_hlu]
      rfl
    · exact (Part.writeHead_same _ _ _).trans (HeadRecord.expired_eq _)
    · rw [Part.writeHead_counter _ _ _ (by simp) (by simp), Part.counter_bump, if_pos rfl]
  · have hidle : p.watchdogDue h ≠ true := fun hdue => by
      obtain ⟨hrun, d, hd, hreached⟩ := (p.watchdogDue_iff h).1 hdue
      obtain hnone | hparked | ⟨d', hd', hfuture⟩ := hnot
      · exact Option.some_ne_none d (hd.symm.trans hnone)
      · exact hrun hparked
      · obtain rfl : d = d' := Option.some.inj (hd.symm.trans hd')
        omega
    rw [Part.watchdogEvent, if_neg hidle]
  · rw [Part.freshnessEvent, if_pos ((p.freshnessDue_iff h).2 ⟨d, hd, hreached⟩)]
    refine ⟨_, rfl, rfl, (p.stopFreshness_head h h).trans (if_pos rfl), fun g hg => ?_⟩
    exact (p.stopFreshness_head h g).trans (if_neg hg.symm)
  · have hidle : p.freshnessDue h ≠ true := fun hdue => by
      obtain ⟨d, hd, hreached⟩ := (p.freshnessDue_iff h).1 hdue
      obtain hnone | ⟨d', hd', hfuture⟩ := hnot
      · exact Option.some_ne_none d (hd.symm.trans hnone)
      · obtain rfl : d = d' := Option.some.inj (hd.symm.trans hd')
        omega
    rw [Part.freshnessEvent, if_neg hidle]

/-! ## Relays (R22, R24) -/

theorem Part.relayDue_of_reached {x : RelaySlot} {d : Time} (hrelay : p.hlu.relay = some x) (hdeadline : x.deadline = some d)
    (hreached : (p.time - d).toNat < 2 ^ 31) : p.relayDue = some x := by
  unfold Part.relayDue
  rw [hrelay]
  dsimp only
  rw [hdeadline]
  exact if_pos ((reached_iff _ _).2 hreached)

theorem Part.relayDue_eq_none (h : p.hlu.relay = none ∨ ∃ x, p.hlu.relay = some x ∧
    (x.deadline = none ∨ ∃ d, x.deadline = some d ∧ 2 ^ 31 ≤ (p.time - d).toNat)) : p.relayDue = none := by
  unfold Part.relayDue
  obtain hnone | ⟨x, hrelay, hnone | ⟨d, hd, hfuture⟩⟩ := h
  · rw [hnone]
  · rw [hrelay]
    dsimp only
    rw [hnone]
  · rw [hrelay]
    dsimp only
    rw [hd]
    exact if_neg (mt (reached_iff _ _).1 (Nat.not_lt.2 hfuture))

/-- The answer that a completed relay puts in the place of its reservation (R23, R24, R187). -/
theorem Part.completeRelay_eq {y : HeadReservation} (horder : p.oru.headReservation = some y) (x : RelaySlot) (result : Result)
    (reply : List Byte) : p.completeRelay x result reply = { p with
      hlu := { p.hlu with relay := none, relayLine := p.hlu.relayLine.map (fun f => { f with forSlot := false }) }
      oru := { p.oru with headReservation := none }
      rlu := { p.rlu with
        control := p.rlu.control ++ [.reply y.code y.tag result (BitVec.ofNat 8 (x.head.val + 1) :: reply)]
        reservations := p.rlu.reservations - 1 } } := by
  unfold Part.completeRelay
  rw [horder]
  rfl

/-- Settles O18: the branches of the two events of a relay. -/
theorem relayDeadline : Obligations.RelayDeadline := by
  intro s hreset p
  have hsent : exec .relayFrameSent s = nextWith s p.relaySentEvent := live_nextWith s Part.relaySentEvent hreset
  have htimeout : exec .relayTimeout s = nextWith s p.relayTimeoutEvent := live_nextWith s Part.relayTimeoutEvent hreset
  rw [hsent, htimeout]
  refine ⟨fun x f rest hrelay hline hslot => ?_, fun f rest hline hnot => ?_, fun hline => ?_,
    fun x d y hrelay hd hreached horder => ?_, fun hnot => ?_⟩
  · rw [Part.relaySentEvent, hline]
    dsimp only
    rw [hrelay]
    dsimp only
    rw [if_pos hslot]
    rfl
  · rw [Part.relaySentEvent, hline]
    obtain hnone | hother := hnot
    · rw [hnone]
      rfl
    · dsimp only
      rw [hother]
      cases p.hlu.relay with
      | none => rfl
      | some x => rfl
  · rw [Part.relaySentEvent, hline]
  · rw [Part.relayTimeoutEvent, Part.relayDue_of_reached hrelay hd hreached]
    dsimp only
    rw [Part.completeRelay_eq horder]
  · rw [Part.relayTimeoutEvent, Part.relayDue_eq_none hnot]

end

end Sys2Proof.Machine

/-! SUPPORT. What a valid frame leaves, and the frames of each kind. -/

namespace Sys2Proof.Machine

section
variable {p v q : Part} {h : Head} {hd : Header} {corrected : Bool} {bytes : List Byte} {chars : List LineChar}

/-! ## A valid frame (R10) -/

/-- The part after the checks and the common effects of a valid frame. -/
def Part.frameValid (p : Part) (h : Head) (hd : Header) (corrected : Bool) : Part :=
  ((p.countCorrected corrected).setRx .outside).validFrame h hd.sequence

theorem Part.headFrame_valid (hvalid : p.TakesValidFrame chars bytes hd corrected h) :
    p.headFrame chars = (p.frameValid h hd corrected).takeKind h hd bytes := by
  obtain ⟨hframe, hhead, hcrc, hshape⟩ := hvalid
  have hshapeOk : ((p.countCorrected corrected).setRx .outside).shapeOk h hd = true := by
    have hsettings : ((p.countCorrected corrected).setRx .outside).oru = p.oru := by
      unfold Part.countCorrected
      split <;> rfl
    unfold Part.shapeOk
    rw [hsettings]
    split
    · rename_i hkind
      simp [hshape hkind]
    · rfl
  rw [Part.headFrame_whole p chars bytes hd corrected hframe]
  unfold Part.judgeFrame
  rw [hhead]
  dsimp only
  rw [hcrc, hshapeOk]
  rfl

/-- What stands of `p` in the part before the head record is written. -/
theorem Part.countCorrected_eq (p : Part) (corrected : Bool) : ∃ evu, p.countCorrected corrected = p.withEvu evu := by
  unfold Part.countCorrected
  split
  · exact ⟨_, rfl⟩
  · exact ⟨p.evu, rfl⟩

/-- The counters and the link before the record is written. -/
def Part.frameCounted (p : Part) (h : Head) (hd : Header) (corrected : Bool) : Part :=
  let counted := (((p.countCorrected corrected).setRx .outside).bump (.validFrames h)).bumpBy (.lostFrames h)
    (sequenceGap (p.hlu.heads[h]).lastSequence hd.sequence)
  counted.withHlu { counted.hlu with linkErrors := counted.hlu.linkErrors - 1 }

theorem Part.frameValid_eq (p : Part) (h : Head) (hd : Header) (corrected : Bool) :
    p.frameValid h hd corrected = (p.frameCounted h hd corrected).writeHead h (p.goodRecord h hd.sequence) := by
  obtain ⟨evu, hevu⟩ := p.countCorrected_eq corrected
  unfold Part.frameValid Part.frameCounted Part.validFrame
  rw [hevu]
  rfl

theorem Part.frameCounted_rest (p : Part) (h : Head) (hd : Header) (corrected : Bool) :
    (p.frameCounted h hd corrected).hlu = { p.hlu with rx := .outside, linkErrors := p.hlu.linkErrors - 1 } ∧
      p.frameCounted h hd corrected = { p with
        hlu := (p.frameCounted h hd corrected).hlu
        rlu := (p.frameCounted h hd corrected).rlu
        evu := (p.frameCounted h hd corrected).evu } := by
  unfold Part.frameCounted Part.countCorrected
  split
  · exact ⟨rfl, rfl⟩
  · exact ⟨rfl, rfl⟩

theorem Part.countCorrected_counter (p : Part) (corrected : Bool) (c : Counter) :
    (p.countCorrected corrected).counter c =
      if corrected = true ∧ .correctedHeaders = c then counterUp 1 (p.counter c) else p.counter c := by
  cases corrected with
  | true =>
    refine (p.counter_bump .correctedHeaders c).trans ?_
    simp
  | false => simp [Part.countCorrected]

theorem Part.frameCounted_counter (p : Part) (h : Head) (hd : Header) (corrected : Bool) (c : Counter) :
    (p.frameCounted h hd corrected).counter c =
      if .lostFrames h = c then counterUp (sequenceGap (p.hlu.heads[h]).lastSequence hd.sequence) (p.counter c)
      else if .validFrames h = c then counterUp 1 (p.counter c)
      else if corrected = true ∧ .correctedHeaders = c then counterUp 1 (p.counter c) else p.counter c := by
  have hcounted : (p.frameCounted h hd corrected).counter c =
      ((((p.countCorrected corrected).setRx .outside).bump (.validFrames h)).bumpBy (.lostFrames h)
        (sequenceGap (p.hlu.heads[h]).lastSequence hd.sequence)).counter c := rfl
  rw [hcounted, Part.counter_bumpBy, Part.counter_bump]
  show (if _ then counterUp _ (if _ then counterUp _ ((p.countCorrected corrected).counter c)
    else (p.countCorrected corrected).counter c) else if _ then counterUp _ ((p.countCorrected corrected).counter c)
    else (p.countCorrected corrected).counter c) = _
  rw [p.countCorrected_counter]
  cases c <;> simp

theorem Part.frameCounted_reported (p : Part) (h : Head) (hd : Header) (corrected : Bool) :
    p.Reported (p.frameCounted h hd corrected) [.validFrames h, .lostFrames h, .correctedHeaders] [] := by
  have hcorrected : p.Reported (p.countCorrected corrected) [.validFrames h, .lostFrames h, .correctedHeaders] [] := by
    unfold Part.countCorrected
    split
    · exact p.reported_bumpBy (by simp) 1
    · exact .refl p _
  exact (((hcorrected.of_eq (r := Part.setRx _ _) rfl rfl).bump (by simp)).bumpBy (by simp) _).of_eq rfl rfl

/-- What a valid frame of a head leaves before its kind is taken, bundled (R10). -/
structure Part.FrameValid (p v : Part) (h : Head) (hd : Header) (corrected : Bool) : Prop where
  rest : v = { p with hlu := v.hlu, rlu := v.rlu, evu := v.evu }
  taken : p.ValidFrameTaken v h hd corrected (p.goodRecord h hd.sequence)
  relay : v.hlu.relay = p.hlu.relay
  relayLine : v.hlu.relayLine = p.hlu.relayLine
  reported : p.Reported v [.validFrames h, .lostFrames h, .correctedHeaders]
    ((p.hlu.heads[h]).change (p.goodRecord h hd.sequence))

theorem Part.frameValid_spec (p : Part) (h : Head) (hd : Header) (corrected : Bool) (hlocked : p.hlu.locked = true) :
    p.FrameValid (p.frameValid h hd corrected) h hd corrected := by
  obtain ⟨hhlu, hrest⟩ := p.frameCounted_rest h hd corrected
  rw [p.frameValid_eq]
  have hcounter : ∀ c, c ≠ .statusSent → c ≠ .noticesLost →
      ((p.frameCounted h hd corrected).writeHead h (p.goodRecord h hd.sequence)).counter c =
        (p.frameCounted h hd corrected).counter c := fun c hsent hlost => Part.writeHead_counter _ _ _ hsent hlost
  have hold : (p.frameCounted h hd corrected).hlu.heads = p.hlu.heads := by rw [hhlu]
  refine ⟨Part.head_trans hrest (Part.eq_of_head_frame (by simp)), ⟨?_, ?_, ?_, ?_, ?_, Part.writeHead_same _ _ _,
    fun g hg => ?_, ?_, ?_, ?_⟩, ?_, ?_, ?_⟩
  · rw [Part.writeHead_hlu, hhlu]
    exact hlocked
  · rw [Part.writeHead_hlu, hhlu]
  · rw [Part.writeHead_hlu, hhlu]
  · rw [Part.writeHead_hlu, hhlu]
  · rw [Part.writeHead_hlu, hhlu]
  · rw [Part.writeHead_other _ _ hg, hold]
  · rw [hcounter _ (by simp) (by simp), Part.frameCounted_counter]
    simp
  · rw [hcounter _ (by simp) (by simp), Part.frameCounted_counter]
    simp
  · rw [hcounter _ (by simp) (by simp), Part.frameCounted_counter]
    simp
  · rw [Part.writeHead_hlu, hhlu]
  · rw [Part.writeHead_hlu, hhlu]
  · have hwritten := Part.writeHead_reported (p.frameCounted h hd corrected) h (p.goodRecord h hd.sequence)
      [.validFrames h, .lostFrames h, .correctedHeaders]
    rw [hold] at hwritten
    exact (p.frameCounted_reported h hd corrected).trans hwritten

/-- The common effects stand where only records, the queues and other counters go on. -/
theorem Part.ValidFrameTaken.of_taken {r r' : HeadRecord} (ht : p.ValidFrameTaken v h hd corrected r)
    (hhlu : q.hlu = { v.hlu with relay := q.hlu.relay, relayLine := q.hlu.relayLine, heads := q.hlu.heads })
    (hsame : q.hlu.heads[h] = r') (hother : ∀ g : Head, g ≠ h → q.hlu.heads[g] = v.hlu.heads[g])
    (hcounter : ∀ c ∈ [Counter.validFrames h, .lostFrames h, .correctedHeaders], q.counter c = v.counter c) :
    p.ValidFrameTaken q h hd corrected r' := by
  obtain ⟨hlocked, herrors, hrun, hrx, htag, -, hheads, hvalid, hlost, hcorrected⟩ := ht
  refine ⟨?_, ?_, ?_, ?_, ?_, hsame, fun g hg => (hother g hg).trans (hheads g hg), ?_, ?_, ?_⟩
  · rw [hhlu, ← hlocked]
  · rw [hhlu, ← herrors]
  · rw [hhlu, ← hrun]
  · rw [hhlu, ← hrx]
  · rw [hhlu, ← htag]
  · rw [hcounter _ (by simp), hvalid]
  · rw [hcounter _ (by simp), hlost]
  · rw [hcounter _ (by simp), hcorrected]

/-- The same with the link untouched. -/
theorem Part.ValidFrameTaken.of_hlu {r : HeadRecord} (ht : p.ValidFrameTaken v h hd corrected r) (hhlu : q.hlu = v.hlu)
    (hcounter : ∀ c ∈ [Counter.validFrames h, .lostFrames h, .correctedHeaders], q.counter c = v.counter c) :
    p.ValidFrameTaken q h hd corrected r := by
  obtain ⟨_, _, _, _, _, hsame, _⟩ := id ht
  exact ht.of_taken (by rw [hhlu]) (by rw [hhlu, hsame]) (fun g _ => by rw [hhlu]) hcounter

/-! ## Copies for the recorder (R21, R174) -/

theorem Part.mirrorCopy_eq (p : Part) (h : Head) (k : HeadKind) (bytes : List Byte) : p.mirrorCopy h k bytes =
    if (p.oru.settings.mirrors[h] && p.rnc.runState != .parked) = true then
      (if p.rlu.mirror.length < 8 then p.withRlu { p.rlu with mirror := p.rlu.mirror ++ [⟨h, k, bytes⟩] }
      else p.bump .mirrorDrops)
    else p := rfl

/-- A copy touches the Recorder Link Unit and the Event Unit alone. -/
theorem Part.mirrorCopy_rest (p : Part) (h : Head) (k : HeadKind) (bytes : List Byte) : p.mirrorCopy h k bytes = { p with
    rlu := (p.mirrorCopy h k bytes).rlu, evu := (p.mirrorCopy h k bytes).evu } := by
  rw [p.mirrorCopy_eq]
  split
  · split
    · rfl
    · rfl
  · rfl

/-- What stands after a copy has been offered, if one was due. -/
theorem Part.mirrorCopy_reported {cs : List Counter} {es : List Event} (hv : p.Reported v cs es) (hdrops : .mirrorDrops ∈ cs)
    (h : Head) (k : HeadKind) (bytes : List Byte) :
    let q := v.mirrorCopy h k bytes
    let copy : Bool := v.oru.settings.mirrors[h] && v.rnc.runState != .parked
    q.rlu = { p.rlu with control := q.rlu.control, mirror := q.rlu.mirror } ∧ p.NoticesJoined q ∧
      q.rlu.mirror = (if copy = true ∧ p.rlu.mirror.length < 8 then p.rlu.mirror ++ [⟨h, k, bytes⟩] else p.rlu.mirror) ∧
      (∀ c, q.counter c = if .mirrorDrops = c ∧ copy = true ∧ 8 ≤ p.rlu.mirror.length then counterUp 1 (v.counter c)
        else v.counter c) ∧
      p.CountersKeptBut q (cs ++ [.statusSent, .noticesLost]) ∧ p.Raised q es := by
  intro q copy
  have hmirror : v.rlu.mirror = p.rlu.mirror := by rw [hv.rlu]
  have hkept : v.rlu = { p.rlu with control := v.rlu.control, mirror := v.rlu.mirror } := by
    rw [hmirror]
    exact hv.rlu
  have hq : q = if copy = true then
      (if p.rlu.mirror.length < 8 then v.withRlu { v.rlu with mirror := p.rlu.mirror ++ [⟨h, k, bytes⟩] }
      else v.bump .mirrorDrops)
    else v := by rw [← hmirror]; exact v.mirrorCopy_eq h k bytes
  by_cases hcopy : copy = true
  · rw [if_pos hcopy] at hq
    by_cases hroom : p.rlu.mirror.length < 8
    · rw [if_pos hroom] at hq
      rw [hq]
      refine ⟨?_, hv.joined, ?_, fun c => ?_, hv.counters, hv.raised⟩
      · exact congrArg (fun x : Rlu => { x with mirror := p.rlu.mirror ++ [MirrorFrame.mk h k bytes] }) hv.rlu
      · rw [if_pos ⟨hcopy, hroom⟩]
        rfl
      · rw [if_neg fun hdrop => Nat.not_lt.2 hdrop.2.2 hroom]
        rfl
    · rw [if_neg hroom] at hq
      have hbumped := hv.bump hdrops
      rw [hq]
      refine ⟨?_, hbumped.joined, ?_, fun c => ?_, hbumped.counters, hbumped.raised⟩
      · exact hkept
      · rw [if_neg fun hput => hroom hput.2]
        exact hmirror
      · rw [Part.counter_bump]
        simp [hcopy, Nat.not_lt.1 hroom]
  · rw [if_neg hcopy] at hq
    rw [hq]
    refine ⟨hkept, hv.joined, ?_, fun c => ?_, hv.counters, hv.raised⟩
    · rw [if_neg fun hput => hcopy hput.1, hmirror]
    · rw [if_neg fun hdrop => hcopy hdrop.2.1]

/-! ## SAMPLE frames (R17, R29) -/

/-- A sample frame held, in the blocks that it writes. -/
theorem Part.holdSample_writes (p : Part) (h : Head) (hd : Header) (payload : List Byte) : p.holdSample h hd payload = { p with
    hlu := { p.hlu with heads := vmodify p.hlu.heads h fun r =>
      { r with held := some ⟨p.time, channelMeans payload hd.channels hd.samples⟩ } }
    shu := { p.shu with freshness := vmodify p.shu.freshness h fun _ => some (p.frameDeadline p.time) } } := rfl

/-- A part whose Sample Hold Unit has moved with the link, and then its reports alone. -/
theorem Part.sample_trans {p w q : Part} (h : w = { p with hlu := w.hlu, shu := w.shu, rlu := w.rlu, evu := w.evu })
    (k : q = { w with rlu := q.rlu, evu := q.evu }) :
    q = { p with hlu := q.hlu, shu := q.shu, rlu := q.rlu, evu := q.evu } := by
  have hhlu : q.hlu = w.hlu := by rw [k]
  have hshu : q.shu = w.shu := by rw [k]
  exact k.trans (by rw [hhlu, hshu, h])

/-- Settles O11: the frame's common effects, the record's held frame, the freshness, and the copy. -/
theorem sampleFrameHeld : Obligations.SampleFrameHeld := by
  refine ⟨channelMean_eq_sum, ?_⟩
  intro s chars bytes hd corrected h hvalid hkind p copy
  obtain ⟨⟨hreset, hlocked, -⟩, -⟩ := id hvalid
  obtain ⟨hrest, htaken, hrelay, hline, hreported⟩ := p.frameValid_spec h hd corrected hlocked
  have hframe : p.headFrame chars = ((p.frameValid h hd corrected).holdSample h hd (payloadOf bytes)).mirrorCopy h .sample bytes := by
    rw [Part.headFrame_valid hvalid, Part.takeKind, hkind]
  generalize p.frameValid h hd corrected = v at hrest htaken hrelay hline hreported hframe
  generalize hheld : v.holdSample h hd (payloadOf bytes) = w at hframe
  have hwreported : p.Reported w [.validFrames h, .lostFrames h, .correctedHeaders, .mirrorDrops]
      ((p.hlu.heads[h]).change (p.goodRecord h hd.sequence)) := by
    rw [← hheld]
    exact (hreported.mono (by simp)).of_eq rfl rfl
  obtain ⟨hrlu, hjoined, hmirror, hcounter, hcounters, hraised⟩ := Part.mirrorCopy_reported hwreported (by simp) h .sample bytes
  have hwrest : w = { p with hlu := w.hlu, shu := w.shu, rlu := w.rlu, evu := w.evu } := by
    rw [← hheld, hrest]
    rfl
  have htime : v.frameDeadline v.time = p.frameDeadline p.time := by rw [hrest]; rfl
  have hvtime : v.time = p.time := by rw [hrest]
  have hvshu : v.shu = p.shu := by rw [hrest]
  have hcopied := w.mirrorCopy_rest h .sample bytes
  have hhlu : (w.mirrorCopy h .sample bytes).hlu = { v.hlu with heads := vmodify v.hlu.heads h fun r =>
      { r with held := some ⟨p.time, channelMeans (payloadOf bytes) hd.channels hd.samples⟩ } } := by
    rw [hcopied, ← hheld, ← hvtime]
    rfl
  have hshu : (w.mirrorCopy h .sample bytes).shu = { p.shu with
      freshness := vmodify p.shu.freshness h fun _ => some (p.frameDeadline p.time) } := by
    rw [hcopied, ← hheld, ← htime, ← hvshu]
    rfl
  have hcopy : (w.oru.settings.mirrors[h] && w.rnc.runState != .parked) = copy := by rw [hwrest]
  rw [hcopy] at hmirror hcounter
  have hvcounter : ∀ c, w.counter c = v.counter c := fun c => by rw [← hheld]; rfl
  obtain ⟨-, -, -, -, -, hrecord, -⟩ := id htaken
  refine ⟨w.mirrorCopy h .sample bytes, ?_, Part.sample_trans hwrest hcopied, ?_, ?_, ?_, ?_, ?_, fun g hg => ?_, hrlu, hjoined, hmirror, ?_,
    hcounters, hraised⟩
  · rw [← hframe]
    exact live_nextWith s (fun q => q.headFrame chars) hreset
  · refine htaken.of_taken (by rw [hhlu]) ?_ (fun g hg => ?_) fun c hc => ?_
    · rw [hhlu]
      refine (vmodify_get _ _ _ _).trans ((if_pos rfl).trans ?_)
      rw [hrecord]
      rfl
    · rw [hhlu]
      exact (vmodify_get _ _ _ _).trans (if_neg hg.symm)
    · rw [hcounter, hvcounter, if_neg]
      rintro ⟨rfl, -⟩
      simp at hc
  · rw [hhlu]
    exact hrelay
  · rw [hhlu]
    exact hline
  · rw [hshu]
  · rw [hshu]
    exact (vmodify_get _ _ _ _).trans (if_pos rfl)
  · rw [hshu]
    exact (vmodify_get _ _ _ _).trans (if_neg hg.symm)
  · rw [hcounter, hvcounter, hreported.counter (by simp)]
    simp

/-! ## STATUS frames (R18) -/

/-- A valid frame leaves the status of its head's record with its latches and masks. -/
theorem HeadRecord.good_status (r : HeadRecord) (pass : Nat) :
    (r.good pass).status = r.status ∧ (r.good pass).riseLatch = r.riseLatch ∧ (r.good pass).fallLatch = r.fallLatch ∧
      (r.good pass).riseMask = r.riseMask ∧ (r.good pass).fallMask = r.fallMask := by
  unfold HeadRecord.good
  split
  · exact ⟨rfl, rfl, rfl, rfl, rfl⟩
  · exact ⟨rfl, rfl, rfl, rfl, rfl⟩
  · exact ⟨rfl, rfl, rfl, rfl, rfl⟩
  · exact ⟨rfl, rfl, rfl, rfl, rfl⟩
  · split
    · exact ⟨rfl, rfl, rfl, rfl, rfl⟩
    · exact ⟨rfl, rfl, rfl, rfl, rfl⟩

theorem Part.takeStatus_hlu (p : Part) (h : Head) (new : BitVec 8) : (p.takeStatus h new).hlu = { p.hlu with
    heads := vmodify p.hlu.heads h fun x => { x with
      status := new, riseLatch := x.riseLatch ||| (p.hlu.heads[h]).rises new
      fallLatch := x.fallLatch ||| (p.hlu.heads[h]).falls new } } := by
  unfold Part.takeStatus
  dsimp only
  split
  · rfl
  · simp only [Part.raise_frame]
    rfl

/-- The event of a status change. -/
def HeadRecord.statusEvents (r : HeadRecord) (new : BitVec 8) : List Event :=
  if r.rises new ||| r.falls new = 0#8 then [] else [.headStatus]

theorem Part.takeStatus_reported (p : Part) (h : Head) (new : BitVec 8) (cs : List Counter) :
    p.Reported (p.takeStatus h new) cs ((p.hlu.heads[h]).statusEvents new) := by
  unfold Part.takeStatus HeadRecord.statusEvents
  dsimp only
  split
  · exact (Part.Reported.refl p cs).of_eq rfl rfl
  · exact ((Part.Reported.refl p cs).of_eq (r := p.onHead h _) rfl rfl).raise _

/-- Settles O12: the frame's common effects, the record's status, the event of its change, and the copy. -/
theorem statusFrameTaken : Obligations.StatusFrameTaken := by
  intro s chars bytes hd corrected h hvalid hkind p r new rises falls copy
  obtain ⟨⟨hreset, hlocked, -⟩, -⟩ := id hvalid
  obtain ⟨hrest, htaken, hrelay, hline, hreported⟩ := p.frameValid_spec h hd corrected hlocked
  have hframe : p.headFrame chars = ((p.frameValid h hd corrected).takeStatus h new).mirrorCopy h .status bytes := by
    rw [Part.headFrame_valid hvalid, Part.takeKind, hkind]
  generalize p.frameValid h hd corrected = v at hrest htaken hrelay hline hreported hframe
  obtain ⟨-, -, -, -, -, hrecord, -⟩ := id htaken
  obtain ⟨hstatus, hriseLatch, hfallLatch, hriseMask, hfallMask⟩ := r.good_status p.oru.settings.passThreshold
  have hrises : (v.hlu.heads[h]).rises new = rises := by
    rw [hrecord]
    exact congrArg₂ (fun a b => ~~~a &&& new &&& b) hstatus hriseMask
  have hfalls : (v.hlu.heads[h]).falls new = falls := by
    rw [hrecord]
    exact congrArg₂ (fun a b => a &&& ~~~new &&& b) hstatus hfallMask
  have hevents : (v.hlu.heads[h]).statusEvents new = if rises ||| falls = 0#8 then [] else [.headStatus] := by
    rw [HeadRecord.statusEvents, hrises, hfalls]
  have hwreported : p.Reported (v.takeStatus h new) [.validFrames h, .lostFrames h, .correctedHeaders, .mirrorDrops]
      ((p.hlu.heads[h]).change (p.goodRecord h hd.sequence) ++ if rises ||| falls = 0#8 then [] else [.headStatus]) := by
    rw [← hevents]
    exact (hreported.mono (by simp)).trans (v.takeStatus_reported h new _)
  obtain ⟨hrlu, hjoined, hmirror, hcounter, hcounters, hraised⟩ := Part.mirrorCopy_reported hwreported (by simp) h .status bytes
  have hwrest := Part.head_trans hrest (Part.eq_of_head_frame (v.takeStatus_frame h new))
  have hcopied := (v.takeStatus h new).mirrorCopy_rest h .status bytes
  have hhlu : ((v.takeStatus h new).mirrorCopy h .status bytes).hlu = { v.hlu with
      heads := vmodify v.hlu.heads h fun x => { x with
        status := new, riseLatch := x.riseLatch ||| rises, fallLatch := x.fallLatch ||| falls } } := by
    rw [← hrises, ← hfalls, hcopied, ← v.takeStatus_hlu]
  have hcopy : ((v.takeStatus h new).oru.settings.mirrors[h] && (v.takeStatus h new).rnc.runState != .parked) = copy := by
    rw [hwrest]
  rw [hcopy] at hmirror hcounter
  have hvcounter : ∀ c ∉ [Counter.statusSent, .noticesLost], (v.takeStatus h new).counter c = v.counter c := fun c hc =>
    (v.takeStatus_reported h new []).counter hc
  generalize v.takeStatus h new = w at *
  refine ⟨w.mirrorCopy h .status bytes, ?_, ?_, ?_, ?_, ?_, hrlu, hjoined, hmirror, ?_, hcounters, hraised⟩
  · rw [← hframe]
    exact live_nextWith s (fun q => q.headFrame chars) hreset
  · exact Part.head_trans hwrest (Part.eq_of_head_frame (by simp))
  · refine htaken.of_taken (by rw [hhlu]) ?_ (fun g hg => ?_) fun c hc => ?_
    · rw [hhlu]
      refine (vmodify_get _ _ _ _).trans ((if_pos rfl).trans ?_)
      rw [hrecord, show (p.goodRecord h hd.sequence).riseLatch = r.riseLatch from hriseLatch,
        show (p.goodRecord h hd.sequence).fallLatch = r.fallLatch from hfallLatch]
    · rw [hhlu]
      exact (vmodify_get _ _ _ _).trans (if_neg hg.symm)
    · simp only [List.mem_cons, List.not_mem_nil, or_false] at hc
      obtain rfl | rfl | rfl := hc
      · rw [hcounter, if_neg (by simp), hvcounter _ (by simp)]
      · rw [hcounter, if_neg (by simp), hvcounter _ (by simp)]
      · rw [hcounter, if_neg (by simp), hvcounter _ (by simp)]
  · rw [hhlu]
    exact hrelay
  · rw [hhlu]
    exact hline
  · rw [hcounter, hvcounter _ (by simp), hreported.counter (by simp)]
    simp

end

end Sys2Proof.Machine

/-! SUPPORT. MARKER frames that are not delivered, REPLY frames, and frames that are discarded. -/

namespace Sys2Proof.Machine

section
variable {p v q : Part} {h : Head} {hd : Header} {corrected : Bool} {bytes : List Byte} {chars : List LineChar}

/-! ## Undelivered markers (R20) -/

theorem headOfAddress_eq_some_iff (a : Nat) (h : Head) : headOfAddress a = some h ↔ a = h.val + 1 := by
  refine ⟨fun hsome => (address_of_headOfAddress hsome).symm, fun ha => ?_⟩
  subst ha
  exact dif_pos (by omega)

/-- A marker that is not delivered is counted, as stray or as withheld. -/
theorem Part.takeMarker_undelivered (code : BitVec 32)
    (hnot : p.oru.settings.markerHead ≠ h.val + 1 ∨ (p.hlu.heads[h]).state.proven = false ∨
      (p.hlu.heads[h]).status.getLsbD 0 = true) :
    p.takeMarker h code = p.bump (if p.oru.settings.markerHead ≠ h.val + 1 then .strayMarkers else .withheldMarkers) := by
  unfold Part.takeMarker
  simp only [headOfAddress_eq_some_iff]
  by_cases hhead : p.oru.settings.markerHead = h.val + 1
  · rw [if_pos hhead, if_neg (not_not.2 hhead), if_neg]
    intro hready
    simp only [Bool.and_eq_true, Bool.not_eq_true', HeadRecord.headFault] at hready
    obtain ⟨hproven, hfault⟩ := hready
    simp_all
  · rw [if_neg hhead, if_pos hhead]

/-- Settles O13: the frame's common effects, and one counter. -/
theorem markerFrameUndelivered : Obligations.MarkerFrameUndelivered := by
  intro s chars bytes hd corrected h hvalid hkind p r stray hundelivered
  obtain ⟨⟨hreset, hlocked, -⟩, -⟩ := id hvalid
  obtain ⟨hrest, htaken, hrelay, hline, hreported⟩ := p.frameValid_spec h hd corrected hlocked
  have hframe : p.headFrame chars =
      (p.frameValid h hd corrected).takeMarker h (BitVec.ofNat 32 (natOfBytes (payloadOf bytes))) := by
    rw [Part.headFrame_valid hvalid, Part.takeKind, hkind]
  generalize p.frameValid h hd corrected = v at hrest htaken hrelay hline hreported hframe
  obtain ⟨-, -, -, -, -, hrecord, -⟩ := id htaken
  have hstray : stray = true ↔ v.oru.settings.markerHead ≠ h.val + 1 := by
    rw [hrest]
    exact bne_iff_ne
  rw [Part.takeMarker_undelivered _ (by rw [hrecord, ← hstray]; exact hundelivered)] at hframe
  have hcounter : ∀ c, c ∉ [Counter.validFrames h, .lostFrames h, .correctedHeaders, .statusSent, .noticesLost] →
      v.counter c = p.counter c := fun c hc => hreported.counter hc
  have hexec : exec (.markerFrame chars) s = nextWith s (p.headFrame chars) :=
    live_nextWith s (fun q => q.headFrame chars) hreset
  have hspec : ∀ c, c = Counter.strayMarkers ∨ c = .withheldMarkers →
      v.bump c = { p with hlu := (v.bump c).hlu, rlu := (v.bump c).rlu, evu := (v.bump c).evu } ∧
      p.ValidFrameTaken (v.bump c) h hd corrected r ∧
      p.Reported (v.bump c) [.validFrames h, .lostFrames h, .correctedHeaders, .strayMarkers, .withheldMarkers]
        ((p.hlu.heads[h]).change r) := fun c hc => by
    refine ⟨Part.head_trans hrest rfl, htaken.of_hlu rfl fun d hd => ?_, (hreported.mono (by simp)).bump (by grind)⟩
    rw [Part.counter_bump, if_neg]
    rintro rfl
    grind
  rw [hexec, hframe]
  by_cases hs : stray = true
  · rw [if_pos (hstray.1 hs)]
    obtain ⟨hrest', htaken', hreported'⟩ := hspec _ (.inl rfl)
    refine ⟨_, rfl, hrest', htaken', hrelay, hline, hreported'.rlu, hreported'.joined, ?_, ?_, hreported'.counters,
      hreported'.raised⟩
    · rw [if_pos hs, Part.counter_bump, if_pos rfl, hcounter _ (by simp)]
    · rw [if_pos hs, Part.counter_bump, if_neg (by decide), hcounter _ (by simp)]
  · rw [if_neg (mt hstray.2 hs)]
    obtain ⟨hrest', htaken', hreported'⟩ := hspec _ (.inr rfl)
    refine ⟨_, rfl, hrest', htaken', hrelay, hline, hreported'.rlu, hreported'.joined, ?_, ?_, hreported'.counters,
      hreported'.raised⟩
    · rw [if_neg hs, Part.counter_bump, if_neg (by decide), hcounter _ (by simp)]
    · rw [if_neg hs, Part.counter_bump, if_pos rfl, hcounter _ (by simp)]

/-! ## REPLY frames (R23, R187) -/

theorem Part.takeReply_answers {x : RelaySlot} {payload : List Byte} (hrelay : p.hlu.relay = some x) (hhead : x.head = h)
    (htag : payload.getD 0 0#8 = x.tag) : p.takeReply h payload = p.completeRelay x .done (payload.drop 1) := by
  unfold Part.takeReply
  rw [hrelay]
  exact if_pos ⟨hhead, htag⟩

theorem Part.takeReply_other {x : RelaySlot} {payload : List Byte} (hrelay : p.hlu.relay = some x)
    (hother : x.head ≠ h ∨ payload.getD 0 0#8 ≠ x.tag) : p.takeReply h payload = p.bump .wrongTagReplies := by
  unfold Part.takeReply
  rw [hrelay]
  exact if_neg fun ⟨hhead, htag⟩ => hother.elim (absurd hhead) (absurd htag)

theorem Part.takeReply_late {payload : List Byte} (hrelay : p.hlu.relay = none) :
    p.takeReply h payload = (p.bump .lateReplies).raise .headReplyLate := by
  unfold Part.takeReply
  rw [hrelay]

/-- A completed relay leaves the Event Unit, and of the link all but the slot and its line. -/
theorem Part.completeRelay_link (p : Part) (x : RelaySlot) (result : Result) (reply : List Byte) :
    (p.completeRelay x result reply).evu = p.evu ∧
      (p.completeRelay x result reply).hlu = { p.hlu with
        relay := (p.completeRelay x result reply).hlu.relay, relayLine := (p.completeRelay x result reply).hlu.relayLine } := by
  unfold Part.completeRelay
  dsimp only
  split
  · exact ⟨rfl, rfl⟩
  · exact ⟨rfl, rfl⟩

/-- What every reply leaves: the link but its slot, and the counters but two. -/
theorem Part.takeReply_keeps (p : Part) (h : Head) (payload : List Byte) :
    (p.takeReply h payload).hlu = { p.hlu with
      relay := (p.takeReply h payload).hlu.relay, relayLine := (p.takeReply h payload).hlu.relayLine } ∧
    p.CountersKeptBut (p.takeReply h payload) ([.wrongTagReplies, .lateReplies] ++ [.statusSent, .noticesLost]) := by
  have hrefl := Part.Reported.refl p [.wrongTagReplies, .lateReplies]
  cases hrelay : p.hlu.relay with
  | none =>
    rw [Part.takeReply_late hrelay]
    refine ⟨?_, ((hrefl.bump (by simp)).raise _).counters⟩
    simp
  | some x =>
    by_cases hanswers : x.head = h ∧ payload.getD 0 0#8 = x.tag
    · obtain ⟨hhead, htag⟩ := hanswers
      obtain ⟨hevu, hhlu⟩ := p.completeRelay_link x .done (payload.drop 1)
      rw [Part.takeReply_answers hrelay hhead htag]
      exact ⟨hhlu, fun i _ => by rw [hevu]⟩
    · rw [Part.takeReply_other hrelay (by rwa [← not_and_or])]
      exact ⟨rfl, (hrefl.bump (by simp)).counters⟩

/-- A part of which the link, the orders, the Recorder Link Unit and the Event Unit alone have moved. -/
theorem Part.reply_trans (hrest : v = { p with hlu := v.hlu, rlu := v.rlu, evu := v.evu })
    (hframe : q.time = v.time ∧ q.resetHeld = v.resetHeld ∧ q.shu = v.shu ∧ q.odu = v.odu ∧ q.pfu = v.pfu ∧ q.tru = v.tru ∧
      q.lmu = v.lmu ∧ q.ext = v.ext ∧ q.rnc = v.rnc) :
    q = { p with hlu := q.hlu, rlu := q.rlu, oru := q.oru, evu := q.evu } := by
  obtain ⟨htime, hheld, hshu, hodu, hpfu, htru, hlmu, hext, hrnc⟩ := hframe
  have hq : q = { v with hlu := q.hlu, rlu := q.rlu, oru := q.oru, evu := q.evu } := by
    rw [← htime, ← hheld, ← hshu, ← hodu, ← hpfu, ← htru, ← hlmu, ← hext, ← hrnc]
  exact hq.trans (by rw [hrest])

/-- Settles O15: the frame's common effects, and one of the three ways of a reply. -/
theorem replyFrameMatched : Obligations.ReplyFrameMatched := by
  intro s chars bytes hd corrected h hvalid hkind p r change
  obtain ⟨⟨hreset, hlocked, -⟩, -⟩ := id hvalid
  obtain ⟨hrest, htaken, hrelay, hline, hreported⟩ := p.frameValid_spec h hd corrected hlocked
  have hframe : p.headFrame chars = (p.frameValid h hd corrected).takeReply h (payloadOf bytes) := by
    rw [Part.headFrame_valid hvalid, Part.takeKind, hkind]
  have hexec : exec (.replyFrame chars) s = nextWith s (p.headFrame chars) :=
    live_nextWith s (fun q => q.headFrame chars) hreset
  rw [hexec, hframe]
  generalize p.frameValid h hd corrected = v at hrest htaken hrelay hline hreported
  obtain ⟨-, -, -, -, -, hrecord, -⟩ := id htaken
  obtain ⟨hhlu, hcounters⟩ := v.takeReply_keeps h (payloadOf bytes)
  have horu : v.oru = p.oru := by rw [hrest]
  have hvcounter : ∀ c, c ∉ [Counter.validFrames h, .lostFrames h, .correctedHeaders, .statusSent, .noticesLost] →
      v.counter c = p.counter c := fun c hc => hreported.counter hc
  refine ⟨_, rfl, Part.reply_trans hrest (by simp), htaken.of_taken ?_ ?_ ?_ ?_, fun i hi => ?_, ?_, ?_, ?_⟩
  · exact hhlu.trans (by rw [hhlu])
  · rw [hhlu, hrecord]
  · exact fun g _ => by rw [hhlu]
  · refine fun c hc => hcounters c.index fun d hd hindex => ?_
    obtain rfl := Counter.index_inj.1 hindex
    grind
  · have hmoved : ∀ cs : List Counter, (∀ c ∈ cs, c ∈ [Counter.validFrames h, .lostFrames h, .correctedHeaders, .wrongTagReplies,
        .lateReplies, .statusSent, .noticesLost]) → ∀ c ∈ cs, c.index ≠ i := fun cs hcs c hc => hi c (hcs c hc)
    rw [hcounters i (hmoved _ (by simp)), hreported.counters i (hmoved _ (by simp))]
  · intro x y hx hy hhead htag
    have hvx : v.hlu.relay = some x := hrelay.trans hx
    obtain ⟨l, hl, hstatus⟩ := hreported.joined
    rw [Part.takeReply_answers hvx hhead htag, Part.completeRelay_eq (by rw [horu]; exact hy), hhead]
    refine ⟨rfl, congrArg _ hline, by rw [← horu], ?_, ⟨l, hstatus, by rw [← hl]⟩, hvcounter _ (by simp), hvcounter _ (by simp),
      hreported.raised⟩
    rw [hreported.rlu]
  · intro x hx hother
    rw [Part.takeReply_other (hrelay.trans hx) hother]
    have hcounted := (hreported.mono (ds := [.validFrames h, .lostFrames h, .correctedHeaders, .wrongTagReplies]) (by simp)).bump
      (c := .wrongTagReplies) (by simp)
    refine ⟨hrelay.trans hx, hline, horu, hcounted.rlu, hcounted.joined, ?_, ?_, hcounted.raised⟩
    · rw [Part.counter_bump, if_pos rfl, hvcounter _ (by simp)]
    · rw [Part.counter_bump, if_neg (by decide), hvcounter _ (by simp)]
  · intro hx
    rw [Part.takeReply_late (hrelay.trans hx)]
    have hcounted := ((hreported.mono (ds := [.validFrames h, .lostFrames h, .correctedHeaders, .lateReplies]) (by simp)).bump
      (c := .lateReplies) (by simp)).raise .headReplyLate
    refine ⟨?_, ?_, ?_, hcounted.rlu, hcounted.joined, ?_, ?_, hcounted.raised⟩
    · simpa using hrelay.trans hx
    · simpa using hline
    · simpa using horu
    · rw [Part.counter_raise _ _ (by decide) (by decide), Part.counter_bump, if_pos rfl, hvcounter _ (by simp)]
    · rw [Part.counter_raise _ _ (by decide) (by decide), Part.counter_bump, if_neg (by decide), hvcounter _ (by simp)]

/-! ## Discarded frames (R6 to R9) -/

theorem exec_headFrame {s : State} {c : Instr} (hreset : s.part.resetHeld = false)
    (hc : c ∈ [Instr.sampleFrame chars, .markerFrame chars, .statusFrame chars, .replyFrame chars]) :
    exec c s = nextWith s (s.part.headFrame chars) := by
  simp only [List.mem_cons, List.not_mem_nil, or_false] at hc
  have hlive := live_nextWith s (fun q => q.headFrame chars) hreset
  obtain rfl | rfl | rfl | rfl := hc
  · exact hlive
  · exact hlive
  · exact hlive
  · exact hlive

/-- A receiver that passes over characters passes over all but a FRAME START (R5, R6). -/
theorem Part.headChars_passing (hlocked : p.hlu.locked = true) (hrx : p.hlu.rx = .passing) (l : List LineChar)
    (hl : ∀ c ∈ l, c ≠ .frameStart ∧ c ≠ .violation) : l.foldl Part.headChar p = p := by
  induction l with
  | nil => rfl
  | cons c l ih =>
    obtain ⟨hstart, hviolation⟩ := hl c (List.mem_cons_self ..)
    have htaken : p.headChar c = p := by
      rw [Part.headChar_locked p c hlocked hviolation, Part.charTaken, if_pos hlocked, hrx]
      cases c with
      | frameStart => exact absurd rfl hstart
      | _ => rfl
    rw [List.foldl_cons, htaken]
    exact ih fun d hd => hl d (List.mem_cons_of_mem _ hd)

/-- A frame with an uncorrectable or impossible header, below the threshold of link errors. -/
theorem Part.headFrame_badHeader (hlocked : p.hlu.locked = true) (hrx : ∀ b x, p.hlu.rx ≠ .inFrame b x)
    (hcarries : Carries chars bytes) (hlength : 4 ≤ bytes.length) (hheader : decodeHeader (headerWord bytes) = none)
    (hbelow : min (p.hlu.linkErrors + 1) 15 < p.oru.settings.headErrorThreshold) :
    p.headFrame chars = p.erred .uncorrectableHeaders .passing := by
  obtain ⟨inner, rfl, hinside, hbytes⟩ := hcarries
  obtain ⟨pre, d, post, rfl, hpre⟩ := split_at_data inner 3 (by rw [hbytes]; omega)
  simp only [List.all_append, List.all_cons, Bool.and_eq_true] at hinside
  obtain ⟨hbefore, -, hafter⟩ := hinside
  rw [dataBytes_append, dataBytes_data] at hbytes
  have htake : bytes.take 4 = dataBytes pre ++ [d] := by
    rw [← hbytes]
    simp [List.take_append, hpre]
  have hword : headerWord (dataBytes pre ++ [d]) = headerWord bytes := by
    unfold headerWord
    rw [htake, List.take_of_length_le (by simp [hpre])]
  have hdata : (p.setRx (.inFrame (dataBytes pre) none)).frameData (dataBytes pre) none d =
      p.erred .uncorrectableHeaders .passing := by
    obtain ⟨hfault, -⟩ := (p.setRx (.inFrame (dataBytes pre) none)).headerError_faulted
    unfold Part.frameData
    dsimp only
    rw [if_neg (by simp [hpre]), hword, hheader]
    exact hfault hbelow
  unfold Part.headFrame
  rw [List.foldl_cons, p.headChar_start hlocked hrx, List.append_assoc, List.foldl_append,
    p.headChars_short hlocked pre [] hbefore (by simp; omega), List.nil_append, List.cons_append, List.foldl_cons,
    p.headChar_data hlocked, hdata]
  refine Part.headChars_passing (p := p.erred .uncorrectableHeaders .passing) hlocked rfl _ fun c hc => ?_
  obtain hc | hc := List.mem_append.1 hc
  · have hc' := List.all_eq_true.1 hafter c hc
    exact ⟨by rintro rfl; simp [LineChar.inside] at hc', by rintro rfl; simp [LineChar.inside] at hc'⟩
  · rw [List.mem_singleton.1 hc]
    exact ⟨nofun, nofun⟩

/-- The counter of a bad frame by its kind. -/
def badCounter (h : Head) (mismatch : Bool) : Counter := if mismatch then .shapeMismatches h else .crcFailures h

/-- A well-framed frame that fails its CRC or its shape. -/
theorem Part.judgeFrame_bad {mismatch : Bool} (hhead : hd.head? = some h) (hcrc : mismatch = false → payloadCrcOk bytes = false)
    (hshape : mismatch = true → payloadCrcOk bytes = true ∧ hd.kind = .sample ∧
      p.oru.settings.shapes[h] ≠ ⟨hd.channels, hd.samples⟩) :
    p.judgeFrame bytes hd = (p.bump (badCounter h mismatch)).badFrame h mismatch := by
  unfold Part.judgeFrame
  rw [hhead]
  dsimp only
  cases mismatch with
  | false => rw [hcrc rfl]; rfl
  | true =>
    obtain ⟨hok, hkind, hne⟩ := hshape rfl
    have hbad : p.shapeOk h hd = false := by
      unfold Part.shapeOk
      rw [hkind]
      exact beq_eq_false_iff_ne.2 hne
    rw [hok, hbad]
    rfl

theorem Part.badFrame_eq (p : Part) (h : Head) (mismatch : Bool) : p.badFrame h mismatch =
    if ((p.hlu.heads[h]).bad mismatch).state = .excluded ∧ (p.hlu.heads[h]).state ≠ .excluded then
      (p.writeHead h ((p.hlu.heads[h]).bad mismatch)).bump (.exclusions h)
    else p.writeHead h ((p.hlu.heads[h]).bad mismatch) := rfl

theorem Part.badFrame_hlu (p : Part) (h : Head) (mismatch : Bool) :
    (p.badFrame h mismatch).hlu = (p.writeHead h ((p.hlu.heads[h]).bad mismatch)).hlu := by
  rw [p.badFrame_eq]
  split
  · rfl
  · rfl

theorem Part.badFrame_reported (p : Part) (h : Head) (mismatch : Bool) {cs : List Counter} (hcs : .exclusions h ∈ cs) :
    p.Reported (p.badFrame h mismatch) cs ((p.hlu.heads[h]).change ((p.hlu.heads[h]).bad mismatch)) := by
  have hwritten := p.writeHead_reported h ((p.hlu.heads[h]).bad mismatch) cs
  rw [p.badFrame_eq]
  split
  · exact hwritten.bump hcs
  · exact hwritten

theorem Part.badFrame_counter (p : Part) (h : Head) (mismatch : Bool) {c : Counter} (hsent : c ≠ .statusSent)
    (hlost : c ≠ .noticesLost) : (p.badFrame h mismatch).counter c =
      if .exclusions h = c ∧ ((p.hlu.heads[h]).bad mismatch).state = .excluded ∧ (p.hlu.heads[h]).state ≠ .excluded then
        counterUp 1 (p.counter c) else p.counter c := by
  have hwritten := p.writeHead_counter h ((p.hlu.heads[h]).bad mismatch) hsent hlost
  rw [p.badFrame_eq]
  split
  · rename_i hexcluded
    rw [Part.counter_bump, hwritten]
    exact if_congr (and_iff_left hexcluded).symm rfl rfl
  · rename_i hkept
    rw [if_neg fun h => hkept h.2, hwritten]

/-- The part after the checks of framing and header, a corrected header counted, the receiver outside the frame. -/
theorem Part.countCorrected_rest (p : Part) (corrected : Bool) : (p.countCorrected corrected).hlu = p.hlu ∧
    (p.countCorrected corrected).oru = p.oru ∧ p.countCorrected corrected = { p with
      hlu := (p.countCorrected corrected).hlu
      rlu := (p.countCorrected corrected).rlu
      evu := (p.countCorrected corrected).evu } := by
  unfold Part.countCorrected
  split
  · exact ⟨rfl, rfl, rfl⟩
  · exact ⟨rfl, rfl, rfl⟩

/-- The part of a bad frame before the head record is written: framed, and counted by what it failed. -/
def Part.badCounted (p : Part) (corrected : Bool) (h : Head) (mismatch : Bool) : Part :=
  ((p.countCorrected corrected).setRx .outside).bump (badCounter h mismatch)

section
variable (p : Part) (corrected : Bool) (h : Head) (mismatch : Bool)

theorem Part.badCounted_rest : (p.badCounted corrected h mismatch).hlu = { p.hlu with rx := .outside } ∧
    p.badCounted corrected h mismatch = { p with
      hlu := (p.badCounted corrected h mismatch).hlu
      rlu := (p.badCounted corrected h mismatch).rlu
      evu := (p.badCounted corrected h mismatch).evu } := by
  obtain ⟨hhlu, -, hrest⟩ := p.countCorrected_rest corrected
  exact ⟨congrArg (fun x : Hlu => { x with rx := .outside }) hhlu, Part.head_trans hrest rfl⟩

theorem Part.badCounted_reported :
    p.Reported (p.badCounted corrected h mismatch) [badCounter h mismatch, .exclusions h, .correctedHeaders] [] := by
  have hcorrected : p.Reported (p.countCorrected corrected) [badCounter h mismatch, .exclusions h, .correctedHeaders] [] := by
    unfold Part.countCorrected
    split
    · exact p.reported_bumpBy (by simp) 1
    · exact .refl p _
  refine Part.Reported.bump ?_ (by simp)
  exact hcorrected.of_eq rfl rfl

theorem Part.badCounted_counter (c : Counter) : (p.badCounted corrected h mismatch).counter c =
    if badCounter h mismatch = c then counterUp 1 ((p.countCorrected corrected).counter c)
    else (p.countCorrected corrected).counter c := Part.counter_bump _ _ c

/-- What a bad frame of a head writes: the receiver's place and the record. -/
theorem Part.badFrame_writes :
    ((p.badCounted corrected h mismatch).badFrame h mismatch).hlu = { p.hlu with
      rx := .outside, heads := vmodify p.hlu.heads h fun _ => (p.hlu.heads[h]).bad mismatch } := by
  obtain ⟨hhlu, -⟩ := p.badCounted_rest corrected h mismatch
  rw [Part.badFrame_hlu, Part.writeHead_hlu, hhlu]

theorem Part.badFrame_reports :
    p.Reported ((p.badCounted corrected h mismatch).badFrame h mismatch)
      [badCounter h mismatch, .exclusions h, .correctedHeaders]
      ((p.hlu.heads[h]).change ((p.hlu.heads[h]).bad mismatch)) := by
  obtain ⟨hhlu, -⟩ := p.badCounted_rest corrected h mismatch
  have hjudged := (p.badCounted corrected h mismatch).badFrame_reported h mismatch
    (cs := [badCounter h mismatch, .exclusions h, .correctedHeaders]) (by simp)
  rw [hhlu] at hjudged
  exact (p.badCounted_reported corrected h mismatch).trans hjudged

theorem Part.badFrame_counts {c : Counter} (hsent : c ≠ .statusSent) (hlost : c ≠ .noticesLost) :
    ((p.badCounted corrected h mismatch).badFrame h mismatch).counter c =
      if .exclusions h = c ∧ ((p.hlu.heads[h]).bad mismatch).state = .excluded ∧ (p.hlu.heads[h]).state ≠ .excluded then
        counterUp 1 ((p.badCounted corrected h mismatch).counter c)
      else (p.badCounted corrected h mismatch).counter c := by
  obtain ⟨hhlu, -⟩ := p.badCounted_rest corrected h mismatch
  rw [Part.badFrame_counter _ h mismatch hsent hlost, hhlu]

end

/-- Settles O16: a bad header stops the receiver; a foreign address, a CRC failure and a shape mismatch are judged on the whole frame. -/
theorem discardedFrames : Obligations.DiscardedFrames := by
  refine ⟨?_, ?_⟩
  · intro s c chars bytes hc hreset hlocked hrx hcarries hlength hheader hbelow
    rw [exec_headFrame hreset hc, Part.headFrame_badHeader hlocked hrx hcarries hlength hheader hbelow]
    rfl
  · intro s c chars bytes hd corrected hc hframe p
    obtain ⟨hreset, -⟩ := id hframe
    rw [exec_headFrame hreset hc, Part.headFrame_whole _ chars bytes hd corrected hframe]
    refine ⟨?_, ?_⟩
    · intro hnone p0
      have hp0 : p0 = p.countCorrected corrected := rfl
      have hhlu : (p.countCorrected corrected).hlu = p.hlu := by
        unfold Part.countCorrected
        split <;> rfl
      rw [Part.judgeFrame, hnone, hp0, ← hhlu]
      rfl
    · intro h mismatch hhead hcrc hshape
      obtain ⟨-, horu, -⟩ := p.countCorrected_rest corrected
      rw [Part.judgeFrame_bad hhead hcrc (fun hm => by
        obtain ⟨hok, hkind, hne⟩ := hshape hm
        exact ⟨hok, hkind, horu ▸ hne⟩)]
      have hwrites := p.badFrame_writes corrected h mismatch
      have hreported := p.badFrame_reports corrected h mismatch
      have hkind : badCounter h mismatch = .shapeMismatches h ∨ badCounter h mismatch = .crcFailures h := by
        cases mismatch
        · exact .inr rfl
        · exact .inl rfl
      refine ⟨(p.badCounted corrected h mismatch).badFrame h mismatch, rfl,
        Part.head_trans (p.badCounted_rest corrected h mismatch).2 (Part.eq_of_head_frame (by simp)), by rw [hwrites], ?_,
        fun g hg => ?_, hreported.rlu, hreported.joined, ?_, ?_, ?_, hreported.counters, hreported.raised⟩
      · rw [hwrites]
        exact (vmodify_get _ _ _ _).trans (if_pos rfl)
      · rw [hwrites]
        exact (vmodify_get _ _ _ _).trans (if_neg hg.symm)
      · show Part.counter _ (badCounter h mismatch) = counterUp 1 (p.counter (badCounter h mismatch))
        obtain hc | hc := hkind
        · rw [Part.badFrame_counts _ _ _ _ (by simp [hc]) (by simp [hc]), if_neg (by simp [hc]), Part.badCounted_counter,
            if_pos rfl, Part.countCorrected_counter, if_neg (by simp [hc])]
        · rw [Part.badFrame_counts _ _ _ _ (by simp [hc]) (by simp [hc]), if_neg (by simp [hc]), Part.badCounted_counter,
            if_pos rfl, Part.countCorrected_counter, if_neg (by simp [hc])]
      · have hcounted : (p.badCounted corrected h mismatch).counter (.exclusions h) = p.counter (.exclusions h) := by
          have hother : badCounter h mismatch ≠ .exclusions h := by obtain hc | hc := hkind <;> simp [hc]
          rw [Part.badCounted_counter, if_neg hother, Part.countCorrected_counter, if_neg (by simp)]
        rw [Part.badFrame_counts _ _ _ _ (by simp) (by simp), hcounted]
        simp
      · have hcounted : (p.badCounted corrected h mismatch).counter .correctedHeaders =
            (p.countCorrected corrected).counter .correctedHeaders := by
          have hother : badCounter h mismatch ≠ .correctedHeaders := by obtain hc | hc := hkind <;> simp [hc]
          rw [Part.badCounted_counter, if_neg hother]
        rw [Part.badFrame_counts _ _ _ _ (by simp) (by simp), if_neg (by simp), hcounted, Part.countCorrected_counter]
        simp

end

end Sys2Proof.Machine

/-! SUPPORT. A delivered marker: the match among the candidates, and a fix in plain values. -/

namespace Sys2Proof.Machine

/-! ## The match among the candidates (R71) -/

/-- A route list entry that a detection fits: a MARKER whose code agrees outside its mask, within the window. -/
def RouteEntry.Fits (w d : Int) (read : BitVec 32) (e : RouteEntry) : Prop :=
  ∃ code mask, e.kind = .marker code mask ∧ (read ^^^ code) &&& ~~~mask = 0#32 ∧ e.distance - w ≤ d ∧ d ≤ e.distance + w

section
variable {w d : Int} {read : BitVec 32} {e : RouteEntry} {n : Nat}

theorem RouteEntry.fits_marker {code mask : BitVec 32} (hkind : e.kind = .marker code mask) :
    e.Fits w d read ↔ markerMatches w d read e.distance code mask = true := by
  unfold RouteEntry.Fits markerMatches
  simp only [hkind, RouteKind.marker.injEq, Bool.and_eq_true, beq_iff_eq, decide_eq_true_eq, and_assoc]
  exact ⟨fun ⟨_, _, hcode, hmask, h⟩ => hcode ▸ hmask ▸ h, fun h => ⟨code, mask, rfl, rfl, h⟩⟩

theorem RouteEntry.not_fits_kpost {km : Nat} (hkind : e.kind = .kpost km) : ¬ e.Fits w d read := by
  rintro ⟨_, _, hmarker, -⟩
  exact RouteKind.noConfusion (hkind.symm.trans hmarker)

theorem findMatch_kpost {km : Nat} (hkind : e.kind = .kpost km) (es : List RouteEntry) :
    findMatch w d read n (e :: es) = (findMatch w d read n es).map fun x => (e :: x.1, x.2) := by
  cases n with
  | zero => cases es <;> rfl
  | succ n => rw [findMatch.eq_def]; simp [hkind]

/-- Nothing is found where no entry among the first `n` MARKERs fits. -/
theorem findMatch_none (l : List RouteEntry)
    (h : ∀ before e after, l = before ++ e :: after → before.countP RouteEntry.isMarker < n → ¬ e.Fits w d read) :
    findMatch w d read n l = none := by
  induction l generalizing n with
  | nil => cases n <;> rfl
  | cons e es ih =>
    cases hkind : e.kind with
    | kpost km =>
      have hpost : e.isMarker = false := by simp [RouteEntry.isMarker, hkind]
      rw [findMatch_kpost hkind, ih fun before x after hes hcount => ?_]
      · rfl
      · exact h (e :: before) x after (congrArg (e :: ·) hes) (by simpa [List.countP_cons, hpost] using hcount)
    | marker code mask =>
      have hmarker : e.isMarker = true := by simp [RouteEntry.isMarker, hkind]
      cases n with
      | zero => rfl
      | succ n =>
        have hmiss := mt (RouteEntry.fits_marker hkind).2 (h [] e es rfl (Nat.succ_pos n))
        rw [findMatch.eq_def]
        simp only [hkind]
        rw [if_neg hmiss, ih fun before x after hes hcount => ?_]
        · rfl
        · exact h (e :: before) x after (congrArg (e :: ·) hes) (by simpa [List.countP_cons, hmarker] using hcount)

/-- The first entry that fits is found where it stands among the first `n` MARKERs. -/
theorem findMatch_first (before : List RouteEntry) (after : List RouteEntry) (hcount : before.countP RouteEntry.isMarker < n)
    (hbefore : ∀ x ∈ before, ¬ x.Fits w d read) (hfits : e.Fits w d read) :
    findMatch w d read n (before ++ e :: after) = some (before, e.distance, after) := by
  induction before generalizing n with
  | nil =>
    obtain ⟨code, mask, hkind, -⟩ := id hfits
    cases n with
    | zero => exact absurd hcount (Nat.not_lt_zero _)
    | succ n =>
      rw [List.nil_append, findMatch.eq_def]
      simp only [hkind]
      rw [if_pos ((RouteEntry.fits_marker hkind).1 hfits)]
  | cons x xs ih =>
    have hxs : ∀ y ∈ xs, ¬ y.Fits w d read := fun y hy => hbefore y (List.mem_cons_of_mem _ hy)
    rw [List.cons_append]
    cases hkind : x.kind with
    | kpost km =>
      have hpost : x.isMarker = false := by simp [RouteEntry.isMarker, hkind]
      rw [findMatch_kpost hkind, ih (by simpa [List.countP_cons, hpost] using hcount) hxs]
      rfl
    | marker code mask =>
      have hmarker : x.isMarker = true := by simp [RouteEntry.isMarker, hkind]
      have hmiss := mt (RouteEntry.fits_marker hkind).2 (hbefore x (List.mem_cons_self ..))
      cases n with
      | zero => exact absurd hcount (Nat.not_lt_zero _)
      | succ n =>
        rw [findMatch.eq_def]
        simp only [hkind]
        rw [if_neg hmiss, ih (by simpa [List.countP_cons, hmarker] using hcount) hxs]
        rfl

end

section
variable (p : Part)

/-! ## A fix in plain values (R72, R73) -/

theorem Part.window_eq : p.window =
    if p.pfu.position = .lost then 4 * (p.oru.settings.matchWindow : Int) else p.oru.settings.matchWindow := by
  unfold Part.window
  split <;> push_cast <;> rfl

/-- The low-water test after entries have gone from the route list (R64). -/
theorem Part.routeLowTest_eq {n : Nat} (hless : p.pfu.routeList.length < n) :
    let low := lowReached p.pfu.lowArmed n p.pfu.routeList.length p.oru.settings.routeLowWater
    let q := p.withPfu { p.pfu with lowArmed := p.pfu.lowArmed && !low }
    p.routeLowTest = if low = true then q.raise .routeLow else q := by
  intro low q
  have hlow : low = (p.pfu.lowArmed && decide (p.pfu.routeList.length ≤ p.oru.settings.routeLowWater)) := by
    simp [low, lowReached, hless]
  unfold Part.routeLowTest
  rw [← hlow]
  dsimp only [q]
  cases low with
  | true => rw [if_pos rfl, if_pos rfl, Bool.not_true, Bool.and_false]
  | false => rw [if_neg nofun, if_neg nofun, Bool.not_false, Bool.and_true]; rfl

/-- The last passed post that stands at a route distance (R63). -/
theorem Part.dropPost_eq : p.dropPost = p.withPfu { p.pfu with
    lastPost := p.pfu.lastPost.filter fun post => decide (post.distance ≤ p.pfu.routeDistance) } := by
  have hsame : ∀ o, p.pfu.lastPost = o → p = p.withPfu { p.pfu with lastPost := o } := by
    rintro _ rfl
    rfl
  unfold Part.dropPost
  cases hpost : p.pfu.lastPost with
  | none => exact hsame none hpost
  | some x =>
    by_cases hbelow : p.pfu.routeDistance < x.distance
    · simp [hbelow, Option.filter_some, Int.not_le.2 hbelow]
    · have hkept : (some x).filter (fun post => decide (post.distance ≤ p.pfu.routeDistance)) = some x := by
        simp [Option.filter_some, Int.not_lt.1 hbelow]
      rw [hkept]
      simp only [if_neg hbelow]
      exact hsame (some x) hpost

theorem Part.fixedAt_eq (m : Int) : p.fixedAt m = p.withPfu { p.pfu with
    routeDistance := m, position := .fixed, sinceFix := some 0, missCount := 0
    lastPost := p.pfu.lastPost.filter fun post => decide (post.distance ≤ m) } :=
  Part.dropPost_eq _

theorem pendingWith_eq (old : Option Int) (c : Int) : pendingWith old c = some (match old with
    | some x => sat32 (x + c)
    | none => c) := by
  cases old <;> rfl

theorem Part.handOff_eq (c : Int) : p.handOff c =
    let q : Part := { p with
      pfu := { p.pfu with pendingCorrection := pendingWith p.pfu.pendingCorrection c }
      ext := { p.ext with slots := p.ext.slots.map fun x => { x with hold := x.hold.correct c } } }
    if p.oru.settings.largeCorrection < c.natAbs then (q.bump .largeCorrections).raise .largeCorrection else q := rfl

/-- The missed markers before a fix, reported: the position and the tables stand. -/
theorem Part.missBefore_rest (n : Nat) : (p.missBefore n).pfu = p.pfu ∧ (p.missBefore n).oru = p.oru ∧
    (p.missBefore n).ext = p.ext ∧ (p.missBefore n).odu = p.odu := by
  unfold Part.missBefore
  split
  · exact ⟨rfl, rfl, rfl, rfl⟩
  · simp

/-- A fix, step by step in the order of R72 and R73. -/
theorem Part.fix_eq (before : List RouteEntry) (m : Int) (after : List RouteEntry)
    (hlist : p.pfu.routeList.length = before.length + 1 + after.length) :
    let c := m - p.pfu.routeDistance
    let missed := before.countP RouteEntry.isMarker
    let left := before.filter (fun x => !x.isMarker) ++ after
    let low := lowReached p.pfu.lowArmed p.pfu.routeList.length left.length p.oru.settings.routeLowWater
    let p1 := if missed = 0 then p else (p.bumpBy .missedMarkers missed).raise .markerMissed
    let p2 : Part := { p1 with pfu := { p.pfu with routeList := left, lowArmed := p.pfu.lowArmed && !low } }
    let p3 := if low = true then p2.raise .routeLow else p2
    let p4 := (Part.bump { p3 with pfu := { p3.pfu with
      routeDistance := m
      position := .fixed
      sinceFix := some 0
      missCount := 0
      lastPost := p.pfu.lastPost.filter (fun post => decide (post.distance ≤ m)) } } .fixes).raise .positionFix
    let p5 : Part := { p4 with
      pfu := { p4.pfu with pendingCorrection := pendingWith p.pfu.pendingCorrection c }
      ext := { p.ext with slots := p.ext.slots.map fun x => { x with hold := x.hold.correct c } } }
    let p6 := if p.oru.settings.largeCorrection < c.natAbs then (p5.bump .largeCorrections).raise .largeCorrection else p5
    p.fix before m after = (p6.routeAdvanced false).sectionsAdvanced ∧ p6.pfu.routeDistance = m ∧ p6.pfu.position = .fixed ∧
      p6.odu = p.odu := by
  intro c missed left low p1 p2 p3 p4 p5 p6
  have hless : left.length < p.pfu.routeList.length := by
    have hfilter := List.length_filter_le (fun x : RouteEntry => !x.isMarker) before
    simp only [left, List.length_append]
    omega
  obtain ⟨hpfu, horu, hext, hodu⟩ := p.missBefore_rest missed
  have hlow : (p1.withPfu { p.pfu with routeList := left }).routeLowTest = p3 := by
    have htest := Part.routeLowTest_eq (p1.withPfu { p.pfu with routeList := left }) hless
    rw [show (p1.withPfu { p.pfu with routeList := left }).oru = p.oru from horu] at htest
    exact htest
  have hp3 : p3.pfu = p2.pfu ∧ p3.ext = p2.ext ∧ p3.oru = p2.oru ∧ p3.odu = p2.odu := by
    dsimp only [p3]
    split
    · simp
    · exact ⟨rfl, rfl, rfl, rfl⟩
  obtain ⟨hpfu3, hext3, horu3, hodu3⟩ := hp3
  have hp4 : p4 = ((p3.fixedAt m).bump .fixes).raise .positionFix := by
    rw [Part.fixedAt_eq, hpfu3]
    dsimp only [p4]
    rw [hpfu3]
    rfl
  have hp4rest : p4.pfu.pendingCorrection = p.pfu.pendingCorrection ∧ p4.pfu.routeDistance = m ∧ p4.pfu.position = .fixed ∧
      p4.ext = p.ext ∧ p4.oru = p.oru ∧ p4.odu = p.odu := by
    have hframe : p4.pfu = { p3.pfu with
        routeDistance := m, position := .fixed, sinceFix := some 0, missCount := 0
        lastPost := p.pfu.lastPost.filter (fun post => decide (post.distance ≤ m)) } ∧ p4.ext = p3.ext ∧ p4.oru = p3.oru ∧
        p4.odu = p3.odu := by
      dsimp only [p4]
      simp
    obtain ⟨hpfu4, hext4, horu4, hodu4⟩ := hframe
    rw [hpfu4, hpfu3]
    exact ⟨rfl, rfl, rfl, hext4.trans (hext3.trans hext), horu4.trans (horu3.trans horu), hodu4.trans (hodu3.trans hodu)⟩
  obtain ⟨hpending, hdistance, hposition, hext4, horu4, hodu4⟩ := hp4rest
  have hp6 : p4.handOff c = p6 := by
    have hhanded := p4.handOff_eq c
    rw [hpending, hext4] at hhanded
    exact hhanded.trans (if_congr (by rw [horu4]) rfl rfl)
  have hp6rest : p6.pfu = p5.pfu ∧ p6.odu = p5.odu := by
    dsimp only [p6]
    split
    · simp
    · exact ⟨rfl, rfl⟩
  obtain ⟨hpfu6, hodu6⟩ := hp6rest
  have hfixed : p6.pfu.position = .fixed := by
    rw [hpfu6]
    exact hposition
  refine ⟨?_, ?_, hfixed, ?_⟩
  · rw [← Part.routeAdvance_eq _ _ (by rw [hfixed]; exact nofun), ← Part.sectionAdvance_eq, ← hp6, hp4, ← hlow]
    unfold Part.fix
    dsimp only
    rw [hpfu]
    rfl
  · rw [hpfu6]
    exact hdistance
  · rw [hodu6]
    exact hodu4

end

section
variable {v : Part}

theorem Part.sectionsAdvanced_pfu_odu (p : Part) : p.sectionsAdvanced.pfu = p.pfu ∧ p.sectionsAdvanced.odu = p.odu := by
  rw [← p.sectionAdvance_eq]
  simp

theorem Part.routeAdvanced_distance_odu (p : Part) (skip : Bool) (h : p.pfu.position ≠ .unset) :
    (p.routeAdvanced skip).pfu.routeDistance = p.pfu.routeDistance ∧ (p.routeAdvanced skip).odu = p.odu := by
  rw [← Part.routeAdvance_eq p skip h]
  have hpfu := p.routeAdvance_pfu skip h
  dsimp only at hpfu
  rw [hpfu]
  exact ⟨rfl, by simp⟩

/-- A delivered marker's detection (R20). -/
theorem Part.takeMarker_delivered {h : Head} (code : BitVec 32) (hhead : v.oru.settings.markerHead = h.val + 1)
    (hproven : (v.hlu.heads[h]).state.proven = true) (hfault : (v.hlu.heads[h]).status.getLsbD 0 = false) :
    v.takeMarker h code = v.detect code := by
  have hready : ((v.hlu.heads[h]).state.proven && !(v.hlu.heads[h]).headFault) = true := by
    rw [HeadRecord.headFault, hproven, hfault]
    rfl
  unfold Part.takeMarker
  rw [if_pos ((headOfAddress_eq_some_iff _ h).2 hhead), if_pos hready]

end

/-- Settles O14: the common effects of the frame, then the detection: unset, unmatched, or a fix on the first candidate that fits. -/
theorem markerFrameFixes : Obligations.MarkerFrameFixes := by
  intro s chars bytes hd corrected h hvalid hkind p r read w places fits hhead hproven hfault
  obtain ⟨⟨hreset, hlocked, -⟩, -⟩ := id hvalid
  obtain ⟨hrest, htaken, hrelay, hline, hreported⟩ := p.frameValid_spec h hd corrected hlocked
  have hframe : p.headFrame chars = (p.frameValid h hd corrected).takeMarker h read := by
    rw [Part.headFrame_valid hvalid, Part.takeKind, hkind]
  have hexec : exec (.markerFrame chars) s = nextWith s (p.headFrame chars) :=
    live_nextWith s (fun q => q.headFrame chars) hreset
  generalize p.frameValid h hd corrected = v at hrest htaken hrelay hline hreported hframe
  obtain ⟨-, -, -, -, -, hrecord, -⟩ := id htaken
  have hpfu : v.pfu = p.pfu := by rw [hrest]
  have horu : v.oru = p.oru := by rw [hrest]
  have hext : v.ext = p.ext := by rw [hrest]
  have hodu : v.odu = p.odu := by rw [hrest]
  have hdetect : v.takeMarker h read = v.detect read :=
    Part.takeMarker_delivered read (by rw [horu]; exact hhead) (by rw [hrecord]; exact hproven) (by rw [hrecord]; exact hfault)
  have hwindow : v.window = w := by rw [v.window_eq, hpfu, horu]
  have hplaces : v.candidates = places := by rw [Part.candidates, hpfu]
  refine ⟨v, v.detect read, by rw [hexec, hframe, hdetect], hrest, htaken, hrelay, hline, hreported.rlu, hreported.joined,
    hreported.counters, hreported.raised, fun hunset => ?_, fun hset hnone => ?_, ?_⟩
  · exact if_pos (by rw [hpfu]; exact hunset)
  · have hmatch : findMatch v.window v.pfu.routeDistance read v.candidates v.pfu.routeList = none := by
      rw [hwindow, hplaces, hpfu]
      exact findMatch_none _ hnone
    rw [Part.detect, if_neg (by rw [hpfu]; exact hset), hmatch]
  · intro before e after hset hlist hcount hbefore hfits c missed left low v1 v2 v3 v4 v5 v6
    have hmatch : findMatch v.window v.pfu.routeDistance read v.candidates v.pfu.routeList = some (before, e.distance, after) := by
      rw [hwindow, hplaces, hpfu, hlist]
      exact findMatch_first before after hcount hbefore hfits
    have hfix := v.fix_eq before e.distance after (by rw [hpfu, hlist]; simp; omega)
    simp only [hpfu, horu, hext, hodu, pendingWith_eq] at hfix
    obtain ⟨hfixed, hdistance, hfix6, hodu6⟩ := hfix
    have hdetected : v.detect read = (v6.routeAdvanced false).sectionsAdvanced := by
      rw [Part.detect, if_neg (by rw [hpfu]; exact hset), hmatch]
      exact hfixed
    have hposition : v6.pfu.position ≠ .unset := by
      rw [show v6.pfu.position = .fixed from hfix6]
      exact nofun
    obtain ⟨hpfu', hodu'⟩ := (v6.routeAdvanced false).sectionsAdvanced_pfu_odu
    obtain ⟨hroute, hodu''⟩ := v6.routeAdvanced_distance_odu false hposition
    refine ⟨hdetected, ?_, ?_⟩
    · rw [hdetected, hpfu', hroute]
      exact hdistance
    · rw [hdetected, hodu', hodu'']
      exact hodu6

end Sys2Proof.Machine

/-! SUPPORT. Steps of the encoders, the movement of the route position, and the timers. -/

namespace Sys2Proof.Machine

/-! ## The movement of the route position (R43, R44, R63, R69) -/

/-- What a movement to a fine position leaves: the distance and the residue at it, or held at the limit with a count and a doubt. -/
structure Part.RouteMoved (p q : Part) (fine : Int) : Prop where
  rest : q = { p with
    odu := { p.odu with residue := q.odu.residue }
    pfu := { p.pfu with
      routeDistance := q.pfu.routeDistance, position := q.pfu.position
      lastPost := p.pfu.lastPost.filter fun post => decide (post.distance ≤ q.pfu.routeDistance) }
    evu := q.evu }
  inside : -2147483648000 ≤ fine → fine ≤ 2147483647999 →
    q.pfu.routeDistance * 1000 + q.odu.residue = fine ∧ 0 ≤ q.odu.residue ∧ q.odu.residue ≤ 999 ∧ q.evu = p.evu ∧
      q.pfu.position = p.pfu.position
  beyond : fine < -2147483648000 ∨ 2147483647999 < fine →
    q.pfu.routeDistance = (if fine < 0 then -2147483648 else 2147483647) ∧
      q.odu.residue = (if fine < 0 then 0 else 999) ∧ q.evu = (p.bump .routeSaturations).evu ∧
      q.pfu.position = p.pfu.position.doubted

section
variable (p : Part)

theorem Part.placeAt_eq (route residue : Int) : p.placeAt route residue = { p with
    odu := { p.odu with residue := residue }
    pfu := { p.pfu with
      routeDistance := route
      lastPost := p.pfu.lastPost.filter fun post => decide (post.distance ≤ route) } } := by
  unfold Part.placeAt
  rw [Part.dropPost_eq]
  rfl

/-- A movement while a position is set. -/
theorem Part.moveRoute_moved (d : Int) (hset : p.pfu.position ≠ .unset) :
    p.RouteMoved (p.moveRoute d) (p.finePosition + d) := by
  unfold Part.moveRoute
  rw [if_neg hset]
  dsimp only
  by_cases hbelow : p.finePosition + d < -2147483648000
  · rw [if_pos hbelow, Part.placeAt_eq]
    refine ⟨rfl, fun hlow _ => absurd hbelow (Int.not_lt.2 hlow), fun _ => ?_⟩
    rw [if_pos (by omega), if_pos (by omega)]
    exact ⟨rfl, rfl, rfl, rfl⟩
  · rw [if_neg hbelow]
    by_cases habove : 2147483647999 < p.finePosition + d
    · rw [if_pos habove, Part.placeAt_eq]
      refine ⟨rfl, fun _ hhigh => absurd habove (Int.not_lt.2 hhigh), fun _ => ?_⟩
      rw [if_neg (by omega), if_neg (by omega)]
      exact ⟨rfl, rfl, rfl, rfl⟩
    · rw [if_neg habove, Part.placeAt_eq]
      refine ⟨rfl, fun _ _ => ⟨?_, ?_, ?_, rfl, rfl⟩, fun hout => absurd hout (not_or.2 ⟨hbelow, habove⟩)⟩
      · dsimp only
        omega
      · exact Int.emod_nonneg _ (by decide)
      · dsimp only
        omega

/-- A movement does not make a set position UNSET. -/
theorem Part.RouteMoved.set {p q : Part} {fine : Int} (h : p.RouteMoved q fine) (hset : p.pfu.position ≠ .unset) :
    q.pfu.position ≠ .unset := by
  by_cases hin : -2147483648000 ≤ fine ∧ fine ≤ 2147483647999
  · obtain ⟨-, -, -, -, hposition⟩ := h.inside hin.1 hin.2
    rwa [hposition]
  · obtain ⟨-, -, -, hposition⟩ := h.beyond (by omega)
    rw [hposition]
    cases hp : p.pfu.position with
    | unset => exact absurd hp hset
    | _ => simp [PositionState.doubted]

theorem Part.moveRoute_unset (d : Int) (hunset : p.pfu.position = .unset) : p.moveRoute d = p := if_pos hunset

/-! ### Fix validity (R67, R68) -/

theorem Part.fixExpired_iff : p.fixExpired = true ↔
    ∃ n, p.pfu.sinceFix = some n ∧ p.oru.settings.fixValidity * 1000000 < n := by
  unfold Part.fixExpired
  cases p.pfu.sinceFix <;> simp

theorem Part.validityTest_eq : p.validityTest = p.withPfu { p.pfu with
    position := if p.pfu.position = .fixed ∧ (∃ n, p.pfu.sinceFix = some n ∧ p.oru.settings.fixValidity * 1000000 < n)
      then .deadReckoned else p.pfu.position } := by
  unfold Part.validityTest
  simp only [p.fixExpired_iff]
  split
  · rfl
  · rfl

/-! ## Steps (R41, R42, R45, R48) -/

theorem decodePhases_same (a b : Bool) : decodePhases a b a b = .same := by simp [decodePhases]

theorem decodePhases_both {a b c d : Bool} (ha : c ≠ a) (hb : d ≠ b) : decodePhases a b c d = .quadratureError := by
  revert a b c d
  decide

theorem decodePhases_up (a b c d : Bool) : decodePhases a b c d = .up ↔
    [(false, false, true, false), (true, false, true, true), (true, true, false, true), (false, true, false, false)].contains
      (a, b, c, d) = true := by
  revert a b c d
  decide

theorem decodePhases_down (a b c d : Bool) : decodePhases a b c d = .down ↔
    [(true, false, false, false), (true, true, true, false), (false, true, true, true), (false, false, false, true)].contains
      (a, b, c, d) = true := by
  revert a b c d
  decide

theorem aheadDistance_eq (sense : Sense) (up : Bool) (dist : Nat) :
    aheadDistance sense up dist = if (up = true ↔ sense = .aheadPositive) then (dist : Int) else -dist := by
  cases sense <;> cases up <;> rfl

/-- Where no motion event is due, none is made (log 3). -/
theorem Part.settleMotion_idle (hreversal : p.odu.reversalDue = false) (htick : p.odu.high < p.odu.nextTick)
    (hwatch : (p.odu.channel (otherEncoder p.odu.active)).window < p.oru.settings.recordSpacing * 2000) :
    p.settleMotion = p := by
  have hreverse : p.reversalEvent = p := if_neg (by rw [hreversal]; exact Bool.false_ne_true)
  have htick' : p.tickEvent = p := if_neg (by simpa [Part.tickDue] using htick)
  have hwatch' : p.watchEvent = p := if_neg (by
    rw [Part.watchDue, Bool.and_eq_true, decide_eq_true_eq]
    omega)
  rw [Part.settleMotion, hreverse, htick', hwatch']

theorem Part.stepChannel_setPhases (c : Encoder) (a b : Bool) (d : Int) : (p.setPhases c a b).stepChannel c d =
    (let q := p.withOdu (p.odu.withChannel c (Channel.stepBy { p.odu.channel c with phaseA := a, phaseB := b } d))
    if p.odu.active = c then q.activeStep d else q) := by
  cases c <;> rfl

theorem Part.reversalTest_eq (d : Int) : p.reversalTest d = p.withOdu { p.odu with
    reversalDue := p.odu.reversalDue || decide (d < 0 ∧
      (p.oru.settings.reversalDistance : Int) * 1000 ≤ p.odu.high - p.odu.ahead) } := by
  unfold Part.reversalTest
  split
  · rename_i hdue
    rw [decide_eq_true hdue, Bool.or_true]
  · rename_i hnot
    rw [decide_eq_false hnot, Bool.or_false]
    rfl

theorem Odu.advance_eq (o : Odu) (d : Int) : o.advance d = { o with
    ahead := sat64 (o.ahead + d), high := max o.high (sat64 (o.ahead + d)) } := by
  unfold Odu.advance
  dsimp only
  congr 1
  split <;> omega

end

section
variable {p : Part} {d : Int}

/-- A step of the active channel while the position is UNSET. -/
theorem Part.activeStep_unset (hunset : p.pfu.position = .unset) :
    p.activeStep d = (p.withOdu (p.odu.advance d)).reversalTest d := by
  unfold Part.activeStep
  dsimp only
  rw [Part.moveRoute_unset _ _ (by exact hunset), Part.addTravel, if_pos (by exact hunset), Part.validityTest, if_neg]
  rintro ⟨hfixed, -⟩
  exact absurd (hunset.symm.trans hfixed) (by decide)

/-- A step of the active channel while a position is set, from the movement of the route position on. -/
theorem Part.activeStep_set (hset : p.pfu.position ≠ .unset) :
    ∃ m : Part, (p.withOdu (p.odu.advance d)).RouteMoved m (p.finePosition + p.odu.direction.sign * d) ∧
      p.activeStep d = ((m.withPfu { m.pfu with
        sinceFix := m.pfu.sinceFix.map fun n => travelled n d.natAbs }).validityTest).reversalTest d := by
  have hmoved := (p.withOdu (p.odu.advance d)).moveRoute_moved ((p.withOdu (p.odu.advance d)).routeSign * d) hset
  refine ⟨_, hmoved, ?_⟩
  unfold Part.activeStep
  dsimp only
  rw [Part.addTravel, if_neg (hmoved.set hset)]

end

section
variable {p : Part} {d : Int}

theorem Part.activeStep_odu_unset (hunset : p.pfu.position = .unset) : p.activeStep d = p.withOdu { p.odu.advance d with
    reversalDue := p.odu.reversalDue || decide (d < 0 ∧
      (p.oru.settings.reversalDistance : Int) * 1000 ≤ (p.odu.advance d).high - (p.odu.advance d).ahead) } := by
  rw [Part.activeStep_unset hunset, Part.reversalTest_eq]
  rfl

/-- What a step of the active channel leaves while a position is set (R43 to R45, R48, R63, R67 to R69). -/
theorem Part.activeStep_spec (hset : p.pfu.position ≠ .unset) :
    let q := p.activeStep d
    let fine := p.finePosition + p.odu.direction.sign * d
    q = { p with odu := q.odu, pfu := q.pfu, evu := q.evu } ∧
      q.odu = { p.odu.advance d with
        residue := q.odu.residue
        reversalDue := p.odu.reversalDue || decide (d < 0 ∧
          (p.oru.settings.reversalDistance : Int) * 1000 ≤ (p.odu.advance d).high - (p.odu.advance d).ahead) } ∧
      q.pfu = { p.pfu with
        routeDistance := q.pfu.routeDistance, position := q.pfu.position
        sinceFix := p.pfu.sinceFix.map fun n => travelled n d.natAbs
        lastPost := p.pfu.lastPost.filter fun post => decide (post.distance ≤ q.pfu.routeDistance) } ∧
      (-2147483648000 ≤ fine → fine ≤ 2147483647999 →
        q.pfu.routeDistance * 1000 + q.odu.residue = fine ∧ 0 ≤ q.odu.residue ∧ q.odu.residue ≤ 999 ∧ q.evu = p.evu ∧
          q.pfu.position = if p.pfu.position = .fixed ∧
              (∃ n, q.pfu.sinceFix = some n ∧ p.oru.settings.fixValidity * 1000000 < n) then .deadReckoned
            else p.pfu.position) ∧
      (fine < -2147483648000 ∨ 2147483647999 < fine →
        q.pfu.routeDistance = (if fine < 0 then -2147483648 else 2147483647) ∧
          q.odu.residue = (if fine < 0 then 0 else 999) ∧ q.evu = (p.bump .routeSaturations).evu ∧
          q.pfu.position = p.pfu.position.doubted) := by
  intro q fine
  obtain ⟨m, ⟨hrest, hinside, hbeyond⟩, hq⟩ := Part.activeStep_set (d := d) hset
  rw [Part.reversalTest_eq, Part.validityTest_eq] at hq
  replace hq : q = _ := hq
  clear_value q
  have hmodu : m.odu = { p.odu.advance d with residue := m.odu.residue } := by rw [hrest]; rfl
  have hmpfu : m.pfu = { p.pfu with
      routeDistance := m.pfu.routeDistance, position := m.pfu.position
      lastPost := p.pfu.lastPost.filter fun post => decide (post.distance ≤ m.pfu.routeDistance) } := by rw [hrest]; rfl
  have hmoru : m.oru = p.oru := by rw [hrest]; rfl
  have hqodu : q.odu = { m.odu with reversalDue := m.odu.reversalDue || decide (d < 0 ∧
      (m.oru.settings.reversalDistance : Int) * 1000 ≤ m.odu.high - m.odu.ahead) } := by rw [hq]; rfl
  have hqpfu : q.pfu = { m.pfu with
      sinceFix := m.pfu.sinceFix.map fun n => travelled n d.natAbs
      position := q.pfu.position } := by rw [hq]; rfl
  have hqposition : q.pfu.position = if m.pfu.position = .fixed ∧ (∃ n, q.pfu.sinceFix = some n ∧
      p.oru.settings.fixValidity * 1000000 < n) then .deadReckoned else m.pfu.position := by
    rw [← hmoru, hq]
    rfl
  have hqevu : q.evu = m.evu := by rw [hq]; rfl
  have hqrest : q = { p with odu := q.odu, pfu := q.pfu, evu := q.evu } := by
    rw [hq, hrest]
    rfl
  have hresidue : q.odu.residue = m.odu.residue := by rw [hqodu]
  have hdistance : q.pfu.routeDistance = m.pfu.routeDistance := by rw [hqpfu]
  refine ⟨hqrest, ?_, ?_, fun hlow hhigh => ?_, fun hout => ?_⟩
  · rw [hresidue, hqodu, hmoru, hmodu]
    rfl
  · rw [hdistance, hqpfu, hmpfu]
  · obtain ⟨hfine, hres0, hres9, hevu, hposition⟩ := hinside hlow hhigh
    refine ⟨by rw [hdistance, hresidue, hfine], by rwa [hresidue], by rwa [hresidue], hqevu.trans hevu, ?_⟩
    rw [hqposition, hposition]
    rfl
  · obtain ⟨hroute, hres, hevu, hposition⟩ := hbeyond hout
    refine ⟨hdistance.trans hroute, hresidue.trans hres, hqevu.trans hevu, ?_⟩
    rw [hqposition, if_neg, hposition]
    · rfl
    · rintro ⟨hfixed, -⟩
      exact PositionState.doubted_ne_fixed _ (hposition.symm.trans hfixed)

end

/-- Settles O19: no event, a quadrature error, or a step, of the other channel or of the active one with what it moves. -/
theorem encoderSteps : Obligations.EncoderSteps := by
  intro s c a b p x dist up down d x1 fine hreset hreversal htick hwatch
  have hsettled : p.settleMotion = p := p.settleMotion_idle hreversal htick hwatch
  have hexec : exec (.encoderStep c a b) s = nextWith s (p.phaseChange c a b) := by
    have hlive := live_nextWith s (fun q => q.settleMotion.phaseChange c a b) hreset
    rw [show s.part.settleMotion = s.part from hsettled] at hlive
    exact (if_neg (by rw [show s.part.resetHeld = false from hreset]; exact Bool.false_ne_true)).trans hlive
  rw [hexec]
  have hstep : up = true ∨ down = true → p.phaseChange c a b =
      if p.odu.active = c then (p.withOdu (p.odu.withChannel c x1)).activeStep d else p.withOdu (p.odu.withChannel c x1) := by
    intro hmoves
    have hdistance : ∀ counts : Bool, (counts = true ↔ up = true) →
        aheadDistance p.odu.sense counts (p.oru.settings.stepDistance c) = d := fun counts hcounts => by
      have hdist : ((p.oru.settings.stepDistance c : Nat) : Int) = dist := by cases c <;> rfl
      rw [aheadDistance_eq, hdist]
      exact if_congr (by rw [hcounts]) rfl rfl
    have htaken : p.phaseChange c a b = (p.setPhases c a b).stepChannel c d := by
      by_cases hup : up = true
      · rw [Part.phaseChange, (decodePhases_up x.phaseA x.phaseB a b).2 hup]
        dsimp only
        rw [hdistance true (iff_of_true rfl hup)]
      · rw [Part.phaseChange, (decodePhases_down x.phaseA x.phaseB a b).2 (hmoves.resolve_left hup)]
        dsimp only
        rw [hdistance false (iff_of_false Bool.false_ne_true hup)]
    rw [htaken, Part.stepChannel_setPhases]
    rfl
  refine ⟨fun ha hb => ?_, fun ha hb => ?_, fun hmoves hother => ?_, fun hmoves hactive => ?_⟩
  · rw [Part.phaseChange, ha, hb, decodePhases_same]
  · rw [Part.phaseChange, decodePhases_both ha hb]
    rfl
  · rw [hstep hmoves, if_neg (Ne.symm hother)]
    rfl
  · rw [hstep hmoves, if_pos hactive.symm]
    have hadvanced : (p.odu.withChannel c x1).advance d = { p.odu.withChannel c x1 with
        ahead := sat64 (p.odu.ahead + d), high := max p.odu.high (sat64 (p.odu.ahead + d)) } := by
      rw [Odu.advance_eq]
      cases c <;> rfl
    have hkept : (p.odu.withChannel c x1).residue = p.odu.residue ∧ (p.odu.withChannel c x1).reversalDue = false ∧
        (p.odu.withChannel c x1).direction = p.odu.direction := by
      rw [← hreversal]
      cases c <;> exact ⟨rfl, rfl, rfl⟩
    obtain ⟨hresidue, hdue, hdirection⟩ := hkept
    have htravel : d.natAbs = dist.natAbs := by
      dsimp only [d]
      split
      · rfl
      · exact Int.natAbs_neg _
    by_cases hunset : p.pfu.position = .unset
    · have hq := Part.activeStep_odu_unset (p := p.withOdu (p.odu.withChannel c x1)) (d := d) hunset
      simp only [Part.withOdu_odu, hadvanced, hdue, Bool.false_or] at hq
      refine ⟨_, rfl, ?_⟩
      rw [hq]
      exact ⟨rfl, rfl, fun _ => ⟨rfl, hresidue, rfl⟩, fun hset => absurd hunset hset⟩
    · obtain ⟨hrest, hodu, hpfu, hinside, hbeyond⟩ := Part.activeStep_spec (p := p.withOdu (p.odu.withChannel c x1)) (d := d)
        hunset
      have hfine : (p.withOdu (p.odu.withChannel c x1)).finePosition +
          (p.withOdu (p.odu.withChannel c x1)).odu.direction.sign * d = fine := by
        rw [Part.finePosition]
        simp only [Part.withOdu_odu, Part.withOdu_pfu, hresidue, hdirection, fine]
        cases p.odu.direction <;> simp [Direction.sign]
      rw [hfine] at hinside hbeyond
      simp only [Part.withOdu_odu, hadvanced, hdue, Bool.false_or] at hodu
      refine ⟨_, rfl, hrest, hodu, fun h => absurd h hunset, fun _ => ⟨?_, ?_, ?_, hinside, hbeyond⟩⟩
      · rw [hpfu, ← htravel]
        rfl
      · rw [hpfu]
        rfl
      · rw [hpfu]
        rfl

/-! ## Timers (R56, R68, R156, R157) -/

section
variable {p : Part}

theorem Part.historyDue_iff (p : Part) : p.historyDue = true ↔
    ∃ t, p.odu.history.getLast? = some t ∧ 2 ^ 31 ≤ (p.time - t).toNat := by
  unfold Part.historyDue
  cases p.odu.history.getLast? <;> simp

theorem Part.parkDue_iff (p : Part) : p.parkDue = true ↔
    p.rnc.runState = .measuring ∧ ∃ d, p.rnc.parkDeadline = some d ∧ (p.time - d).toNat < 2 ^ 31 := by
  unfold Part.parkDue
  cases p.rnc.parkDeadline <;> simp [reached_iff]

/-- The park timer stopped, PARKED, counted and raised, before the watchdogs and the speed history stop. -/
def Part.parkReported (p : Part) : Part := ((p.stopParkTimer.setRunState .parked).bump .parks).raise .parkChange

theorem Part.parkReported_reported (p : Part) : p.Reported p.parkReported [.parks] [.parkChange] := by
  have hparked : p.Reported (p.stopParkTimer.setRunState .parked) [.parks] [] := (Part.Reported.refl p _).of_eq rfl rfl
  exact (hparked.bump (List.mem_singleton_self _)).raise _

theorem Part.parkReported_rest (p : Part) : p.parkReported = { p with
    rnc := { p.rnc with runState := .parked, parkDeadline := none }
    rlu := p.parkReported.rlu
    evu := p.parkReported.evu } :=
  ((p.stopParkTimer.setRunState .parked).bump .parks).raise_blocks .parkChange

theorem Part.enterParked_eq (p : Part) : p.enterParked = { p.parkReported with
    hlu := { p.parkReported.hlu with heads := p.parkReported.hlu.heads.map fun r => { r with watchdog := none } }
    odu := { p.parkReported.odu with history := [], lastSpeed := none } } := rfl

end

/-- Settles O24: each event in its due case, and nothing before. -/
theorem timersAndDistancesExpire : Obligations.TimersAndDistancesExpire := by
  intro s hreset p
  have hhistory : exec .historyExpiry s = nextWith s p.historyEvent := live_nextWith s Part.historyEvent hreset
  have hvalidity : exec .fixValidityExceeded s = nextWith s p.validityTest := live_nextWith s Part.validityTest hreset
  have hpark : exec .parkTimerExpiry s = nextWith s p.parkEvent := live_nextWith s Part.parkEvent hreset
  rw [hhistory, hvalidity, hpark]
  refine ⟨fun t hlast hpast => ?_, fun hnot => ?_, fun n hfixed hsince hbeyond => ?_, fun hnot => ?_,
    fun d hmeasuring hdeadline hreached => ?_, fun hnot => ?_⟩
  · rw [Part.historyEvent, if_pos (p.historyDue_iff.2 ⟨t, hlast, hpast⟩)]
    rfl
  · rw [Part.historyEvent, if_neg]
    intro hdue
    obtain ⟨t, hlast, hpast⟩ := p.historyDue_iff.1 hdue
    obtain hempty | ⟨t', hlast', hrecent⟩ := hnot
    · rw [hempty] at hlast
      exact Option.some_ne_none t hlast.symm
    · obtain rfl : t = t' := Option.some.inj (hlast.symm.trans hlast')
      omega
  · rw [Part.validityTest_eq, if_pos ⟨hfixed, n, hsince, hbeyond⟩]
    rfl
  · rw [Part.validityTest_eq, if_neg]
    · rfl
    · rintro ⟨hfixed, n, hsince, hbeyond⟩
      obtain hother | hnone | ⟨n', hsince', hwithin⟩ := hnot
      · exact hother hfixed
      · exact Option.some_ne_none n (hsince.symm.trans hnone)
      · obtain rfl : n = n' := Option.some.inj (hsince.symm.trans hsince')
        omega
  · have hreported := p.parkReported_reported
    have hrest := p.parkReported_rest
    rw [Part.parkEvent, if_pos (p.parkDue_iff.2 ⟨hmeasuring, d, hdeadline, hreached⟩), Part.enterParked_eq]
    have hcounter : p.parkReported.counter .parks = counterUp 1 (p.counter .parks) := by
      rw [Part.parkReported, Part.counter_raise _ _ (by decide) (by decide), Part.counter_bump, if_pos rfl]
      rfl
    generalize p.parkReported = r at hreported hrest hcounter
    have hhlu : r.hlu = p.hlu := by rw [hrest]
    have hodu : r.odu = p.odu := by rw [hrest]
    have hrnc : r.rnc = { p.rnc with runState := .parked, parkDeadline := none } := by rw [hrest]
    refine ⟨_, rfl, ?_, hrnc, ?_, fun h => ?_, ?_, hreported.rlu, hreported.joined, hcounter, hreported.counters,
      hreported.raised⟩
    · rw [hrest]
    · rw [hhlu]
    · rw [hhlu]
      exact Vector.getElem_map _ _
    · rw [hodu]
  · rw [Part.parkEvent, if_neg]
    intro hdue
    obtain ⟨hmeasuring, d, hdeadline, hreached⟩ := p.parkDue_iff.1 hdue
    obtain hother | hnone | ⟨d', hdeadline', hfuture⟩ := hnot
    · exact hother hmeasuring
    · exact Option.some_ne_none d (hdeadline.symm.trans hnone)
    · obtain rfl : d = d' := Option.some.inj (hdeadline.symm.trans hdeadline')
      omega

end Sys2Proof.Machine

/-! SUPPORT. A comparison of the channels in plain values, and the ticks and watch points that it stands in. -/

namespace Sys2Proof.Machine

/-! ## The movement of a change of channel (R43, R44, R52, R68) -/

section
variable {p : Part}

theorem Part.moveRoute_reported (p : Part) (d : Int) : p.Reported (p.moveRoute d) [.routeSaturations] [] := by
  have hrefl := Part.Reported.refl p [.routeSaturations]
  by_cases hunset : p.pfu.position = .unset
  · rw [p.moveRoute_unset d hunset]
    exact hrefl
  · obtain ⟨hrest, hinside, hbeyond⟩ := p.moveRoute_moved d hunset
    have hrlu : (p.moveRoute d).rlu = p.rlu := by rw [hrest]
    by_cases hin : -2147483648000 ≤ p.finePosition + d ∧ p.finePosition + d ≤ 2147483647999
    · obtain ⟨-, -, -, hevu, -⟩ := hinside hin.1 hin.2
      exact hrefl.of_eq hrlu hevu
    · obtain ⟨-, -, hevu, -⟩ := hbeyond (by omega)
      exact (hrefl.bump (c := .routeSaturations) (by simp)).of_eq hrlu hevu

/-- The other channel active, A and H moved by `d`. -/
def Part.channelTurned (p : Part) (d : Int) : Part :=
  p.withOdu { p.odu with
    active := otherEncoder p.odu.active
    ahead := sat64 (p.odu.ahead + d)
    high := max p.odu.high (sat64 (p.odu.ahead + d)) }

/-- A change of channel, from the ahead distance on. -/
theorem Part.switchChannel_eq (p : Part) {d : Int}
    (hd : (p.odu.channel (otherEncoder p.odu.active)).window - (p.odu.channel p.odu.active).window = d) :
    p.switchChannel = ((((p.channelTurned d).moveRoute (p.odu.direction.sign * d)).validityTest).bump .channelSwitches) := by
  subst hd
  unfold Part.switchChannel Part.channelTurned
  simp only [Odu.advance_eq]
  rfl

/-- What a change of channel leaves (R52). -/
structure Part.Switched (p q : Part) (d : Int) : Prop where
  rest : q = { p with odu := q.odu, pfu := q.pfu, evu := q.evu }
  odu : q.odu = { p.odu with
    active := otherEncoder p.odu.active
    ahead := sat64 (p.odu.ahead + d)
    high := max p.odu.high (sat64 (p.odu.ahead + d))
    residue := q.odu.residue }
  reported : p.Reported q [.channelSwitches, .routeSaturations] []
  counted : q.counter .channelSwitches = counterUp 1 (p.counter .channelSwitches)
  unset : p.pfu.position = .unset → q.pfu = p.pfu ∧ q.odu.residue = p.odu.residue ∧
    q.counter .routeSaturations = p.counter .routeSaturations
  shifted : p.pfu.position ≠ .unset → p.RouteShifted q d

theorem Part.validityTest_reported (p : Part) (cs : List Counter) : p.Reported p.validityTest cs [] := by
  rw [p.validityTest_eq]
  exact (Part.Reported.refl p cs).of_eq rfl rfl

theorem Part.channelTurned_switched (p : Part) (d : Int) :
    p.Switched ((((p.channelTurned d).moveRoute (p.odu.direction.sign * d)).validityTest).bump .channelSwitches) d := by
  have hstart : p.Reported (p.channelTurned d) [.channelSwitches, .routeSaturations] [] :=
    (Part.Reported.refl p _).of_eq rfl rfl
  have hmoved := (p.channelTurned d).moveRoute_reported (p.odu.direction.sign * d)
  have hodu := Part.moveRoute_odu (p := p.channelTurned d) (p.odu.direction.sign * d)
  have hfixed : ∀ hset : p.pfu.position ≠ .unset, _ := fun hset =>
    (p.channelTurned d).moveRoute_moved (p.odu.direction.sign * d) hset
  have hunmoved : p.pfu.position = .unset → (p.channelTurned d).moveRoute (p.odu.direction.sign * d) = p.channelTurned d :=
    (p.channelTurned d).moveRoute_unset _
  have hframe : (p.channelTurned d).moveRoute (p.odu.direction.sign * d) = { p with
      odu := ((p.channelTurned d).moveRoute (p.odu.direction.sign * d)).odu
      pfu := ((p.channelTurned d).moveRoute (p.odu.direction.sign * d)).pfu
      evu := ((p.channelTurned d).moveRoute (p.odu.direction.sign * d)).evu } := by
    by_cases hunset : p.pfu.position = .unset
    · rw [hunmoved hunset]
      rfl
    · rw [(hfixed hunset).rest]
      rfl
  generalize (p.channelTurned d).moveRoute (p.odu.direction.sign * d) = m at *
  have hsaturations : ((m.validityTest).bump .channelSwitches).counter .routeSaturations = m.counter .routeSaturations := by
    rw [m.validityTest_eq, Part.counter_bump, if_neg (by decide)]
    rfl
  refine ⟨?_, ?_, ?_, ?_, fun hunset => ?_, fun hset => ?_⟩
  · rw [m.validityTest_eq, hframe]
    rfl
  · rw [m.validityTest_eq]
    exact hodu
  · exact ((hstart.trans (hmoved.mono (by simp))).trans (m.validityTest_reported _)).bump (by simp)
  · rw [Part.counter_bump, if_pos rfl, m.validityTest_eq]
    exact congrArg (counterUp 1) (hmoved.counter (by decide))
  · have hvalid : m.validityTest = m := by
      rw [Part.validityTest, if_neg]
      rintro ⟨hposition, -⟩
      rw [hunmoved hunset] at hposition
      exact absurd (hunset.symm.trans hposition) (by decide)
    rw [hsaturations, hvalid, hunmoved hunset]
    exact ⟨rfl, rfl, rfl⟩
  · obtain ⟨hrest, hinside, hbeyond⟩ := hfixed hset
    have hpfu : m.pfu = { p.pfu with
        routeDistance := m.pfu.routeDistance, position := m.pfu.position
        lastPost := p.pfu.lastPost.filter fun post => decide (post.distance ≤ m.pfu.routeDistance) } := by rw [hrest]; rfl
    have horu : m.oru = p.oru := by rw [hrest]; rfl
    have hsince : m.pfu.sinceFix = p.pfu.sinceFix := by rw [hpfu]
    refine ⟨?_, fun hlow hhigh => ?_, fun hout => ?_⟩
    · have hvalid : ((m.validityTest).bump .channelSwitches).pfu = { m.pfu with position := m.validityTest.pfu.position } := by
        rw [m.validityTest_eq]
        rfl
      rw [hvalid]
      exact congrArg (fun x : Pfu => { x with position := m.validityTest.pfu.position }) hpfu
    · obtain ⟨hfine, hres0, hres9, hevu, hposition⟩ := hinside hlow hhigh
      rw [hsaturations, m.validityTest_eq]
      refine ⟨hfine, hres0, hres9, ?_, ?_⟩
      · rw [Part.counter, hevu]
        rfl
      · rw [← horu, ← hsince]
        exact hposition ▸ rfl
    · obtain ⟨hroute, hres, hevu, hposition⟩ := hbeyond hout
      rw [hsaturations, m.validityTest_eq]
      refine ⟨hroute, hres, ?_, ?_⟩
      · rw [Part.counter, hevu]
        exact (p.counter_bump .routeSaturations .routeSaturations).trans (if_pos rfl)
      · refine Eq.trans ?_ hposition
        exact if_neg fun h => PositionState.doubted_ne_fixed _ (hposition.symm.trans h.1)

theorem Part.switchChannel_switched (p : Part) {d : Int}
    (hd : (p.odu.channel (otherEncoder p.odu.active)).window - (p.odu.channel p.odu.active).window = d) :
    p.Switched p.switchChannel d := by
  rw [p.switchChannel_eq hd]
  exact p.channelTurned_switched d

end

/-! ## Zero-step counts (R53) -/

section
variable {p : Part}

/-- A channel that a comparison finds newly faulted (R53). -/
def Channel.newlyFaulted (x y : Channel) : Bool := !x.stepped && y.stepped && decide (x.zeroSteps = 3)

theorem Part.zeroUpdate_eq (p : Part) (c : Encoder) : p.zeroUpdate c =
    (let q := p.withOdu (p.odu.withChannel c ((p.odu.channel c).zeroUpdate (p.missesSteps c)))
    if (p.odu.channel c).newlyFaulted (p.odu.channel (otherEncoder c)) = true then q.bump (faultCounter c) else q) := by
  unfold Part.zeroUpdate Channel.newlyFaulted Part.missesSteps
  dsimp only
  exact if_congr (by simp) rfl rfl

theorem Part.zeroUpdate_counter (p : Part) (c : Encoder) (k : Counter) : (p.zeroUpdate c).counter k =
    if faultCounter c = k ∧ (p.odu.channel c).newlyFaulted (p.odu.channel (otherEncoder c)) = true then
      counterUp 1 (p.counter k) else p.counter k := by
  rw [p.zeroUpdate_eq]
  dsimp only
  split
  · rename_i hfault
    rw [Part.counter_bump]
    exact if_congr (and_iff_left hfault).symm rfl rfl
  · rename_i hnot
    rw [if_neg fun h => hnot h.2]
    rfl

theorem Part.zeroUpdate_reported (p : Part) (c : Encoder) : p.Reported (p.zeroUpdate c) [.faultsE1, .faultsE2] [] := by
  have hrefl := Part.Reported.refl p [.faultsE1, .faultsE2]
  rw [p.zeroUpdate_eq]
  dsimp only
  split
  · refine Part.Reported.bump ?_ (by cases c <;> simp [faultCounter])
    exact hrefl.of_eq rfl rfl
  · exact hrefl.of_eq rfl rfl

theorem Channel.zeroUpdate_stepped (x : Channel) (misses : Bool) : (x.zeroUpdate misses).stepped = x.stepped := by
  unfold Channel.zeroUpdate
  split_ifs <;> rfl

/-- The second update of a comparison judges the window's own steps (R50). -/
theorem Part.zeroUpdate_beside (p : Part) :
    ((p.zeroUpdate .e1).odu.channel .e2).newlyFaulted ((p.zeroUpdate .e1).odu.channel .e1) =
      p.odu.e2.newlyFaulted p.odu.e1 := by
  have hodu : (p.zeroUpdate .e1).odu = p.odu.withChannel .e1 (p.odu.e1.zeroUpdate (p.missesSteps .e1)) := by
    rw [p.zeroUpdate_eq]
    dsimp only
    split <;> rfl
  rw [hodu]
  simp only [Odu.withChannel, Odu.channel, Channel.newlyFaulted, Channel.zeroUpdate_stepped]
  rfl

theorem Part.zeroUpdates_counter (p : Part) (k : Counter) : p.zeroUpdates.counter k =
    if .faultsE1 = k ∧ p.odu.e1.newlyFaulted p.odu.e2 = true then counterUp 1 (p.counter k)
    else if .faultsE2 = k ∧ p.odu.e2.newlyFaulted p.odu.e1 = true then counterUp 1 (p.counter k)
    else p.counter k := by
  have hsecond := (p.zeroUpdate .e1).zeroUpdate_counter .e2 k
  rw [show otherEncoder .e2 = .e1 from rfl, p.zeroUpdate_beside, p.zeroUpdate_counter .e1] at hsecond
  refine hsecond.trans ?_
  by_cases hk : k = .faultsE1
  · subst hk
    simp [faultCounter, Odu.channel, otherEncoder]
  · simp [faultCounter, Ne.symm hk]

theorem Part.zeroUpdates_reported (p : Part) : p.Reported p.zeroUpdates [.faultsE1, .faultsE2] [] :=
  (p.zeroUpdate_reported .e1).trans ((p.zeroUpdate .e1).zeroUpdate_reported .e2)

theorem Part.oduEvu_trans {q r : Part} (h : q = { p with odu := q.odu, evu := q.evu })
    (k : r = { q with odu := r.odu, evu := r.evu }) : r = { p with odu := r.odu, evu := r.evu } :=
  k.trans (by rw [h])

theorem Part.zeroUpdate_rest (p : Part) (c : Encoder) :
    p.zeroUpdate c = { p with odu := (p.zeroUpdate c).odu, evu := (p.zeroUpdate c).evu } := by
  rw [p.zeroUpdate_eq]
  dsimp only
  split <;> rfl

/-- The updates touch the Odometry Unit and the Event Unit alone. -/
theorem Part.zeroUpdates_rest (p : Part) :
    p.zeroUpdates = { p with odu := p.zeroUpdates.odu, evu := p.zeroUpdates.evu } :=
  Part.oduEvu_trans (p.zeroUpdate_rest .e1) ((p.zeroUpdate .e1).zeroUpdate_rest .e2)

/-! ## A comparison (R50 to R53) -/

/-- What a comparison leaves before its new window, by its slip, its change of channel and the movement of that. -/
structure Part.Judged (p w : Part) (slip switch : Bool) (d : Int) : Prop where
  rest : w = { p with odu := w.odu, pfu := w.pfu, rlu := w.rlu, evu := w.evu }
  odu : w.odu = { p.odu with
    active := if switch = true then otherEncoder p.odu.active else p.odu.active
    e1 := p.odu.e1.countedBeside p.odu.e2
    e2 := p.odu.e2.countedBeside p.odu.e1
    ahead := if switch = true then sat64 (p.odu.ahead + d) else p.odu.ahead
    high := if switch = true then max p.odu.high (sat64 (p.odu.ahead + d)) else p.odu.high
    residue := w.odu.residue }
  reported : p.Reported w [.slips, .channelSwitches, .faultsE1, .faultsE2, .routeSaturations]
    (if slip = true then [.slip] else [])
  slips : w.counter .slips = if slip = true then counterUp 1 (p.counter .slips) else p.counter .slips
  switches : w.counter .channelSwitches =
    if switch = true then counterUp 1 (p.counter .channelSwitches) else p.counter .channelSwitches
  faults : ∀ k ∈ [Counter.faultsE1, .faultsE2], w.counter k = p.zeroUpdates.counter k
  still : switch = false ∨ p.pfu.position = .unset →
    w.pfu = p.pfu ∧ w.odu.residue = p.odu.residue ∧ w.counter .routeSaturations = p.counter .routeSaturations
  shifted : switch = true → p.pfu.position ≠ .unset → p.RouteShifted w d

/-- No slip and no change of channel. -/
theorem Part.judged_still (p : Part) (d : Int) : p.Judged p.zeroUpdates false false d := by
  have hrest := p.zeroUpdates_rest
  have hcounter : ∀ k, k ≠ .faultsE1 → k ≠ .faultsE2 → p.zeroUpdates.counter k = p.counter k := fun k h1 h2 => by
    rw [p.zeroUpdates_counter, if_neg fun h => h1 h.1.symm, if_neg fun h => h2 h.1.symm]
  refine ⟨?_, ?_, p.zeroUpdates_reported.mono (by simp), hcounter _ (by decide) (by decide),
    hcounter _ (by decide) (by decide), fun _ _ => rfl, fun _ => ⟨?_, ?_, hcounter _ (by decide) (by decide)⟩,
    fun h => absurd h Bool.false_ne_true⟩
  · rw [hrest]
  · rw [p.zeroUpdates_odu]
    rfl
  · rw [hrest]
  · rw [p.zeroUpdates_odu]

/-- A slip counted beside what stands. -/
theorem Part.Judged.slip {w : Part} {d : Int} (h : p.Judged w false false d) : p.Judged ((w.bump .slips).raise .slip) true false d := by
  have hblocks : (w.bump .slips).raise .slip = { w with
      rlu := ((w.bump .slips).raise .slip).rlu, evu := ((w.bump .slips).raise .slip).evu } := (w.bump .slips).raise_blocks .slip
  have hcounter : ∀ k, k ∉ [Counter.slips, .statusSent, .noticesLost] →
      ((w.bump .slips).raise .slip).counter k = w.counter k := fun k hk => by
    simp only [List.mem_cons, List.not_mem_nil, or_false, not_or] at hk
    obtain ⟨hslips, hsent, hlost⟩ := hk
    rw [Part.counter_raise _ _ hsent hlost, Part.counter_bump, if_neg (Ne.symm hslips)]
  obtain ⟨hrest, hodu, hreported, hslips, hswitches, hfaults, hstill, -⟩ := h
  refine ⟨?_, ?_, (hreported.bump (by simp)).raise _, ?_, ?_, fun k hk => ?_, fun _ => ?_, fun h => absurd h Bool.false_ne_true⟩
  · rw [hblocks, hrest]
  · rw [hblocks]
    exact hodu
  · rw [Part.counter_raise _ _ (by decide) (by decide), Part.counter_bump, if_pos rfl, hslips]
    rfl
  · rw [hcounter _ (by decide), hswitches]
  · rw [← hfaults k hk, hcounter]
    simp only [List.mem_cons, List.not_mem_nil, or_false] at hk ⊢
    obtain rfl | rfl := hk <;> decide
  · obtain ⟨hpfu, hresidue, hsaturations⟩ := hstill (.inl rfl)
    rw [hcounter _ (by decide)]
    exact ⟨by rw [hblocks]; exact hpfu, by rw [hblocks]; exact hresidue, hsaturations⟩

/-- A movement of the route position, read in a part with the same position, settings and saturations. -/
theorem Part.RouteShifted.of_eq {w q : Part} {d : Int} (h : w.RouteShifted q d) (hpfu : w.pfu = p.pfu)
    (hresidue : w.odu.residue = p.odu.residue) (hdirection : w.odu.direction = p.odu.direction) (horu : w.oru = p.oru)
    (hcounter : w.counter .routeSaturations = p.counter .routeSaturations) : p.RouteShifted q d := by
  unfold Part.RouteShifted at h ⊢
  rw [hpfu, hresidue, hdirection, horu, hcounter] at h
  exact h

/-- A change of channel made on what stands. -/
theorem Part.Judged.switch {w : Part} {slip : Bool} {d : Int} (h : p.Judged w slip false d)
    (hd : (w.odu.channel (otherEncoder w.odu.active)).window - (w.odu.channel w.odu.active).window = d) :
    p.Judged w.switchChannel slip true d := by
  obtain ⟨hrest, hodu, hreported, hslips, hswitches, hfaults, hstill, -⟩ := h
  obtain ⟨krest, kodu, kreported, kcounted, kunset, kshifted⟩ := w.switchChannel_switched hd
  obtain ⟨hpfu, hresidue, hsaturations⟩ := hstill (.inl rfl)
  have hactive : w.odu.active = p.odu.active := by rw [hodu]; rfl
  have hahead : w.odu.ahead = p.odu.ahead := by rw [hodu]; rfl
  have hhigh : w.odu.high = p.odu.high := by rw [hodu]; rfl
  refine ⟨?_, ?_, ?_, ?_, ?_, fun k hk => ?_, fun hnot => ?_, fun _ hset => ?_⟩
  · rw [krest, hrest]
  · refine kodu.trans ?_
    rw [hactive, hahead, hhigh, hodu]
    rfl
  · simpa using hreported.trans (kreported.mono (by simp))
  · rw [kreported.counter (by decide), hslips]
  · rw [kcounted, hswitches]
    rfl
  · rw [← hfaults k hk, kreported.counter]
    simp only [List.mem_cons, List.not_mem_nil, or_false] at hk
    obtain rfl | rfl := hk <;> decide
  · obtain ⟨kpfu, kresidue, ksaturations⟩ := kunset (by rw [hpfu]; exact hnot.resolve_left nofun)
    exact ⟨kpfu.trans hpfu, kresidue.trans hresidue, ksaturations.trans hsaturations⟩
  · refine (kshifted (by rwa [hpfu])).of_eq hpfu hresidue ?_ ?_ hsaturations
    · rw [hodu]
    · rw [hrest]

/-- The channel on which H stands, and the one beside it, as a comparison counts them (R53). -/
def Part.activeCounted (p : Part) : Channel :=
  (p.odu.channel p.odu.active).countedBeside (p.odu.channel (otherEncoder p.odu.active))

def Part.otherCounted (p : Part) : Channel :=
  (p.odu.channel (otherEncoder p.odu.active)).countedBeside (p.odu.channel p.odu.active)

/-- A slip that a comparison finds (R51). -/
def Part.slipSeen (p : Part) : Bool :=
  !p.otherCounted.faulted &&
    decide (p.oru.settings.slipLimit * 1000 < (p.activeCounted.window - p.otherCounted.window).natAbs)

/-- A change of channel that a comparison makes (R52), where the prediction is for the other channel or not. -/
def Part.changesChannel (p : Part) (predicted : Bool) : Bool :=
  !p.otherCounted.faulted && (p.activeCounted.faulted || (p.slipSeen && predicted))

theorem Part.zeroUpdates_active (p : Part) : p.zeroUpdates.odu.active = p.odu.active := by rw [p.zeroUpdates_odu]

theorem Part.zeroUpdates_activeChannel (p : Part) :
    p.zeroUpdates.odu.channel p.zeroUpdates.odu.active = p.activeCounted := by
  rw [p.zeroUpdates_odu, Part.activeCounted]
  cases p.odu.active <;> rfl

theorem Part.zeroUpdates_otherChannel (p : Part) :
    p.zeroUpdates.odu.channel (otherEncoder p.zeroUpdates.odu.active) = p.otherCounted := by
  rw [p.zeroUpdates_odu, Part.otherCounted]
  cases p.odu.active <;> rfl

/-- The slip test does not ask which channel is active. -/
theorem Part.zeroUpdates_slipFound (p : Part) (h : p.otherCounted.faulted = false) : p.zeroUpdates.slipFound = p.slipSeen := by
  have hdistance : (p.zeroUpdates.odu.e1.window - p.zeroUpdates.odu.e2.window).natAbs =
      (p.activeCounted.window - p.otherCounted.window).natAbs := by
    rw [← p.zeroUpdates_activeChannel, ← p.zeroUpdates_otherChannel]
    cases p.zeroUpdates.odu.active
    · rfl
    · exact by rw [← Int.natAbs_neg, Int.neg_sub]; rfl
  rw [Part.slipFound, Part.slipSeen, hdistance, h, p.zeroUpdates_frame.2.2.2.2.2.2.2.2.2.2]
  rfl

/-- The comparison before its new window. -/
theorem Part.comparison_judged (p : Part) : ∃ w, p.comparison = (w.newWindow, p.slipSeen) ∧
    p.Judged w p.slipSeen (p.changesChannel p.zeroUpdates.predictionSwitches)
      (p.otherCounted.window - p.activeCounted.window) := by
  unfold Part.comparison
  dsimp only
  rw [p.zeroUpdates_otherChannel]
  cases hfault : p.otherCounted.faulted
  case true =>
    have hslip : p.slipSeen = false := by simp [Part.slipSeen, hfault]
    have hchange : ∀ b, p.changesChannel b = false := fun b => by simp [Part.changesChannel, hfault]
    rw [hslip, hchange]
    exact ⟨_, rfl, p.judged_still _⟩
  case false =>
    have hchange : p.changesChannel p.zeroUpdates.predictionSwitches =
        (p.activeCounted.faulted || (p.slipSeen && p.zeroUpdates.predictionSwitches)) := by
      simp [Part.changesChannel, hfault]
    have hslipped : p.Judged (p.zeroUpdates.countSlip p.slipSeen) p.slipSeen false
        (p.otherCounted.window - p.activeCounted.window) := by
      cases p.slipSeen
      · exact p.judged_still _
      · exact (p.judged_still _).slip
    have hodu : (p.zeroUpdates.countSlip p.slipSeen).odu = p.zeroUpdates.odu := (p.zeroUpdates.countSlip_frame p.slipSeen).2.2.2.2.1
    rw [if_neg Bool.false_ne_true, hchange]
    unfold Part.judgeChannels
    dsimp only
    rw [p.zeroUpdates_activeChannel, p.zeroUpdates_slipFound hfault]
    cases p.activeCounted.faulted || (p.slipSeen && p.zeroUpdates.predictionSwitches)
    · exact ⟨_, rfl, hslipped⟩
    · refine ⟨_, rfl, hslipped.switch ?_⟩
      rw [hodu, p.zeroUpdates_activeChannel, p.zeroUpdates_otherChannel]

/-- The new window touches the windows alone. -/
theorem Part.Judged.compared {w : Part} {predicted : Bool} (h : p.Judged w p.slipSeen (p.changesChannel predicted)
      (p.otherCounted.window - p.activeCounted.window))
    (hpredicted : predicted = p.zeroUpdates.predictionSwitches) : p.Compared w.newWindow p.slipSeen := by
  obtain ⟨hrest, hodu, hreported, hslips, hswitches, hfaults, hstill, hshifted⟩ := h
  have hreport := hreported.of_eq (r := w.newWindow) rfl rfl
  have hchosen : predicted = (match p.odu.lastSpeed with
      | none => false
      | some v =>
        let e : Int := ((v.speed * (p.time - p.odu.lastComparison).toNat / 36 : Nat) : Int)
        decide ((p.otherCounted.window - e).natAbs < (p.activeCounted.window - e).natAbs)) := by
    rw [hpredicted, Part.predictionSwitches, p.zeroUpdates_activeChannel, p.zeroUpdates_otherChannel,
      p.zeroUpdates_frame.1, p.zeroUpdates_odu]
    rfl
  clear hpredicted
  subst hchosen
  have htime : w.time = p.time := by rw [hrest]
  refine ⟨rfl, ?_, ?_, hreport.rlu, hreport.joined, hreport.raised, hslips, hswitches,
    (hfaults _ (by simp)).trans ?_, (hfaults _ (by simp)).trans ?_, hreport.counters, hstill, hshifted⟩
  · rw [Part.newWindow, hrest]
    rfl
  · rw [Part.newWindow, htime]
    exact congrArg (fun o : Odu => { o with
      e1 := { o.e1 with window := 0, stepped := false }
      e2 := { o.e2 with window := 0, stepped := false }
      lastComparison := p.time }) hodu
  · rw [p.zeroUpdates_counter]
    simp [Channel.newlyFaulted]
  · rw [p.zeroUpdates_counter]
    simp [Channel.newlyFaulted]

theorem Part.comparison_compared (p : Part) : p.Compared p.comparison.1 p.comparison.2 := by
  obtain ⟨w, hw, hjudged⟩ := p.comparison_judged
  rw [hw]
  exact hjudged.compared rfl

end

end Sys2Proof.Machine

/-! SUPPORT. The ticks that a comparison leaves to be made, and the watch point. -/

namespace Sys2Proof.Machine

/-! ## Ticks, one for each boundary (R45, R46, R52) -/

section
variable {p q : Part} {found : Bool}

theorem Part.tickDue_iff (p : Part) : p.tickDue = true ↔ p.odu.nextTick ≤ p.odu.high := decide_eq_true_iff

/-- A tick leaves of the odometry what it does not work out. -/
theorem Part.tickDelivered_odu (p : Part) (found : Bool) : (p.tickDelivered found).odu = { p.odu with
    nextTick := satU64 (p.odu.nextTick + p.oru.settings.recordSpacing * 1000)
    slipCarried := false
    history := historyWith p.odu.history p.time
    lastSpeed := p.speedOfTick.1.map (fun v => ⟨v, p.time⟩) } := by
  rw [← p.tickOnce_eq, Part.tickOnce, (Part.deliverTick_frame _ _).2.2.2.1]
  have hspeed : tickSpeed p.nextBoundary.oru.settings.recordSpacing p.nextBoundary.time p.nextBoundary.odu.history =
      p.speedOfTick := tickSpeed_eq p
  unfold Part.speedTick Part.tickData
  rw [hspeed]
  dsimp only
  split <;> rfl

theorem Part.tickDelivered_frame (p : Part) (found : Bool) :
    (p.tickDelivered found).time = p.time ∧ (p.tickDelivered found).resetHeld = p.resetHeld ∧
      (p.tickDelivered found).shu = p.shu ∧ (p.tickDelivered found).oru = p.oru := by
  rw [← p.tickOnce_eq]
  simp

theorem Part.TicksMade.refl (h : p.odu.high < p.odu.nextTick) : p.TicksMade p found :=
  ⟨0, rfl, nofun, h⟩

/-- A due tick before the others. -/
theorem Part.TicksMade.cons (hdue : p.odu.nextTick ≤ p.odu.high) (h : (p.tickDelivered found).TicksMade q found) :
    p.TicksMade q found := by
  obtain ⟨n, hq, hrun, hlast⟩ := h
  refine ⟨n + 1, hq, fun m hm => ?_, hlast⟩
  cases m with
  | zero => exact hdue
  | succ m => exact hrun m (Nat.lt_of_succ_lt_succ hm)

theorem Part.switchTicks_of_not_due (h : p.odu.high < p.odu.nextTick) (found : Bool) (n : Nat) :
    p.switchTicks found n = p := by
  cases n with
  | zero => rfl
  | succ n =>
    rw [Part.switchTicks, if_neg]
    rw [p.tickDue_iff]
    exact Int.not_le.2 h

/-- The ticks are all made where boundaries at least 250 mm apart cannot outlast them. -/
theorem Part.switchTicks_made (found : Bool) (n : Nat) : ∀ {p : Part}, 250 ≤ p.oru.settings.recordSpacing →
    p.odu.high ≤ 9223372036854775807 → p.odu.high < p.odu.nextTick + 250000 * n → p.TicksMade (p.switchTicks found n) found := by
  induction n with
  | zero =>
    intro p _ _ hfuel
    exact .refl (by simpa using hfuel)
  | succ n ih =>
    intro p hspacing hhigh hfuel
    by_cases hdue : p.odu.nextTick ≤ p.odu.high
    · rw [Part.switchTicks, if_pos (p.tickDue_iff.2 hdue), p.tickOnce_eq]
      refine .cons hdue (ih ?_ ?_ ?_)
      · rwa [(p.tickDelivered_frame found).2.2.2]
      · rwa [p.tickDelivered_odu]
      · rw [p.tickDelivered_odu]
        dsimp only
        unfold satU64 clampInt
        push_cast at hfuel ⊢
        omega
    · have hnot := Int.not_le.1 hdue
      rw [Part.switchTicks_of_not_due hnot]
      exact .refl hnot

theorem Part.switchTicks_boundariesPassed_made (found : Bool) (hspacing : 250 ≤ p.oru.settings.recordSpacing)
    (hhigh : p.odu.high ≤ 9223372036854775807) : p.TicksMade (p.switchTicks found p.boundariesPassed) found := by
  refine Part.switchTicks_made found _ hspacing hhigh ?_
  unfold Part.boundariesPassed
  omega

end

/-! ## What a comparison leaves of the odometry (R50) -/

section
variable {p c : Part} {found : Bool}

theorem Part.Compared.rest (h : p.Compared c found) :
    c = { p with odu := c.odu, pfu := c.pfu, rlu := c.rlu, evu := c.evu } := h.2.1

theorem Part.Compared.nextTick (h : p.Compared c found) : c.odu.nextTick = p.odu.nextTick := by
  obtain ⟨-, -, hodu, -⟩ := h
  rw [hodu]

/-- H comes no lower, and no higher than A can come. -/
theorem Part.Compared.high (h : p.Compared c found) :
    p.odu.high ≤ c.odu.high ∧ c.odu.high ≤ max p.odu.high 9223372036854775807 := by
  obtain ⟨-, -, hodu, -⟩ := h
  rw [hodu]
  dsimp only
  unfold sat64 clampInt
  split <;> omega

end

/-! ## The watch point (R50 to R52) -/

theorem Part.watchDue_iff (p : Part) : p.watchDue = true ↔
    ((p.oru.settings.recordSpacing : Int) * 2000 ≤ (p.odu.channel (otherEncoder p.odu.active)).window ∧
      p.odu.high < p.odu.nextTick) := by
  unfold Part.watchDue Part.tickDue
  simp

theorem Channel.countedBeside_window (x y : Channel) : (x.countedBeside y).window = x.window := by
  unfold Channel.countedBeside
  split_ifs <;> rfl

theorem Part.otherCounted_window (p : Part) :
    p.otherCounted.window = (p.odu.channel (otherEncoder p.odu.active)).window := Channel.countedBeside_window _ _

/-- The prediction for the other channel (R52). -/
def Part.otherPredicted (p : Part) : Bool :=
  match p.odu.lastSpeed with
  | none => false
  | some v =>
    decide ((p.otherCounted.window - predictedDistance v.speed (p.time - p.odu.lastComparison)).natAbs <
      (p.activeCounted.window - predictedDistance v.speed (p.time - p.odu.lastComparison)).natAbs)

/-- Whether the comparison changes the active channel, and how far A then moves (R52). -/
def Part.switches (p : Part) : Bool := p.changesChannel p.otherPredicted

def Part.switchDistance (p : Part) : Int :=
  if p.switches = true then p.otherCounted.window - p.activeCounted.window else 0

/-- The odometry after a comparison that changes the channel or not, by the difference of the window distances. -/
def Part.oduCompared (p : Part) (switch : Bool) (d residue : Int) : Odu :=
  { p.odu with
    active := if switch = true then otherEncoder p.odu.active else p.odu.active
    e1 := { p.odu.e1.countedBeside p.odu.e2 with window := 0, stepped := false }
    e2 := { p.odu.e2.countedBeside p.odu.e1 with window := 0, stepped := false }
    lastComparison := p.time
    ahead := if switch = true then sat64 (p.odu.ahead + d) else p.odu.ahead
    high := if switch = true then max p.odu.high (sat64 (p.odu.ahead + d)) else p.odu.high
    residue := residue }

theorem Part.oduCompared_distance (p : Part) (switch : Bool) (d residue : Int) :
    p.oduCompared switch (if switch = true then d else 0) residue = p.oduCompared switch d residue := by
  cases switch <;> rfl

section
variable {p c : Part} {found : Bool}

theorem Part.Compared.odu (h : p.Compared c found) : c.odu = p.oduCompared p.switches p.switchDistance c.odu.residue := by
  obtain ⟨-, -, hodu, -⟩ := h
  exact Eq.trans hodu (p.oduCompared_distance _ _ _).symm

theorem Part.Compared.found_eq (h : p.Compared c found) : found = p.slipSeen := h.1

/-- Where the channel changes and a position is set, the route position moves. -/
theorem Part.Compared.shifted (h : p.Compared c found) (hs : p.switches = true) (hset : p.pfu.position ≠ .unset) :
    p.RouteShifted c p.switchDistance := by
  obtain ⟨-, -, -, -, -, -, -, -, -, -, -, -, hshifted⟩ := h
  rw [show p.switchDistance = _ from if_pos hs]
  exact hshifted hs hset

end

/-- The sign of a direction, as a case split. -/
theorem Direction.sign_mul (x : Direction) (d : Int) : x.sign * d = match x with | .up => d | .down => -d := by
  cases x
  · exact Int.one_mul d
  · exact Int.neg_one_mul d

end Sys2Proof.Machine

open Sys2Proof.Machine in
/-- Settles O22: nothing where no watch point is due; a comparison, its slip carried and the ticks of its change of channel where one is. -/
theorem watchPointTaken : Obligations.WatchPointTaken := by
  intro s hreset p spacing zero act oth slip predicted switch d high fine
  have hexec : exec .watchPoint s = nextWith s p.watchEvent := live_nextWith s Part.watchEvent hreset
  have hwindow : oth.window = (p.odu.channel (otherEncoder p.odu.active)).window := p.otherCounted_window
  have hcompared := p.comparison_compared
  have hcarried : p.comparison.1.odu.slipCarried = p.odu.slipCarried := by
    rw [hcompared.odu]
    rfl
  rw [hexec]
  refine ⟨fun hnot => ?_, fun hfar hbefore hspacing hplaced => ?_, fun hfar hbefore hshort => ?_⟩
  · rw [Part.watchEvent, if_neg]
    rw [p.watchDue_iff, ← hwindow]
    omega
  · rw [Part.watchEvent, if_pos (p.watchDue_iff.2 ⟨hwindow ▸ hfar, hbefore⟩)]
    refine ⟨p.comparison.1, _, p.comparison.2, rfl, hcompared, ?_⟩
    rw [← hcarried]
    refine Part.switchTicks_boundariesPassed_made (p := p.comparison.1.carrySlip p.comparison.2) _ ?_ ?_
    · simpa using hspacing
    · obtain ⟨-, -, hhigh⟩ := hplaced
      exact hcompared.high.2.trans (max_le hhigh le_rfl)
  · have hodu := hcompared.odu
    have hshift := hcompared.shifted
    have hfound := hcompared.found_eq
    have hbelow : p.comparison.1.odu.high < p.comparison.1.odu.nextTick := by
      rw [hcompared.nextTick, hodu]
      exact hshort
    obtain ⟨-, hrest, -, hrlu, hjoined, hraised, hslips, hswitches, -, -, -, hstill, -⟩ := hcompared
    rw [Part.watchEvent, if_pos (p.watchDue_iff.2 ⟨hwindow ▸ hfar, hbefore⟩)]
    dsimp only
    rw [Part.switchTicks_of_not_due (p := p.comparison.1.carrySlip p.comparison.2) hbelow]
    refine ⟨_, rfl, ?_, ?_, hrlu, hjoined, hraised, hslips, hswitches, fun hno => ?_, fun hunset => ?_, fun hs hset hlow hup => ?_⟩
    · rw [Part.carrySlip, hrest]
      rfl
    · rw [Part.carrySlip, hcarried, hfound]
      exact congrArg (fun o : Odu => { o with slipCarried := p.odu.slipCarried || p.slipSeen }) hodu
    · obtain ⟨hpfu, hresidue, -⟩ := hstill (.inl hno)
      exact ⟨hpfu, hresidue⟩
    · obtain ⟨hpfu, hresidue, -⟩ := hstill (.inr hunset)
      exact ⟨hpfu, hresidue⟩
    · obtain ⟨-, hinside, -⟩ := hshift hs hset
      have hfine : p.pfu.routeDistance * 1000 + p.odu.residue + p.odu.direction.sign * p.switchDistance = fine :=
        congrArg (p.pfu.routeDistance * 1000 + p.odu.residue + ·) (Direction.sign_mul p.odu.direction d)
      obtain ⟨hplace, hres0, hres9, -⟩ := hinside (hfine ▸ hlow) (hfine ▸ hup)
      exact ⟨hplace.trans hfine, hres0, hres9⟩

/-! SUPPORT. The label, the current section, and what one tick leaves. -/

namespace Sys2Proof.Machine

/-! ## The kilometre label and the current section (R66, R110) -/

section
variable {p : Part} {d : Int} {x : Post}

theorem betterPost_beyond {best : Option Post} {y : Post} (h : d < y.distance) : betterPost d best y = best := if_pos h

theorem betterPost_first {y : Post} (h : y.distance ≤ d) : betterPost d none y = some y := if_neg (Int.not_lt.2 h)

theorem betterPost_second {b y : Post} (h : y.distance ≤ d) :
    betterPost d (some b) y = if b.distance < y.distance then some y else some b := if_neg (Int.not_lt.2 h)

theorem foldl_betterPost_none (l : List Post) (h : ∀ y ∈ l, d < y.distance) : l.foldl (betterPost d) none = none := by
  induction l with
  | nil => rfl
  | cons y ys ih =>
    rw [List.foldl_cons, betterPost_beyond (h y (by simp))]
    exact ih fun z hz => h z (List.mem_cons_of_mem y hz)

/-- The one latest post that is not beyond `d` stays the candidate. -/
theorem foldl_betterPost_some (l : List Post) : ∀ best : Option Post, (∀ b ∈ best, b.distance ≤ d) → x.distance ≤ d →
    x ∈ best.toList ++ l → (∀ y ∈ best.toList ++ l, y.distance ≤ d → y.distance < x.distance ∨ y = x) →
    l.foldl (betterPost d) best = some x := by
  induction l with
  | nil =>
    intro best _ _ hx _
    simpa using hx
  | cons y ys ih =>
    intro best hbest hxd hx hlatest
    rw [List.foldl_cons]
    have hnext : ∀ b' : Option Post, betterPost d best y = b' → (∀ b ∈ b', b.distance ≤ d) → b'.toList ⊆ best.toList ++ [y] →
        (x ∈ best.toList ++ [y] → x ∈ b'.toList) → ys.foldl (betterPost d) (betterPost d best y) = some x := by
      intro b' hb' hbelow hfrom hkeeps
      rw [hb']
      refine ih b' hbelow hxd ?_ fun z hz => hlatest z ?_
      · rw [List.append_cons, List.mem_append] at hx
        exact List.mem_append.2 (hx.imp_left hkeeps)
      · rw [List.append_cons, List.mem_append]
        exact (List.mem_append.1 hz).imp_left fun h => hfrom h
    have hy := hlatest y (by simp)
    by_cases hbeyond : d < y.distance
    · refine hnext best (betterPost_beyond hbeyond) hbest (by simp) fun h => ?_
      have hne : x ≠ y := by rintro rfl; omega
      simpa [hne] using h
    · have hyd : y.distance ≤ d := Int.not_lt.1 hbeyond
      cases best with
      | none => exact hnext (some y) (betterPost_first hyd) (by simpa using hyd) (by simp) (by simp)
      | some b =>
        have hb := hlatest b (by simp) (hbest b rfl)
        by_cases hlater : b.distance < y.distance
        · refine hnext (some y) ((betterPost_second hyd).trans (if_pos hlater)) (by simpa using hyd) (by simp) fun h => ?_
          have hne : x ≠ b := by
            rintro rfl
            obtain hlt | rfl := hy hyd <;> omega
          simpa [hne] using h
        · refine hnext (some b) ((betterPost_second hyd).trans (if_neg hlater)) hbest (by simp) fun h => ?_
          have hsame : x = y → x = b := by
            rintro rfl
            exact (hb.resolve_left hlater).symm
          obtain h | h : x = b ∨ x = y := by simpa using h
          · simp [h]
          · simp [hsame h]

/-- The posts that a label can come from. -/
def Part.labelPosts (p : Part) : List Post := p.pfu.lastPost.toList ++ postsOf p.pfu.routeList

theorem Part.label_none (h : p.pfu.position = .unset ∨ ∀ x ∈ p.labelPosts, p.pfu.routeDistance < x.distance) :
    p.label = none := by
  unfold Part.label
  by_cases hunset : p.pfu.position = .unset
  · exact if_pos hunset
  · have hposts := h.resolve_left hunset
    rw [if_neg hunset, show p.pfu.lastPost.toList ++ postsOf p.pfu.routeList = p.labelPosts from rfl,
      foldl_betterPost_none _ hposts]

theorem Part.label_latest (hx : x ∈ p.labelPosts) (hset : p.pfu.position ≠ .unset) (hd : x.distance ≤ p.pfu.routeDistance)
    (hlatest : ∀ y ∈ p.labelPosts, y.distance ≤ p.pfu.routeDistance → y.distance < x.distance ∨ y = x) :
    p.label = if 65535999 < p.pfu.routeDistance - x.distance then none
      else some ⟨x.kilometre, p.pfu.routeDistance - x.distance⟩ := by
  unfold Part.label
  rw [if_neg hset, show p.pfu.lastPost.toList ++ postsOf p.pfu.routeList = p.labelPosts from rfl,
    foldl_betterPost_some p.labelPosts none nofun hd hx hlatest]

theorem Part.currentSection_nil (h : p.lmu.sections = []) : p.currentSection = none := by
  rw [Part.currentSection, h]

theorem Part.currentSection_cons {x : TrackSection} {l : List TrackSection} (h : p.lmu.sections = x :: l) :
    p.currentSection = if x.holds p.odu.direction p.pfu.routeDistance then some x else none := by
  rw [Part.currentSection, h]

theorem TrackSection.holds_up {x : TrackSection} {d : Int} : x.holds .up d = true ↔ x.start ≤ d ∧ d < x.finish := by
  simp [TrackSection.holds, beyond]

theorem TrackSection.holds_down {x : TrackSection} {d : Int} : x.holds .down d = true ↔ d ≤ x.start ∧ x.finish < d := by
  simp [TrackSection.holds, beyond]

end

/-! ## One tick, block by block (R46, R85, R154 to R159) -/

section
variable {p : Part} {t : TickData}

/-- A capture takes a sequence number and the pending correction. -/
theorem Part.capture_taken (p : Part) (t : TickData) :
    (p.capture t).tru.nextSeq = p.tru.nextSeq + 1 ∧ (p.capture t).pfu = { p.pfu with pendingCorrection := none } := by
  have hnext : ∀ q : Part, q.emitNext.tru.nextSeq = q.tru.nextSeq := fun q => by
    unfold Part.emitNext
    split
    · rw [Part.retain, Part.withTru_tru, Part.emit_tru]
    · rfl
  refine ⟨(hnext _).trans rfl, ?_⟩
  rw [Part.capture, (Part.emitNext_frame _).2.2.2.2.2.1]
  rfl

theorem Part.runTick_of_halted (h : p.rnc.runState = .halted) (t : Time) : p.runTick t = p := by
  rw [Part.runTick, h]

theorem Part.runTick_rnc (h : p.rnc.runState ≠ .halted) (t : Time) : (p.runTick t).rnc = { p.rnc with
    runState := .measuring, parkDeadline := some (laterBy t (p.oru.settings.parkDelay * 1000)) } := by
  unfold Part.runTick
  split
  · contradiction
  · rfl
  · rename_i hstate
    rw [← hstate]
    rfl
  · simp [Part.startParkTimer, Part.setRunState]

theorem Part.runTick_hlu (h : p.rnc.runState ≠ .parked) (t : Time) : (p.runTick t).hlu = p.hlu := by
  unfold Part.runTick
  split
  · rfl
  · rfl
  · rfl
  · contradiction

/-- Leaving PARKED starts the watchdogs anew and says so. -/
theorem Part.runTick_parked (h : p.rnc.runState = .parked) (t : Time) :
    (p.runTick t).flagSet .parkChange = true ∧ (p.runTick t).hlu = p.freshWatchdogs.hlu := by
  unfold Part.runTick
  rw [h]
  dsimp only
  refine ⟨(p.setRunState .measuring).raise_flagSet .parkChange, ?_⟩
  simp [Part.startParkTimer, Part.setRunState, Part.freshWatchdogs, Part.frameDeadline]

theorem Part.tickAdvance_unset (h : p.pfu.position = .unset) : p.tickAdvance = p := if_pos h

/-- A tick in HALTED reaches neither Run Control nor the TRU, nor the heads. -/
theorem Part.deliverTick_halted (h : p.rnc.runState = .halted) (t : TickData) :
    p.deliverTick t = (p.bump .ticks).tickAdvance := by
  have hrun : (p.bump .ticks).runTick t.time = p.bump .ticks :=
    Part.runTick_of_halted (p := p.bump .ticks) h _
  unfold Part.deliverTick
  dsimp only
  rw [hrun, if_neg]
  rw [(Part.tickAdvance_frame _).2.2.2.2.2.2.2.1]
  exact fun hmeasuring => absurd (h.symm.trans hmeasuring) (by decide)

/-- A tick out of HALTED is captured. -/
theorem Part.deliverTick_running (h : p.rnc.runState ≠ .halted) (t : TickData) :
    p.deliverTick t = (((p.bump .ticks).runTick t.time).tickAdvance).capture t := by
  unfold Part.deliverTick
  refine if_pos ?_
  rw [(Part.tickAdvance_frame _).2.2.2.2.2.2.2.1, Part.runTick_rnc (p := p.bump .ticks) h]

theorem Part.deliverTick_hlu (p : Part) (t : TickData) : (p.deliverTick t).hlu = ((p.bump .ticks).runTick t.time).hlu := by
  unfold Part.deliverTick
  dsimp only
  split <;> simp

theorem Part.deliverTick_tail_onward (p : Part) (t : TickData) :
    Evu.Onward [] ((p.bump .ticks).runTick t.time).evu (p.deliverTick t).evu := by
  have hadvance := Part.tickAdvance_onward (p := (p.bump .ticks).runTick t.time) .rfl
  unfold Part.deliverTick
  dsimp only
  split
  · exact hadvance.trans (Part.capture_onward t .rfl).any
  · exact hadvance

/-- Without a position, neither list is compared. -/
theorem Part.deliverTick_unset (h : p.pfu.position = .unset) (t : TickData) :
    (p.deliverTick t).pfu = { p.pfu with pendingCorrection := (p.deliverTick t).pfu.pendingCorrection } ∧
      (p.deliverTick t).lmu = p.lmu := by
  have hpfu : ((p.bump .ticks).runTick t.time).pfu = p.pfu := by simp
  have hlmu : ((p.bump .ticks).runTick t.time).lmu = p.lmu := by simp
  have hadvance := Part.tickAdvance_unset (p := (p.bump .ticks).runTick t.time) (hpfu ▸ h)
  unfold Part.deliverTick
  dsimp only
  rw [hadvance]
  generalize (p.bump .ticks).runTick t.time = q at hpfu hlmu
  split
  · rw [(Part.capture_taken q t).2, hpfu, (q.capture_frame t).2.2.2.2.2.1, hlmu]
    exact ⟨rfl, rfl⟩
  · rw [hpfu, hlmu]
    exact ⟨rfl, rfl⟩

end

/-! ## The comparison of a tick comes after the boundary is moved on (R45, R50) -/

section
variable {p c : Part} {found : Bool}

/-- A boundary put where it stands in another part. -/
def Part.atBoundary (c p : Part) : Part := c.withOdu { c.odu with nextTick := p.odu.nextTick }

/-- A comparison neither reads nor moves the boundary. -/
theorem Part.Compared.before_boundary (h : p.nextBoundary.Compared c found) : p.Compared (c.atBoundary p) found := by
  obtain ⟨hfound, hrest, hodu, hreports⟩ := h
  refine ⟨hfound, ?_, ?_, hreports⟩
  · exact congrArg (·.atBoundary p) hrest
  · exact congrArg (fun o : Odu => { o with nextTick := p.odu.nextTick }) hodu

theorem Part.Compared.nextBoundary_atBoundary (h : p.nextBoundary.Compared c found) : (c.atBoundary p).nextBoundary = c := by
  have horu : c.oru = p.oru := by
    rw [h.rest]
    rfl
  have hnext : satU64 (p.odu.nextTick + c.oru.settings.recordSpacing * 1000) = c.odu.nextTick := by
    rw [horu]
    exact h.nextTick.symm
  exact congrArg (fun n : Int => c.withOdu { c.odu with nextTick := n }) hnext

/-- The comparison of a tick, with the boundary as it stood, and the tick itself. -/
theorem Part.tickEvent_eq (hdue : p.odu.nextTick ≤ p.odu.high) :
    ∃ c found, p.Compared c found ∧
      p.tickEvent = (c.tickDelivered found).switchTicks found (c.tickDelivered found).boundariesPassed := by
  have hcompared := p.nextBoundary.comparison_compared
  refine ⟨p.nextBoundary.comparison.1.atBoundary p, p.nextBoundary.comparison.2, hcompared.before_boundary, ?_⟩
  rw [← Part.tickOnce_eq, hcompared.nextBoundary_atBoundary, Part.tickEvent, if_pos (p.tickDue_iff.2 hdue)]

/-- What the comparison leaves where the channel does not change. -/
theorem Part.Compared.unswitched (h : p.Compared c found) (hs : p.switches = false) :
    c.odu = { p.odu with
      e1 := { p.odu.e1.countedBeside p.odu.e2 with window := 0, stepped := false }
      e2 := { p.odu.e2.countedBeside p.odu.e1 with window := 0, stepped := false }
      lastComparison := p.time } ∧ c.pfu = p.pfu := by
  have hodu := h.odu
  obtain ⟨-, -, -, -, -, -, -, -, -, -, -, hstill, -⟩ := h
  obtain ⟨hpfu, hresidue, -⟩ := hstill (.inl hs)
  rw [hs, hresidue] at hodu
  exact ⟨hodu, hpfu⟩

/-- The odometry with its speed worked out, which the delivery of a tick starts from. -/
def Part.speedWorked (c : Part) (found : Bool) : Part := c.nextBoundary.speedTick (c.nextBoundary.tickData found)

theorem Part.tickDelivered_eq (c : Part) (found : Bool) :
    c.tickDelivered found = (c.speedWorked found).deliverTick (c.nextBoundary.tickData found) := (c.tickOnce_eq found).symm

theorem Part.speedOfTick_fst (p : Part) : p.speedOfTick.1 =
    (match p.odu.history with
    | [] => none
    | oldest :: _ => some (if (p.time - oldest).toNat = 0 then 5000
        else min 5000 (p.odu.history.length * p.oru.settings.recordSpacing * 36000 / (p.time - oldest).toNat))) := by
  unfold Part.speedOfTick
  cases p.odu.history with
  | nil => rfl
  | cons oldest l =>
    dsimp only
    generalize (oldest :: l).length * p.oru.settings.recordSpacing * 36000 / (p.time - oldest).toNat = v
    by_cases hdt : (p.time - oldest).toNat = 0
    · rw [if_pos (.inl hdt), if_pos hdt]
    · by_cases hfast : 5000 < v
      · rw [if_pos (.inr hfast), if_neg hdt, Nat.min_eq_left hfast.le]
      · rw [if_neg (not_or.2 ⟨hdt, hfast⟩), if_neg hdt, Nat.min_eq_right (Nat.not_lt.1 hfast)]

/-- A slip found has been raised. -/
theorem Part.Compared.slip_raised (h : p.Compared c found) (hslip : p.slipSeen = true) : c.flagSet .slip = true := by
  obtain ⟨-, -, -, -, -, hraised, -⟩ := h
  have hlisted : p.Raised c (if p.slipSeen = true then [.slip] else []) := hraised
  rw [if_pos hslip] at hlisted
  exact (hlisted.2 .slip (by decide)).2 (.inr (List.mem_singleton.2 rfl))

theorem Part.tickDelivered_rest (c : Part) (found : Bool) : c.tickDelivered found = { c with
    hlu := (c.tickDelivered found).hlu, odu := (c.tickDelivered found).odu, pfu := (c.tickDelivered found).pfu
    tru := (c.tickDelivered found).tru, lmu := (c.tickDelivered found).lmu, ext := (c.tickDelivered found).ext
    rnc := (c.tickDelivered found).rnc, rlu := (c.tickDelivered found).rlu, evu := (c.tickDelivered found).evu } := by
  obtain ⟨htime, hreset, hshu, horu⟩ := c.tickDelivered_frame found
  generalize c.tickDelivered found = q at htime hreset hshu horu ⊢
  obtain ⟨⟩ := q
  simp only at htime hreset hshu horu
  subst htime hreset hshu horu
  rfl

theorem Part.tickDelivered_onward (c : Part) (found : Bool) : Evu.Onward [] c.evu (c.tickDelivered found).evu := by
  rw [← c.tickOnce_eq]
  exact Part.tickOnce_onward (p := c.nextBoundary) found .rfl

theorem Part.tickDelivered_halted (h : c.rnc.runState = .halted) (found : Bool) :
    (c.tickDelivered found).rnc = c.rnc ∧ (c.tickDelivered found).tru = c.tru ∧ (c.tickDelivered found).ext = c.ext := by
  have hstate : (c.speedWorked found).rnc.runState = .halted := by simpa [Part.speedWorked] using h
  rw [c.tickDelivered_eq, Part.deliverTick_halted hstate]
  simp [Part.speedWorked]

theorem Part.tickDelivered_running (h : c.rnc.runState ≠ .halted) (found : Bool) :
    (c.tickDelivered found).rnc = { c.rnc with
      runState := .measuring
      parkDeadline := some (laterBy c.time (c.oru.settings.parkDelay * 1000)) } ∧
    (c.tickDelivered found).tru.nextSeq = c.tru.nextSeq + 1 ∧ (c.tickDelivered found).pfu.pendingCorrection = none := by
  have hstate : (c.speedWorked found).rnc.runState ≠ .halted := by simpa [Part.speedWorked] using h
  have hrnc := Part.runTick_rnc (p := (c.speedWorked found).bump .ticks) hstate c.time
  rw [c.tickDelivered_eq, Part.deliverTick_running hstate]
  obtain ⟨hseq, hpfu⟩ := Part.capture_taken (((c.speedWorked found).bump .ticks).runTick c.time).tickAdvance
    (c.nextBoundary.tickData found)
  refine ⟨?_, hseq.trans (by simp [Part.speedWorked]), (congrArg Pfu.pendingCorrection hpfu).trans rfl⟩
  refine ((Part.capture_frame _ _).2.2.2.2.2.2.1.trans (Part.tickAdvance_frame _).2.2.2.2.2.2.2.1).trans (hrnc.trans ?_)
  simp [Part.speedWorked]

theorem Part.tickDelivered_hlu (h : c.rnc.runState ≠ .parked) (found : Bool) : (c.tickDelivered found).hlu = c.hlu := by
  have hstate : ((c.speedWorked found).bump .ticks).rnc.runState ≠ .parked := by simpa [Part.speedWorked] using h
  rw [c.tickDelivered_eq, Part.deliverTick_hlu]
  refine (Part.runTick_hlu hstate _).trans ?_
  simp [Part.speedWorked]

theorem Part.tickDelivered_parked (h : c.rnc.runState = .parked) (found : Bool) :
    (c.tickDelivered found).flagSet .parkChange = true ∧ (c.tickDelivered found).hlu = c.freshWatchdogs.hlu := by
  have hstate : ((c.speedWorked found).bump .ticks).rnc.runState = .parked := by simpa [Part.speedWorked] using h
  obtain ⟨hflag, hhlu⟩ := Part.runTick_parked hstate c.time
  rw [c.tickDelivered_eq]
  refine ⟨(Part.deliverTick_tail_onward (c.speedWorked found) (c.nextBoundary.tickData found)).flags _ hflag, ?_⟩
  rw [Part.deliverTick_hlu]
  refine hhlu.trans ?_
  simp [Part.speedWorked, Part.freshWatchdogs, Part.frameDeadline]

theorem Part.tickDelivered_unset (h : c.pfu.position = .unset) (found : Bool) :
    (c.tickDelivered found).pfu = { c.pfu with pendingCorrection := (c.tickDelivered found).pfu.pendingCorrection } ∧
      (c.tickDelivered found).lmu = c.lmu := by
  have hpfu : (c.speedWorked found).pfu = c.pfu := by simp [Part.speedWorked]
  have hlmu : (c.speedWorked found).lmu = c.lmu := by simp [Part.speedWorked]
  rw [c.tickDelivered_eq, ← hpfu, ← hlmu]
  exact Part.deliverTick_unset (p := c.speedWorked found) (hpfu ▸ h) _

end

end Sys2Proof.Machine

open Sys2Proof.Machine in
/-- Settles O21: the label, the section, and the tick in general and block by block. -/
theorem tickTaken : Obligations.TickTaken := by
  intro s hreset p spacing zero act oth slip predicted speed posts
  have hexec : exec .tick s = nextWith s p.tickEvent := live_nextWith s Part.tickEvent hreset
  rw [hexec]
  refine ⟨Part.label_none, fun x hx hset hd hlatest => Part.label_latest hx hset hd hlatest, Part.currentSection_nil,
    fun x l hl hdir => ?_, fun x l hl hdir => ?_, fun hbefore => ?_, fun hdue hspacing hplaced => ?_,
    fun hdue hshort hsame => ?_⟩
  · rw [Part.currentSection_cons hl, hdir]
    exact if_congr TrackSection.holds_up rfl rfl
  · rw [Part.currentSection_cons hl, hdir]
    exact if_congr TrackSection.holds_down rfl rfl
  · rw [Part.tickEvent, if_neg]
    rw [p.tickDue_iff]
    exact Int.not_le.2 hbefore
  · obtain ⟨c, found, hcompared, hevent⟩ := Part.tickEvent_eq hdue
    obtain ⟨hlow, hhigh⟩ := hcompared.high
    obtain ⟨-, -, hmax⟩ := hplaced
    have hmax' : c.odu.high ≤ 9223372036854775807 := hhigh.trans (max_le hmax le_rfl)
    have horu : c.oru = p.oru := by rw [hcompared.rest]
    refine ⟨c, _, found, rfl, hcompared, ?_⟩
    rw [hevent]
    refine .cons (hcompared.nextTick ▸ hdue.trans hlow) (Part.switchTicks_boundariesPassed_made found ?_ ?_)
    · rw [(c.tickDelivered_frame found).2.2.2, horu]
      exact hspacing
    · rw [c.tickDelivered_odu]
      exact hmax'
  · obtain ⟨c, found, hcompared, hevent⟩ := Part.tickEvent_eq hdue
    have hs : p.switches = false := by
      rw [show p.switches = (!oth.faulted && (act.faulted || (slip && predicted))) from rfl]
      obtain hfaulted | ⟨hsound, hnot⟩ := hsame
      · rw [hfaulted]
        rfl
      · rw [hsound, Bool.eq_false_iff.2 fun h : (slip && predicted) = true => hnot ((Bool.and_eq_true _ _).mp h)]
        exact Bool.and_false _
    obtain ⟨hodu, hpfu⟩ := hcompared.unswitched hs
    have hflag : slip = true → c.flagSet .slip = true := hcompared.slip_raised
    have hrest := hcompared.rest
    have htime : c.time = p.time := by rw [hrest]
    have hhlu : c.hlu = p.hlu := by rw [hrest]
    have htru : c.tru = p.tru := by rw [hrest]
    have hext : c.ext = p.ext := by rw [hrest]
    have hlmu : c.lmu = p.lmu := by rw [hrest]
    have hrnc : c.rnc = p.rnc := by rw [hrest]
    have horu : c.oru = p.oru := by rw [hrest]
    have hspeed : c.speedOfTick.1 = speed := by
      have hsame : c.speedOfTick = p.speedOfTick := by
        rw [Part.speedOfTick, hodu, htime, horu]
        rfl
      rw [hsame]
      exact p.speedOfTick_fst
    have htick := c.tickDelivered_odu found
    rw [hspeed, horu, htime, hodu] at htick
    have hstill : (c.tickDelivered found).odu.high < (c.tickDelivered found).odu.nextTick := by
      rw [htick]
      exact hshort
    rw [hevent, Part.switchTicks_of_not_due hstill]
    refine ⟨_, rfl, ?_, htick, fun hslip => (c.tickDelivered_onward found).flags _ (hflag hslip), fun hhalted => ?_,
      fun hrunning => ?_, fun hunparked => ?_, fun hparked => ?_, fun hunset => ?_⟩
    · exact (c.tickDelivered_rest found).trans (by rw [hrest])
    · rw [← hrnc, ← htru, ← hext]
      exact c.tickDelivered_halted (hrnc ▸ hhalted) found
    · rw [← hrnc, ← htru, ← htime, ← horu]
      exact c.tickDelivered_running (hrnc ▸ hrunning) found
    · rw [← hhlu]
      exact c.tickDelivered_hlu (hrnc ▸ hunparked) found
    · obtain ⟨hchange, hfresh⟩ := c.tickDelivered_parked (hrnc ▸ hparked) found
      rw [hfresh, ← hhlu, ← htime, ← horu]
      exact ⟨hchange, rfl, fun g => Vector.getElem_map _ _⟩
    · rw [← hpfu, ← hlmu]
      exact c.tickDelivered_unset (hpfu ▸ hunset) found

/-! SUPPORT. What emissions, flushes and cuts leave of the window, the reservations and the counters, the reversal, and STOP RUN. -/

namespace Sys2Proof.Machine

/-! ## The tracker makes no reservation (R127 to R147) -/

section
variable (p : Part)

@[simp] theorem Part.sendUrgent_reservations (o : Owner) (u : UrgentNotice) :
    (p.sendUrgent o u).rlu.reservations = p.rlu.reservations := by
  unfold Part.sendUrgent
  simp [Rlu.placeControl]

@[simp] theorem Part.urgentDue_reservations (o : Owner) (u : UrgentNotice) :
    (p.urgentDue o u).rlu.reservations = p.rlu.reservations := by
  unfold Part.urgentDue
  split_ifs <;> simp

@[simp] theorem Part.finaliseEx_reservations (n : SlotNo) (ex : Exceedance) (c : Option CutFlag) :
    (p.finaliseEx n ex c).rlu.reservations = p.rlu.reservations := by
  unfold Part.finaliseEx Part.placeReport
  dsimp only
  split_ifs <;> simp

@[simp] theorem Part.contributeTo_reservations (n : SlotNo) (k : Pair) (ex : Exceedance) (r : Emitted) (v : Int) (g : Nat) :
    (p.contributeTo n k ex r v g).rlu.reservations = p.rlu.reservations := by
  unfold Part.contributeTo
  dsimp only
  split_ifs <;> simp

@[simp] theorem Part.insideStep_reservations (n : SlotNo) (ex : Exceedance) (c : Nat) :
    (p.insideStep n ex c).rlu.reservations = p.rlu.reservations := by
  unfold Part.insideStep
  split_ifs <;> simp

@[simp] theorem Part.heldStep_reservations (n : SlotNo) (ex : Exceedance) :
    (p.heldStep n ex).rlu.reservations = p.rlu.reservations := by
  unfold Part.heldStep
  dsimp only
  split_ifs <;> simp

@[simp] theorem Part.slotTakes_reservations (n : SlotNo) (k : Pair) (ph : SlotPhase) (ex : Exceedance) (r : Emitted) :
    (p.slotTakes n k ph ex r).rlu.reservations = p.rlu.reservations := by
  unfold Part.slotTakes
  repeat' split
  all_goals simp

@[simp] theorem Part.latchOut_reservations (k : Pair) (r : Emitted) (v : Int) (g : Nat) :
    (p.latchOut k r v g).rlu.reservations = p.rlu.reservations := by
  unfold Part.latchOut
  split_ifs <;> simp

@[simp] theorem Part.latchTakes_reservations (k : Pair) (r : Emitted) :
    (p.latchTakes k r).1.rlu.reservations = p.rlu.reservations := by
  unfold Part.latchTakes
  repeat' split
  all_goals simp

@[simp] theorem Part.openSlot_reservations (n : SlotNo) (k : Pair) (r : Emitted) (v : Int) (g : Nat) :
    (p.openSlot n k r v g).rlu.reservations = p.rlu.reservations := by
  unfold Part.openSlot
  dsimp only
  split_ifs <;> simp

@[simp] theorem Part.mayOpen_reservations (k : Pair) (r : Emitted) :
    (p.mayOpen k r).1.rlu.reservations = p.rlu.reservations := by
  unfold Part.mayOpen Part.setLatch
  repeat' split
  all_goals simp

@[simp] theorem Part.judgePair_reservations (k : Pair) (r : Emitted) :
    (p.judgePair k r).1.rlu.reservations = p.rlu.reservations := by
  unfold Part.judgePair
  repeat' split
  all_goals simp

theorem Part.judgePairs_reservations (r : Emitted) (l : List Pair) :
    (p.judgePairs r l).1.rlu.reservations = p.rlu.reservations := by
  induction l generalizing p with
  | nil => rfl
  | cons k l ih => exact (ih _).trans (p.judgePair_reservations k r)

@[simp] theorem Part.offerGr_reservations (g : GeometryRecord) : (p.offerGr g).rlu.reservations = p.rlu.reservations := by
  unfold Part.offerGr Part.countDrop
  dsimp only
  repeat' split
  all_goals simp

theorem Part.emit_reservations (e : TraceEntry) : (p.emit e).rlu.reservations = p.rlu.reservations := by
  unfold Part.emit Part.judge
  dsimp only
  simp [Part.judgePairs_reservations]

end

/-! ## A flush (R98) -/

section
variable {p : Part}

theorem Part.foldl_emit_kept (l : List TraceEntry) : ∀ p : Part,
    (l.foldl Part.emit p).rlu.reservations = p.rlu.reservations ∧ (l.foldl Part.emit p).tru.nextSeq = p.tru.nextSeq := by
  induction l with
  | nil => exact fun _ => ⟨rfl, rfl⟩
  | cons e l ih =>
    intro p
    obtain ⟨hroom, hnext⟩ := ih (p.emit e)
    rw [List.foldl_cons, hroom, hnext, p.emit_reservations, p.emit_tru]
    exact ⟨rfl, rfl⟩

theorem Part.flush_reservations (p : Part) : p.flush.rlu.reservations = p.rlu.reservations := by
  unfold Part.flush
  simp [Part.foldl_emit_kept]

theorem Part.flush_tru (p : Part) : p.flush.tru = { p.tru with window := [], segStart := none, nextEmit := none } :=
  congrArg (fun n => (⟨[], n, none, none⟩ : Tru)) (Part.foldl_emit_kept p.tru.waiting p).2

/-- What a reversal makes of the trace window: flushed in MEASURING and PARKED alone (R100). -/
theorem Part.reversalFlush_eq (p : Part) :
    p.reversalFlush = if p.rnc.runState = .measuring ∨ p.rnc.runState = .parked then p.flushed else p := by
  unfold Part.reversalFlush
  cases hstate : p.rnc.runState <;> simp [p.flush_eq]

end

/-! ## A cut (R137) -/

section
variable (p : Part) (c : CutFlag)

theorem Part.cut_latch (k : Pair) :
    ((p.cut c).ext.latches[k]).isSet = false ∧ ((p.cut c).ext.latches[k]).urgentRaised = false := by
  have hlatch : ∀ v : Vector Latch 16, ((v.map Latch.cleared)[k]).isSet = false ∧ ((v.map Latch.cleared)[k]).urgentRaised = false :=
    fun v => by simp [Latch.cleared]
  exact hlatch _

end

/-! ## A reversal (R49, R65, R100, R114, R138) -/

theorem Part.raise_withOdu (p : Part) (e : Event) (x : Odu) : (p.withOdu x).raise e = (p.raise e).withOdu x := by
  unfold Part.raise
  have hflag : (p.withOdu x).flagSet e = p.flagSet e := rfl
  have hdue : (p.withOdu x).noticeDue e = p.noticeDue e := rfl
  have hset : (p.withOdu x).setFlag e = (p.setFlag e).withOdu x := rfl
  rw [hflag, hdue, hset]
  split
  · rfl
  · split
    · unfold Part.offerNotice
      have hroom : ((p.setFlag e).withOdu x).rlu = (p.setFlag e).rlu := rfl
      rw [hroom]
      split <;> rfl
    · rfl

/-- A reversal counted and raised, before its blocks act. -/
def Part.reversalRaised (p : Part) : Part := (p.bump .reversals).raise .reversal

/-- The odometry turned and the lists lost. -/
def Part.turned (p : Part) : Part :=
  (p.reversalRaised.withOdu (p.odu.reversed p.time p.oru.settings.recordSpacing)).loseLists

theorem Part.reverse_eq (p : Part) : p.reverse = p.turned.reversalFlush.cut .reversal := by
  have hraised : ((p.withOdu (p.odu.reversed p.time p.oru.settings.recordSpacing)).bump .reversals).raise .reversal =
      p.reversalRaised.withOdu (p.odu.reversed p.time p.oru.settings.recordSpacing) := (p.bump .reversals).raise_withOdu _ _
  unfold Part.reverse Part.turned
  rw [← hraised]

theorem Part.reversalRaised_frame (p : Part) :
    p.reversalRaised.time = p.time ∧ p.reversalRaised.resetHeld = p.resetHeld ∧ p.reversalRaised.hlu = p.hlu ∧
      p.reversalRaised.shu = p.shu ∧ p.reversalRaised.pfu = p.pfu ∧ p.reversalRaised.tru = p.tru ∧
      p.reversalRaised.lmu = p.lmu ∧ p.reversalRaised.rnc = p.rnc ∧ p.reversalRaised.oru = p.oru := by
  simp [Part.reversalRaised]

/-- A reversal is raised and counted once, and so is its cut. -/
theorem Part.reverse_counted (p : Part) : p.reverse.flagSet .reversal = true ∧
    p.reverse.counter .reversals = counterUp 1 (p.counter .reversals) ∧
    p.reverse.counter .cuts = counterUp 1 (p.counter .cuts) := by
  have hflush : Evu.Onward runCounters p.reversalRaised.evu p.turned.reversalFlush.evu :=
    Part.reversalFlush_onward (p := p.turned) .rfl
  have hcut := Part.cut_onward (p := p.turned.reversalFlush) .reversal hflush
  have hcounted : ∀ c, c ≠ .statusSent → c ≠ .noticesLost → p.reversalRaised.counter c = (p.bump .reversals).counter c :=
    fun c hsent hlost => Part.counter_raise _ _ hsent hlost
  rw [p.reverse_eq]
  refine ⟨hcut.flags _ ((p.bump .reversals).raise_flagSet .reversal), ?_, ?_⟩
  · refine (hcut.counters .reversals (by decide)).trans ((hcounted _ (by decide) (by decide)).trans ?_)
    rw [Part.counter_bump, if_pos rfl]
  · refine (p.turned.reversalFlush.cut_counted .reversal).1.trans (congrArg (counterUp 1) ?_)
    refine (hflush.counters .cuts (by decide)).trans ((hcounted _ (by decide) (by decide)).trans ?_)
    rw [Part.counter_bump, if_neg (by decide)]

theorem Part.turned_pfu (p : Part) : p.turned.pfu = { p.pfu with routeList := [], lowArmed := false, lastPost := none } := by
  obtain ⟨-, -, -, -, hpfu, -⟩ := p.reversalRaised_frame
  rw [← hpfu]
  rfl

theorem Part.turned_lmu (p : Part) : p.turned.lmu = { p.lmu with sections := [], lowArmed := false } := by
  obtain ⟨-, -, -, -, -, -, hlmu, -⟩ := p.reversalRaised_frame
  rw [← hlmu]
  rfl

theorem Part.turned_rnc (p : Part) : p.turned.rnc = p.rnc := by
  obtain ⟨-, -, -, -, -, -, -, hrnc, -⟩ := p.reversalRaised_frame
  exact hrnc

/-- The blocks that a reversal acts on. -/
theorem Part.reverse_blocks (p : Part) :
    p.reverse.odu = p.turned.odu ∧ p.reverse.pfu = p.turned.pfu ∧ p.reverse.lmu = p.turned.lmu ∧
    p.reverse.tru = (if p.rnc.runState = .measuring ∨ p.rnc.runState = .parked then
      { p.tru with window := [], segStart := none, nextEmit := none } else p.tru) ∧
    (∀ n : SlotNo, (p.reverse.ext.slots[n]).isActive = false) ∧
    (∀ k : Pair, (p.reverse.ext.latches[k]).isSet = false ∧ (p.reverse.ext.latches[k]).urgentRaised = false) := by
  obtain ⟨-, -, -, -, fodu, fpfu, flmu, -⟩ := p.turned.reversalFlush_frame
  obtain ⟨-, -, -, -, codu, cpfu, ctru, clmu, -⟩ := p.turned.reversalFlush.cut_frame .reversal
  obtain ⟨-, -, -, -, -, rtru, -⟩ := p.reversalRaised_frame
  have hkept : p.turned.tru = p.tru := rtru
  have htru : p.turned.reversalFlush.tru = (if p.rnc.runState = .measuring ∨ p.rnc.runState = .parked then
      { p.tru with window := [], segStart := none, nextEmit := none } else p.tru) := by
    rw [p.turned.reversalFlush_eq, p.turned_rnc, apply_ite Part.tru, ← p.turned.flush_eq, p.turned.flush_tru, hkept]
  rw [p.reverse_eq]
  exact ⟨codu.trans fodu, cpfu.trans fpfu, clmu.trans flmu, ctru.trans htru, Part.cut_isActive _ _, Part.cut_latch _ _⟩

/-- A part that differs in the blocks that a reversal acts on alone. -/
theorem Part.eq_but_motion {p q : Part} (htime : q.time = p.time) (hheld : q.resetHeld = p.resetHeld)
    (hhlu : q.hlu = p.hlu) (hshu : q.shu = p.shu) (hrnc : q.rnc = p.rnc) (horu : q.oru = p.oru) :
    q = { p with odu := q.odu, pfu := q.pfu, tru := q.tru, lmu := q.lmu, ext := q.ext, rlu := q.rlu, evu := q.evu } := by
  cases p
  cases q
  cases htime
  cases hheld
  cases hhlu
  cases hshu
  cases hrnc
  cases horu
  rfl

end Sys2Proof.Machine

open Sys2Proof.Machine in
/-- Settles O23: the blocks by the frames of flush and cut, the rest by the order in which they act. -/
theorem reversalTaken : Obligations.ReversalTaken := by
  intro s hreset p
  have hexec : exec .reversal s = nextWith s p.reversalEvent := live_nextWith s Part.reversalEvent hreset
  rw [hexec]
  refine ⟨fun hnot => ?_, fun hdue => ⟨_, rfl, ?_⟩⟩
  · rw [Part.reversalEvent, if_neg (by rw [hnot]; exact Bool.false_ne_true)]
  obtain ⟨hflag, hreversals, hcuts⟩ := p.reverse_counted
  obtain ⟨htime, hheld, hhlu, hshu, hrnc, horu⟩ := p.reverse_frame
  obtain ⟨hodu, hpfu, hlmu, htru, hactive, hlatch⟩ := p.reverse_blocks
  rw [Part.reversalEvent, if_pos hdue]
  refine ⟨Part.eq_but_motion htime hheld hhlu hshu hrnc horu, hodu, hpfu.trans p.turned_pfu, hlmu.trans p.turned_lmu,
    fun hrun => htru.trans (if_pos hrun), fun hidle => htru.trans (if_neg ?_), hactive, hlatch, hflag, hreversals, hcuts, ?_⟩
  · rintro (h | h) <;> rw [h] at hidle <;> simp at hidle
  · intro raised turned flushed
    have hturned : turned = p.turned := by
      unfold turned
      rw [hodu, hpfu, hlmu]
      rfl
    have hflushed : flushed = p.turned.reversalFlush := by
      unfold flushed
      rw [hturned, p.turned.reversalFlush_eq, p.turned_rnc]
    rw [hflushed]
    exact ⟨_, Part.openingOrder_activeInOrder _, p.reverse_eq.trans (Part.cut_eq _ .reversal)⟩

/-! SUPPORT. STOP RUN: the halt of a run, and the run ended after a flush and a cut. -/

namespace Sys2Proof.Machine

/-! ## The halt of a run (R159, R161) -/

section
variable (p : Part)

/-- A run halted and counted, before the leaving of PARKED. -/
def Part.runHalted (p : Part) : Part :=
  Part.bump { p with rnc := { p.rnc with runState := .halted, parkDeadline := none } } .runsStopped

theorem Part.haltRun_eq : p.haltRun =
    if p.rnc.runState = .parked then (p.runHalted.raise .parkChange).freshWatchdogs else p.runHalted := rfl

theorem Part.haltRun_rnc : p.haltRun.rnc = { p.rnc with runState := .halted, parkDeadline := none } := by
  rw [p.haltRun_eq]
  split
  · simp [Part.runHalted]
  · rfl

theorem Part.haltRun_counted : p.haltRun.counter .runsStopped = counterUp 1 (p.counter .runsStopped) := by
  have hcounted : p.runHalted.counter .runsStopped = counterUp 1 (p.counter .runsStopped) :=
    (Part.counter_bump _ _ _).trans (if_pos rfl)
  rw [p.haltRun_eq]
  split
  · exact (Part.counter_raise p.runHalted _ (by decide) (by decide)).trans hcounted
  · exact hcounted

theorem Part.haltRun_reservations : p.haltRun.rlu.reservations = p.rlu.reservations := by
  rw [p.haltRun_eq]
  split
  · simp [Part.runHalted]
  · rfl

theorem Part.haltRun_unparked (h : p.rnc.runState ≠ .parked) : p.haltRun = p.runHalted := if_neg h

theorem Part.haltRun_parked (h : p.rnc.runState = .parked) :
    p.haltRun.flagSet .parkChange = true ∧ p.haltRun.hlu = p.freshWatchdogs.hlu := by
  rw [p.haltRun_eq, if_pos h]
  refine ⟨p.runHalted.raise_flagSet .parkChange, ?_⟩
  simp [Part.freshWatchdogs, Part.frameDeadline, Part.runHalted]

end

/-! ## The end of a run (R98, R137, R161) -/

section
variable {p : Part}

theorem Part.endRun_eq (h : p.rnc.runState ≠ .halted) : p.endRun = ((p.flush).cut .stop).haltRun := if_neg h

theorem Part.endRun_blocks (h : p.rnc.runState ≠ .halted) :
    p.endRun.rnc = { p.rnc with runState := .halted, parkDeadline := none } ∧
    p.endRun.tru = { p.tru with window := [], segStart := none, nextEmit := none } ∧
    (∀ n : SlotNo, (p.endRun.ext.slots[n]).isActive = false) ∧
    (∀ k : Pair, (p.endRun.ext.latches[k]).isSet = false ∧ (p.endRun.ext.latches[k]).urgentRaised = false) ∧
    p.endRun.rlu.reservations = p.rlu.reservations := by
  have hext : p.endRun.ext = ((p.flush).cut .stop).ext := by
    rw [Part.endRun_eq h]
    simp
  have htru : p.endRun.tru = p.flush.tru := by
    rw [Part.endRun_eq h]
    simp
  have hrnc : p.endRun.rnc = { p.rnc with runState := .halted, parkDeadline := none } := by
    rw [Part.endRun_eq h, Part.haltRun_rnc]
    simp
  have hroom : p.endRun.rlu.reservations = p.rlu.reservations := by
    rw [Part.endRun_eq h, Part.haltRun_reservations, (Part.cut_counted _ _).2, p.flush_reservations]
  rw [hext, htru]
  exact ⟨hrnc, p.flush_tru, Part.cut_isActive _ _, Part.cut_latch _ _, hroom⟩

/-- The end of a run is counted once, and so is its cut. -/
theorem Part.endRun_counted (h : p.rnc.runState ≠ .halted) :
    p.endRun.counter .runsStopped = counterUp 1 (p.counter .runsStopped) ∧
    p.endRun.counter .cuts = counterUp 1 (p.counter .cuts) := by
  have hflush : Evu.Onward runCounters p.evu p.flush.evu := Part.flush_onward .rfl
  have hcut := Part.cut_onward .stop hflush
  have hhalt : Evu.Onward [.cuts, .reversals] ((p.flush).cut .stop).evu ((p.flush).cut .stop).haltRun.evu :=
    Part.haltRun_onward .rfl
  rw [Part.endRun_eq h]
  refine ⟨(Part.haltRun_counted _).trans (congrArg (counterUp 1) (hcut.counters .runsStopped (by decide))), ?_⟩
  refine (hhalt.counters .cuts (by decide)).trans ((p.flush.cut_counted .stop).1.trans (congrArg (counterUp 1) ?_))
  exact hflush.counters .cuts (by decide)

theorem Part.endRun_hlu (h : p.rnc.runState ≠ .halted) :
    (p.rnc.runState ≠ .parked → p.endRun.hlu = p.hlu) ∧
    (p.rnc.runState = .parked → p.endRun.flagSet .parkChange = true ∧ p.endRun.hlu = p.freshWatchdogs.hlu) := by
  have hrnc : ((p.flush).cut .stop).rnc = p.rnc := by simp
  rw [Part.endRun_eq h]
  refine ⟨fun hne => ?_, fun hparked => ?_⟩
  · rw [Part.haltRun_unparked _ (hrnc ▸ hne)]
    simp [Part.runHalted]
  · obtain ⟨hflag, hhlu⟩ := Part.haltRun_parked _ (hrnc ▸ hparked : ((p.flush).cut .stop).rnc.runState = .parked)
    refine ⟨hflag, hhlu.trans ?_⟩
    simp [Part.freshWatchdogs, Part.frameDeadline]

/-- The end of a run as its flush, its cut, its halt and the leaving of PARKED. -/
theorem Part.endRun_stages (h : p.rnc.runState ≠ .halted) :
    p.endRun = { (if p.rnc.runState = .parked then ((p.flushed).cut .stop).runHalted.raise .parkChange
      else ((p.flushed).cut .stop).runHalted) with hlu := p.endRun.hlu } := by
  have hrnc : ((p.flush).cut .stop).rnc = p.rnc := by simp
  rw [Part.endRun_eq h, ← p.flush_eq, Part.haltRun_eq, hrnc]
  split <;> rfl

/-- A part that differs in the blocks that a STOP RUN acts on alone. -/
theorem Part.eq_but_run {p q : Part} (htime : q.time = p.time) (hheld : q.resetHeld = p.resetHeld)
    (hshu : q.shu = p.shu) (hodu : q.odu = p.odu) (hpfu : q.pfu = p.pfu) (hlmu : q.lmu = p.lmu) :
    q = { p with
      hlu := q.hlu, tru := q.tru, ext := q.ext, rnc := q.rnc, rlu := q.rlu, oru := q.oru, evu := q.evu } := by
  cases p
  cases q
  cases htime
  cases hheld
  cases hshu
  cases hodu
  cases hpfu
  cases hlmu
  rfl

/-- The data of the reply to a STOP RUN. -/
def Part.stopData (p : Part) : List Byte :=
  bytesOfNat 2 p.rnc.runNumber.toNat ++ bytesOfNat 4 p.tru.nextSeq.toNat ++ [BitVec.ofNat 8 p.ext.pendingList.length]

theorem Part.stopOrder_eq (p : Part) (ps : List Byte) : p.stopOrder ps = ⟨p.endRun, .done, p.endRun.stopData⟩ := rfl

end

/-- Settles O42: refused by nothing; in HALTED no change, else the run ended block by block, and the reply after it. -/
theorem stopRunTaken : Obligations.StopRunTaken := by
  intro s body h p
  have hstate : p.taken.rnc = p.rnc := rfl
  refine ⟨fun hhalted => ?_, fun hrun => ?_⟩
  · have hsame : p.taken.endRun = p.taken := if_pos hhalted
    refine answeredRow_of_unchanged h ?_
    rw [Part.stopOrder_eq, hsame]
    rfl
  · obtain ⟨hrnc, htru, hactive, hlatch, hroom⟩ := Part.endRun_blocks (p := p.taken) hrun
    obtain ⟨hstopped, hcuts⟩ := Part.endRun_counted (p := p.taken) hrun
    obtain ⟨hunparked, hparked⟩ := Part.endRun_hlu (p := p.taken) hrun
    obtain ⟨htime, hheld, hshu, hodu, hpfu, hlmu, horu⟩ := p.taken.endRun_frame
    have hstages := Part.endRun_stages (p := p.taken) hrun
    have hanswer := answeredRow_of_answer h (Part.stopOrder_eq p.taken (orderParams body))
    rw [Part.fillReservation_eq_replied] at hanswer
    have hdata : p.taken.endRun.stopData = bytesOfNat 2 p.rnc.runNumber.toNat ++ bytesOfNat 4 p.tru.nextSeq.toNat ++
        [BitVec.ofNat 8 p.taken.endRun.ext.pendingList.length] := by
      rw [Part.stopData, hrnc, htru]
      rfl
    have hcounted : ∀ c, c ≠ .ordersTaken → p.taken.counter c = p.counter c := fun c hc =>
      (Part.counter_bump _ _ _).trans (if_neg (Ne.symm hc))
    rw [hdata] at hanswer
    refine ⟨_, hanswer, Part.eq_but_run htime hheld hshu hodu hpfu hlmu, hrnc, htru, hactive, hlatch, horu,
      p.orderAnswered_of_replied body .done _ horu hroom, ?_, ?_, hunparked, fun hpark => ?_, ?_⟩
    · exact hstopped.trans (congrArg (counterUp 1) (hcounted _ (by decide)))
    · exact hcuts.trans (congrArg (counterUp 1) (hcounted _ (by decide)))
    · obtain ⟨hflag, hfresh⟩ := hparked hpark
      refine ⟨hflag, ?_, fun g => ?_⟩
      · exact hfresh.trans (by rw [show (p.taken.endRun.replied body .done _).hlu = _ from hfresh]; rfl)
      · exact (congrArg (fun x : Hlu => x.heads[g]) hfresh).trans (Vector.getElem_map _ _)
    · intro f
      refine ⟨f.ext.activeInOrder, f.openingOrder_activeInOrder, ?_⟩
      intro c halted left
      have hc : c = f.cut .stop := (f.cut_eq .stop).symm
      have hcrnc : c.rnc = p.rnc := by
        rw [hc, show f = p.taken.flush from p.taken.flush_eq.symm]
        simp
      have hhalted : halted = (f.cut .stop).runHalted := by
        rw [← hc]
        refine congrArg (fun x : Rnc => Part.bump { c with rnc := x } .runsStopped) (hrnc.trans ?_)
        rw [hcrnc, hstate]
      have hleft : left = if p.rnc.runState = .parked then (f.cut .stop).runHalted.raise .parkChange
          else (f.cut .stop).runHalted := by
        unfold left
        rw [hhalted]
      refine congrArg (fun x : Part => x.replied body .done _) (hstages.trans ?_)
      rw [hleft]
      rfl

end Sys2Proof.Machine

/-! SUPPORT. The settings that an owner acts on at once, each by its own row and by the SET row (R182). -/

namespace Sys2Proof.Machine

section
variable {s : State} {body : List Byte} {c : Instr} {n a v : Nat} {q : Part}

/-- A command that carries out a SET of setting `n`: the SET row, or the row of that setting. -/
def SetsSetting (c : Instr) (n : Nat) : Prop :=
  ∀ s, exec c s = live s (Part.answeredRow 2 Part.setOrder) ∨ exec c s = live s (Part.setRow n)

/-- Both rows answer alike. -/
theorem SetsSetting.answer (hc : SetsSetting c n) (h : s.part.Ready 2 body) (hn : fieldNat (orderParams body) 0 1 = n)
    {r : Result} {data : List Byte} (ho : s.part.taken.setOrder (orderParams body) = ⟨q, r, data⟩) :
    exec c s = nextWith s (q.fillReservation (replyTo body r data)) := by
  obtain hset | hrow := hc s
  · exact hset.trans (answeredRow_of_answer h ho)
  · refine hrow.trans ((orderRow_of_ready s 2 (fun ps => fieldNat ps 0 1 == n) (answered Part.setOrder) body h
      (beq_iff_eq.2 hn)).trans ?_)
    rw [answered, ho]

theorem setsSetting_of {row : Instr} (hrow : ∀ s, exec row s = live s (Part.setRow n)) (h : c = .set ∨ c = row) :
    SetsSetting c n := by
  intro s
  obtain rfl | rfl := h
  · exact .inl rfl
  · exact .inr (hrow s)

/-- A SET that passes its checks: its owner acts, and the reply carries the value written. -/
theorem SetsSetting.accepted (hc : SetsSetting c n) (h : s.part.Ready 2 body) (hn : fieldNat (orderParams body) 0 1 = n)
    (ha : fieldNat (orderParams body) 1 1 = a) (hv : fieldNat (orderParams body) 2 4 = v) (hnamed : settingNamed n a = true)
    (hrange : settingInRange n v = true) (hstate : haltedOnlySetting n = true → s.part.rnc.runState = .halted)
    (hq : ∀ r data, ((s.part.taken.withSettings (s.part.oru.settings.write n a v)).settingEffect n a).fillReservation
      (replyTo body r data) = q.afterOrder body r data) :
    exec c s = nextWith s (q.afterOrder body .done (BitVec.ofNat 8 n :: BitVec.ofNat 8 a :: bytesOfNat 4 v)) := by
  have hanswer := hc.answer h hn (s.part.taken.setOrder_accepted hn ha hv (s.part.taken.setRefusal_none hnamed hrange hstate) rfl)
  rw [show s.part.taken.oru.settings = s.part.oru.settings from rfl, hq, Part.settingEffect_settings, settingData,
    show (s.part.taken.withSettings (s.part.oru.settings.write n a v)).oru.settings = s.part.oru.settings.write n a v from rfl,
    Settings.value_write_same _ hnamed hrange] at hanswer
  exact hanswer

end

/-! ## The record spacing (R47) -/

/-- The first multiple of a spacing that is strictly greater than H. -/
theorem boundaryAfter_first (high : Int) {v : Nat} (hv : 0 < v) :
    high < boundaryAfter high v ∧ boundaryAfter high v - v * 1000 ≤ high := by
  have hpos : (0 : Int) < v * 1000 := by omega
  have hmod := Int.emod_nonneg high hpos.ne'
  have hlt := Int.emod_lt_of_pos high hpos
  have hdiv := Int.mul_ediv_add_emod high (v * 1000)
  unfold boundaryAfter
  constructor <;> nlinarith

theorem Part.settingEffect_recordSpacing (p : Part) (a : Nat) : p.settingEffect 1 a =
    p.withOdu { p.odu with
      nextTick := boundaryAfter p.odu.high p.oru.settings.recordSpacing, history := [], lastSpeed := none } := rfl

/-- The record spacing written: the boundary follows, and the speed is forgotten. -/
theorem taken_spacing_answered (p : Part) (st : Settings) (a : Nat) (body : List Byte) (r : Result) (data : List Byte) :
    ((p.taken.withSettings st).settingEffect 1 a).fillReservation (replyTo body r data) =
      Part.afterOrder { p with
        odu := { p.odu with nextTick := boundaryAfter p.odu.high st.recordSpacing, history := [], lastSpeed := none }
        oru := { p.oru with settings := st } } body r data := by
  rw [Part.settingEffect_recordSpacing]
  cases p
  rfl

/-- Settles O39: the first multiple above H, the history emptied, by either row. -/
theorem recordSpacingSet : Obligations.RecordSpacingSet := by
  intro s body c v h hc hn ha hv hrange p
  have hsets : SetsSetting c 1 := setsSetting_of (fun _ => rfl) hc
  have hin : settingInRange 1 v = true := (settingInRange_recordSpacing v).2 (by simpa using hrange)
  refine ⟨fun hhalted => ⟨boundaryAfter p.odu.high v, ⟨_, rfl⟩, ?_⟩, fun hrun => ?_⟩
  · obtain ⟨habove, hfirst⟩ := boundaryAfter_first p.odu.high (v := v) (by omega)
    exact ⟨habove, hfirst, hsets.accepted h hn ha hv rfl hin (fun _ => hhalted) (taken_spacing_answered p _ 0 body)⟩
  · exact hsets.answer h hn (p.taken.setOrder_inRun hn ha hv rfl hin rfl hrun)

/-! ## The others (R15, R54, R64, R68, R112) -/

section
variable (p : Part) (st : Settings) (body : List Byte) (r : Result) (data : List Byte)

theorem Part.settingEffect_leadEncoder (a : Nat) :
    p.settingEffect 4 a = p.withOdu { p.odu with active := p.oru.settings.leadEncoder } := rfl

theorem taken_leadEncoder_answered (a : Nat) :
    ((p.taken.withSettings st).settingEffect 4 a).fillReservation (replyTo body r data) =
      Part.afterOrder { p with
        odu := { p.odu with active := st.leadEncoder }
        oru := { p.oru with settings := st } } body r data := by
  rw [Part.settingEffect_leadEncoder]
  cases p
  rfl

theorem Part.settingEffect_headShape (g : Head) : p.settingEffect 12 (g.val + 1) =
    (p.withHlu { p.hlu with heads := p.hlu.heads.set g { p.hlu.heads[g] with held := none } }).withShu
      { p.shu with freshness := p.shu.freshness.set g none } := by
  have haddress : headOfAddress (g.val + 1) = some g := (headOfAddress_eq_some_iff _ _).2 rfl
  show p.dropHeld (g.val + 1) = _
  rw [Part.dropHeld, haddress]
  rfl

theorem taken_headShape_answered (g : Head) :
    ((p.taken.withSettings st).settingEffect 12 (g.val + 1)).fillReservation (replyTo body r data) =
      Part.afterOrder { p with
        hlu := { p.hlu with heads := p.hlu.heads.set g { p.hlu.heads[g] with held := none } }
        shu := { p.shu with freshness := p.shu.freshness.set g none }
        oru := { p.oru with settings := st } } body r data := by
  rw [Part.settingEffect_headShape]
  cases p
  rfl

theorem Settings.write_headShape_at (v : Nat) (g : Head) :
    st.write 12 (g.val + 1) v = { st with shapes := st.shapes.set g ⟨v / 256, v % 256⟩ } := by
  have haddress : headOfAddress (g.val + 1) = some g := (headOfAddress_eq_some_iff _ _).2 rfl
  show { st with shapes := perHeadWrite st.shapes ⟨v / 256, v % 256⟩ (g.val + 1) } = _
  rw [perHeadWrite, haddress]
  rfl

theorem taken_fixValidity_answered (a : Nat) :
    ((p.taken.withSettings st).settingEffect 17 a).fillReservation (replyTo body r data) =
      Part.afterOrder { p with
        pfu := { p.pfu with position :=
          (if p.pfu.position = .fixed ∧ (∃ x, p.pfu.sinceFix = some x ∧ st.fixValidity * 1000000 < x) then .deadReckoned
            else p.pfu.position) }
        oru := { p.oru with settings := st } } body r data := by
  rw [show (p.taken.withSettings st).settingEffect 17 a = (p.taken.withSettings st).validityTest from rfl, Part.validityTest_eq]
  cases p
  rfl

theorem taken_routeLowWater_answered (a : Nat) :
    ((p.taken.withSettings st).settingEffect 28 a).fillReservation (replyTo body r data) =
      Part.afterOrder { p with
        pfu := { p.pfu with lowArmed := decide (st.routeLowWater < p.pfu.routeList.length) }
        oru := { p.oru with settings := st } } body r data := by
  rw [show (p.taken.withSettings st).settingEffect 28 a = (p.taken.withSettings st).armRoute from rfl]
  cases p
  rfl

theorem taken_sectionLowWater_answered (a : Nat) :
    ((p.taken.withSettings st).settingEffect 29 a).fillReservation (replyTo body r data) =
      Part.afterOrder { p with
        lmu := { p.lmu with lowArmed := decide (st.sectionLowWater < p.lmu.sections.length) }
        oru := { p.oru with settings := st } } body r data := by
  rw [show (p.taken.withSettings st).settingEffect 29 a = (p.taken.withSettings st).armSections from rfl]
  cases p
  rfl

end

/-- Settles O40: each setting by what its owner does at once. -/
theorem settingsWithEffectSet : Obligations.SettingsWithEffectSet := by
  intro s body v a h hv ha p n reply done
  have hinrange : ∀ {m lo hi}, (m, lo, hi) ∈ boundedSettings → lo ≤ v → v ≤ hi → settingInRange m v = true :=
    fun hm hlo hhi => (settingInRange_bounded hm v).2 ⟨hlo, hhi⟩
  refine ⟨fun c hc hn ha0 hrange hhalted => ?_, fun c hc g hn hg h16 h1 h8 hhalted => ?_, fun c hc hn ha0 hlow hhigh => ?_,
    fun c hc hn ha0 hhigh => ?_, fun c hc hn ha0 hhigh => ?_⟩
  · have hsets : SetsSetting c 4 := setsSetting_of (fun _ => rfl) (List.mem_pair.1 hc)
    unfold done reply
    rw [hn, ha0]
    exact hsets.accepted h hn (ha.trans ha0) hv rfl (hinrange (lo := 1) (hi := 2) (by decide) (by omega) (by omega))
      (fun _ => hhalted) fun r data => taken_leadEncoder_answered p _ body r data 0
  · have hsets : SetsSetting c 12 := setsSetting_of (fun _ => rfl) (List.mem_pair.1 hc)
    have hnamed : settingNamed 12 (g.val + 1) = true := (settingNamed_iff 12 _).2 (by simp)
    unfold done reply
    rw [hn, hg, ← Settings.write_headShape_at]
    exact hsets.accepted h hn (ha.trans hg) hv hnamed ((settingInRange_headShape v).2 ⟨h16, h1, h8⟩) (fun _ => hhalted)
      fun r data => taken_headShape_answered p _ body r data g
  · have hsets : SetsSetting c 17 := setsSetting_of (fun _ => rfl) (List.mem_pair.1 hc)
    unfold done reply
    rw [hn, ha0]
    exact hsets.accepted h hn (ha.trans ha0) hv rfl (hinrange (lo := 100) (hi := 20000) (by decide) hlow hhigh) nofun
      fun r data => taken_fixValidity_answered p _ body r data 0
  · have hsets : SetsSetting c 28 := setsSetting_of (fun _ => rfl) (List.mem_pair.1 hc)
    unfold done reply
    rw [hn, ha0]
    exact hsets.accepted h hn (ha.trans ha0) hv rfl (hinrange (lo := 0) (hi := 127) (by decide) (Nat.zero_le v) hhigh) nofun
      fun r data => taken_routeLowWater_answered p _ body r data 0
  · have hsets : SetsSetting c 29 := setsSetting_of (fun _ => rfl) (List.mem_pair.1 hc)
    unfold done reply
    rw [hn, ha0]
    exact hsets.accepted h hn (ha.trans ha0) hv rfl (hinrange (lo := 0) (hi := 63) (by decide) (Nat.zero_le v) hhigh) nofun
      fun r data => taken_sectionLowWater_answered p _ body r data 0

end Sys2Proof.Machine

/-! SUPPORT. The orders on heads, RESTORE HEAD and HEAD ORDER, and RESTART. -/

namespace Sys2Proof.Machine

/-! ## RESTORE HEAD (R13, R186) -/

section
variable {p : Part} {ps : List Byte} {g : Head}

/-- What an order's taking is but for its count. -/
def Part.admitted (p : Part) : Part :=
  { p with
    rlu := { p.rlu with reservations := p.rlu.reservations + 1 }
    oru := { p.oru with buffer := p.oru.buffer.drop 1 } }

theorem Part.taken_eq_admitted (p : Part) : p.taken = p.admitted.bump .ordersTaken := rfl

theorem headOfAddress_none {a : Nat} (h : a = 0 ∨ 8 < a) : headOfAddress a = none := dif_neg (by omega)

theorem Part.restoreOrder_none (h : fieldNat ps 0 1 = 0 ∨ 8 < fieldNat ps 0 1) : p.restoreOrder ps = ⟨p, .badValue, []⟩ := by
  rw [Part.restoreOrder, headOfAddress_none h]

theorem Part.restoreOrder_other (ha : fieldNat ps 0 1 = g.val + 1) (h : (p.hlu.heads[g]).state ≠ .excluded) :
    p.restoreOrder ps = ⟨p, .badState, [BitVec.ofNat 8 (g.val + 1), BitVec.ofNat 8 (p.hlu.heads[g]).state.code]⟩ := by
  rw [Part.restoreOrder, (headOfAddress_eq_some_iff _ g).2 ha]
  exact if_neg h

theorem Part.restoreOrder_excluded (ha : fieldNat ps 0 1 = g.val + 1) (h : (p.hlu.heads[g]).state = .excluded) :
    p.restoreOrder ps = ⟨p.writeHead g (p.hlu.heads[g]).restored, .done, [BitVec.ofNat 8 (g.val + 1), 1]⟩ := by
  rw [Part.restoreOrder, (headOfAddress_eq_some_iff _ g).2 ha]
  exact if_pos h

theorem Part.writeHead_rest (p : Part) (g : Head) (r : HeadRecord) :
    p.writeHead g r = { p with hlu := (p.writeHead g r).hlu, rlu := (p.writeHead g r).rlu, evu := (p.writeHead g r).evu } := by
  unfold Part.writeHead
  dsimp only
  split
  · rfl
  · have hhlu : ((p.onHead g fun _ => r).raise .headChange).hlu = (p.onHead g fun _ => r).hlu := by simp
    rw [hhlu]
    exact Part.raise_blocks _ _

end

/-- Settles O48: refusals first, then the record written, its event and the reply behind it. -/
theorem restoreHeadTaken : Obligations.RestoreHeadTaken := by
  intro s body h p a
  refine ⟨fun hnone => ?_, fun g ha hstate => ?_, fun g ha hstate => ?_⟩
  · exact answeredRow_of_unchanged h (Part.restoreOrder_none hnone)
  · rw [ha]
    exact answeredRow_of_unchanged h (Part.restoreOrder_other ha hstate)
  · have hanswer := answeredRow_of_answer h (Part.restoreOrder_excluded (p := p.taken) ha hstate)
    have hchange : ((p.taken.hlu.heads[g]).change (p.taken.hlu.heads[g]).restored) = [.headChange] :=
      if_neg fun hsame => nomatch (hsame.trans hstate : HeadState.acquiring = .excluded)
    have hreported : p.admitted.Reported (p.taken.writeHead g (p.taken.hlu.heads[g]).restored) [.ordersTaken] [.headChange] := by
      have hwritten := p.taken.writeHead_reported g (p.taken.hlu.heads[g]).restored [.ordersTaken]
      rw [hchange] at hwritten
      exact (p.admitted.reported_bumpBy (by simp) 1).trans hwritten
    have hrest := p.taken.writeHead_rest g (p.taken.hlu.heads[g]).restored
    have hhlu := p.taken.writeHead_hlu g (p.taken.hlu.heads[g]).restored
    rw [Part.fillReservation_eq_replied] at hanswer
    rw [ha]
    generalize p.taken.writeHead g (p.taken.hlu.heads[g]).restored = x at *
    obtain ⟨hrlu, ⟨notices, hcontrol, hstatus⟩, hcounters, hraised⟩ := hreported
    have horu : x.oru = p.taken.oru := by rw [hrest]
    have hroom : x.rlu.reservations = p.taken.rlu.reservations := by rw [hrlu]; rfl
    refine ⟨_, hanswer, ?_, hhlu, horu, ?_, p.orderAnswered_of_replied body .done _ horu hroom,
      ⟨notices, ?_, hstatus⟩, hcounters, hraised⟩
    · rw [hrest]
      rfl
    · exact congrArg (fun l : Rlu => { l with
        control := l.control ++ [orderReply body .done [BitVec.ofNat 8 (g.val + 1), 1]]
        reservations := l.reservations - 1 }) hrlu
    · exact congrArg (· ++ [orderReply body .done [BitVec.ofNat 8 (g.val + 1), 1]]) hcontrol

/-! ## HEAD ORDER (R22, R187) -/

section
variable {s : State} {body : List Byte} {p : Part} {g : Head}

theorem headOrder_refused {r : Result} (h : s.part.Ready 19 body) (hcheck : s.part.taken.headOrderCheck (orderParams body) = .error r) :
    exec .headOrder s = nextWith s (s.part.afterOrder body r [BitVec.ofNat 8 (fieldNat (orderParams body) 0 1)]) := by
  refine (orderRow_of_ready s 19 (fun _ => true) Part.headOrder body h rfl).trans ?_
  rw [Part.headOrder, hcheck]
  rfl

theorem headOrder_relayed (h : s.part.Ready 19 body) (hcheck : s.part.taken.headOrderCheck (orderParams body) = .ok g) :
    exec .headOrder s = nextWith s (s.part.taken.relayOrder g body) := by
  refine (orderRow_of_ready s 19 (fun _ => true) Part.headOrder body h rfl).trans ?_
  rw [Part.headOrder, hcheck]

variable {ps : List Byte}

theorem Part.headOrderCheck_badAddress (h : fieldNat ps 0 1 = 0 ∨ 8 < fieldNat ps 0 1) :
    p.headOrderCheck ps = .error .badValue := by
  rw [Part.headOrderCheck, headOfAddress_none h]

/-- The checks after the address. -/
theorem Part.headOrderCheck_head (ha : fieldNat ps 0 1 = g.val + 1) : p.headOrderCheck ps =
    if fieldNat ps 1 1 = 0 ∨ 32 < fieldNat ps 1 1 then .error .badValue
    else if p.hlu.relay.isSome ∨ p.oru.headReservation.isSome then .error .busy
    else if !p.hlu.locked then .error .badState
    else if (p.hlu.heads[g]).state = .absent then .error .headAbsent
    else .ok g := by
  rw [Part.headOrderCheck, (headOfAddress_eq_some_iff _ g).2 ha]

theorem Part.headOrderCheck_badCount (h : fieldNat ps 1 1 = 0 ∨ 32 < fieldNat ps 1 1) :
    p.headOrderCheck ps = .error .badValue := by
  unfold Part.headOrderCheck
  split
  · rfl
  · exact if_pos h

end

/-- Settles O49: the four checks in their order, then the relay. -/
theorem headOrderTaken : Obligations.HeadOrderTaken := by
  intro s body h p ps a n refused
  refine ⟨fun hbad => headOrder_refused h ?_, fun g ha hn1 hn32 => ?_⟩
  · obtain ha | ha | hcount := hbad
    · exact Part.headOrderCheck_badAddress (.inl ha)
    · exact Part.headOrderCheck_badAddress (.inr ha)
    · exact Part.headOrderCheck_badCount hcount
  · have hcount : ¬ (fieldNat ps 1 1 = 0 ∨ 32 < fieldNat ps 1 1) := by omega
    have hcheck := Part.headOrderCheck_head (p := p.taken) ha
    rw [if_neg hcount] at hcheck
    refine ⟨fun hbusy => headOrder_refused h ?_, fun hrelay hreservation => ?_⟩
    · rw [hcheck]
      refine if_pos (hbusy.imp ?_ ?_) <;> exact Option.ne_none_iff_isSome.1
    · have hfree : ¬ ((p.taken.hlu.relay.isSome : Prop) ∨ p.taken.oru.headReservation.isSome) := by
        rw [show p.taken.hlu.relay = none from hrelay, show p.taken.oru.headReservation = none from hreservation]
        simp
      rw [if_neg hfree] at hcheck
      refine ⟨fun hlock => headOrder_refused h ?_, fun hlock habsent => headOrder_refused h ?_, fun hlock hpresent => ?_⟩
      · rw [hcheck]
        exact if_pos (by rw [show p.taken.hlu.locked = false from hlock]; rfl)
      · rw [hcheck, if_neg (by rw [show p.taken.hlu.locked = true from hlock]; decide)]
        exact if_pos habsent
      · rw [if_neg (by rw [show p.taken.hlu.locked = true from hlock]; decide)] at hcheck
        exact headOrder_relayed h (hcheck.trans (if_neg hpresent))

/-! ## RESTART (R188) -/

/-- Settles O50: every block is the one its own rule gives. -/
theorem restartTaken : Obligations.RestartTaken := by
  intro s body h p
  obtain ⟨hheld, -⟩ := id h
  refine ⟨p.taken.restarted, orderRow_of_ready s 20 (fun _ => true) Part.restartOrder body h rfl, rfl, hheld, rfl,
    fun g => ?_, rfl, fun g => ?_, rfl, rfl, rfl, rfl, rfl, rfl, rfl, rfl, rfl⟩
  · exact Vector.getElem_map _ _
  · exact Vector.getElem_replicate _

end Sys2Proof.Machine

/-! SUPPORT. The derivation of the parameters from the samples at their points. -/

namespace Sys2Proof.Machine

/-! ## Lists of present items -/

theorem allPresent_map_some {α : Type} (l : List α) : allPresent (l.map some) = some l := by
  induction l with
  | nil => rfl
  | cons x l ih => rw [List.map_cons, allPresent, ih, Option.map_some]

theorem allPresent_eq_some {α : Type} {l : List (Option α)} {xs : List α} (h : allPresent l = some xs) : l = xs.map some := by
  induction l generalizing xs with
  | nil =>
    obtain rfl : [] = xs := Option.some.inj h
    rfl
  | cons x l ih =>
    cases x with
    | none => exact nomatch h
    | some x =>
      rw [allPresent, Option.map_eq_some_iff] at h
      obtain ⟨ys, hys, rfl⟩ := h
      rw [ih hys, List.map_cons]

theorem allPresent_eq_none {α : Type} {l : List (Option α)} : allPresent l = none ↔ none ∈ l := by
  induction l with
  | nil => simp [allPresent]
  | cons x l ih => cases x <;> simp [allPresent, ih]

/-! ## The sample of a channel at a point (R89 to R93) -/

section
variable (p : Part) (e : TraceEntry) (q : Param)

/-- The sample of a channel in the entry at a sequence. -/
def Part.sampleAt (x : Seq × Fin 7) : Option Sample := (p.tru.entryAt x.1).bind fun y => y.channels[x.2]

variable {p} in
theorem Part.sampleAt_eq_some {x : Seq × Fin 7} {v : Sample} :
    p.sampleAt x = some v ↔ ∃ y, p.tru.entryAt x.1 = some y ∧ y.channels[x.2] = some v := Option.bind_eq_some_iff

/-- The entries at points, each with the channel that is used of it. -/
def Part.entriesAt (l : List (Seq × Fin 7)) : List (Option (TraceEntry × Fin 7)) :=
  l.map fun x => (p.tru.entryAt x.1).map fun y => (y, x.2)

/-- Where every point has an entry, the samples are those of the entries. -/
theorem Part.entriesAt_present {l : List (Seq × Fin 7)} (h : ∀ x ∈ l, p.tru.entryAt x.1 ≠ none) :
    ∃ points, allPresent (p.entriesAt l) = some points ∧
      points.map (fun x => x.1.channels[x.2]) = l.map p.sampleAt := by
  induction l with
  | nil => exact ⟨[], rfl, rfl⟩
  | cons x l ih =>
    obtain ⟨hx, hl⟩ := List.forall_mem_cons.1 h
    obtain ⟨points, hpoints, hsamples⟩ := ih hl
    obtain ⟨y, hy⟩ := Option.ne_none_iff_exists'.1 hx
    refine ⟨(y, x.2) :: points, ?_, ?_⟩
    · have hcons : p.entriesAt (x :: l) = some (y, x.2) :: p.entriesAt l := by
        rw [Part.entriesAt, List.map_cons, hy]
        rfl
      rw [hcons, allPresent, hpoints, Option.map_some]
    · rw [List.map_cons, List.map_cons, hsamples, Part.sampleAt, hy]
      rfl

/-- The points of a parameter of an entry. -/
def Part.pointsOf : List (Seq × Fin 7) := paramPoints p.oru.settings e.seq q

variable {p e q}

theorem Part.derive_suppressed (h : e.suppressed.getLsbD q.val = true) : p.derive e q = .absent .suppressed := if_pos h

section
variable (hmeasured : e.suppressed.getLsbD q.val = false)
include hmeasured

theorem Part.derive_incomplete (h : ∃ x ∈ p.pointsOf e q, p.tru.entryAt x.1 = none) :
    p.derive e q = .absent .incompleteChord := by
  obtain ⟨x, hx, hnone⟩ := h
  have hentries : allPresent (p.entriesAt (p.pointsOf e q)) = none :=
    allPresent_eq_none.2 (List.mem_map.2 ⟨x, hx, by rw [hnone]; rfl⟩)
  unfold Part.entriesAt Part.pointsOf at hentries
  unfold Part.derive
  dsimp only
  rw [hmeasured, if_neg Bool.false_ne_true, hentries]

theorem Part.derive_noInput (hall : ∀ x ∈ p.pointsOf e q, p.tru.entryAt x.1 ≠ none)
    (h : none ∈ (p.pointsOf e q).map p.sampleAt) : p.derive e q = .absent .noInput := by
  obtain ⟨points, hpoints, hsamples⟩ := p.entriesAt_present hall
  unfold Part.entriesAt Part.pointsOf at hpoints
  unfold Part.derive
  dsimp only
  rw [hmeasured, if_neg Bool.false_ne_true, hpoints]
  dsimp only
  rw [hsamples, allPresent_eq_none.2 h]

theorem Part.derive_samples {vs : List Sample} (h : (p.pointsOf e q).map p.sampleAt = vs.map some) :
    p.derive e q = .value (combine p.oru.settings e.cant q (vs.map Sample.value)) (isVersine q && marksDiffer vs) := by
  have hall : ∀ x ∈ p.pointsOf e q, p.tru.entryAt x.1 ≠ none := fun x hx hnone => by
    have hsample : p.sampleAt x ∈ vs.map some := h ▸ List.mem_map_of_mem hx
    rw [Part.sampleAt, hnone] at hsample
    simp at hsample
  obtain ⟨points, hpoints, hsamples⟩ := p.entriesAt_present hall
  unfold Part.entriesAt Part.pointsOf at hpoints
  unfold Part.derive
  dsimp only
  rw [hmeasured, if_neg Bool.false_ne_true, hpoints]
  dsimp only
  rw [hsamples, h, allPresent_map_some]

end

/-- A versine is marked where its samples are all there and their marks differ (R93). -/
theorem Part.derive_mixed : (p.derive e q).mixed = true ↔ e.suppressed.getLsbD q.val = false ∧ isVersine q = true ∧
    ∃ vs : List Sample, (p.pointsOf e q).map p.sampleAt = vs.map some ∧ marksDiffer vs = true := by
  cases hmeasured : e.suppressed.getLsbD q.val
  case true =>
    rw [Part.derive_suppressed hmeasured]
    exact iff_of_false Bool.false_ne_true fun h => nomatch h.1
  case false =>
    constructor
    · intro hmixed
      by_cases hmissing : ∃ x ∈ p.pointsOf e q, p.tru.entryAt x.1 = none
      · rw [Part.derive_incomplete hmeasured hmissing] at hmixed
        exact nomatch hmixed
      have hall : ∀ x ∈ p.pointsOf e q, p.tru.entryAt x.1 ≠ none := fun x hx hnone => hmissing ⟨x, hx, hnone⟩
      cases hsamples : allPresent ((p.pointsOf e q).map p.sampleAt) with
      | none =>
        rw [Part.derive_noInput hmeasured hall (allPresent_eq_none.1 hsamples)] at hmixed
        exact nomatch hmixed
      | some vs =>
        have hvs := allPresent_eq_some hsamples
        rw [Part.derive_samples hmeasured hvs] at hmixed
        obtain ⟨hversine, hdiffer⟩ := (Bool.and_eq_true _ _).mp hmixed
        exact ⟨rfl, hversine, vs, hvs, hdiffer⟩
    · rintro ⟨-, hversine, vs, hvs, hdiffer⟩
      rw [Part.derive_samples hmeasured hvs, Derived.mixed, hversine, hdiffer]
      rfl

end

/-! ## The parameters of an emitted record (R90 to R95) -/

theorem saturateParam_eq (z : Int) : saturateParam z = max (-32767) (min 32767 z) := by
  unfold saturateParam clampInt
  split_ifs <;> omega

section
variable {p : Part} {e : TraceEntry} {q : Param}

theorem Part.emitted_absent {c : AbsenceCause} (h : p.derive e q = .absent c) : (p.emitted e).values[q] = .absent c := by
  rw [p.emitted_get, h]
  rfl

theorem Part.emitted_samples (hmeasured : e.suppressed.getLsbD q.val = false) {vs : List Sample}
    (h : (p.pointsOf e q).map p.sampleAt = vs.map some) {z : Int}
    (hz : combine p.oru.settings e.cant q (vs.map Sample.value) = z) :
    (p.emitted e).values[q] =
      .present (max (-32767) (min 32767 z)) ((p.limitRow e.cls q).grade (max (-32767) (min 32767 z))) := by
  rw [p.emitted_get, Part.derive_samples hmeasured h, hz, ← saturateParam_eq]
  rfl

theorem Part.emitted_sourceSwitch (p : Part) (e : TraceEntry) :
    (p.emitted e).sourceSwitch = true ↔ ∃ q, (p.derive e q).mixed = true := by
  show (p.deriveAll e).toList.any Derived.mixed = true ↔ _
  rw [vector_any, decide_eq_true_iff]
  exact exists_congr fun q => by rw [Part.deriveAll, Fin.getElem_fin, Vector.getElem_ofFn]

end

section
variable {α β : Type} {f : α → Option β} {x y z : α} {a b c : β}

theorem map_single (hx : f x = some a) : [x].map f = [a].map some := by
  rw [List.map_singleton, hx, List.map_singleton]

theorem map_pair (hx : f x = some a) (hy : f y = some b) : [x, y].map f = [a, b].map some := by
  rw [List.map_cons, hx, map_single hy]
  rfl

theorem map_triple (hx : f x = some a) (hy : f y = some b) (hz : f z = some c) :
    [x, y, z].map f = [a, b, c].map some := by
  rw [List.map_cons, hx, map_pair hy hz]
  rfl

/-- Three points with their items, read off the list. -/
theorem exists_of_map_triple {l : List β} (h : [x, y, z].map f = l.map some) :
    ∃ a b c, l = [a, b, c] ∧ f x = some a ∧ f y = some b ∧ f z = some c := by
  obtain _ | ⟨a, _ | ⟨b, _ | ⟨c, _ | ⟨d, l⟩⟩⟩⟩ := l <;> simp at h
  exact ⟨a, b, c, rfl, h⟩

end

/-- The versines with their channels and half chords. -/
def Settings.versines (st : Settings) : List (Param × Fin 7 × Seq) :=
  [(4, 2, BitVec.ofNat 32 (st.chordLevel / 2)), (5, 3, BitVec.ofNat 32 (st.chordLevel / 2)),
    (6, 4, BitVec.ofNat 32 (st.chordAlign / 2)), (7, 5, BitVec.ofNat 32 (st.chordAlign / 2))]

/-- The points of a versine: the middle, the one behind and the one ahead. -/
theorem Settings.versines_points (st : Settings) (i : Seq) : ∀ x ∈ st.versines, isVersine x.1 = true ∧
    paramPoints st i x.1 = [(i, x.2.1), (i - x.2.2, x.2.1), (i + x.2.2, x.2.1)] ∧
    ∀ cant a b c, combine st cant x.1 [a, b, c] = a - (b + c).tdiv 2 := by
  simp only [Settings.versines, List.forall_mem_cons]
  exact ⟨⟨rfl, rfl, fun _ _ _ _ => rfl⟩, ⟨rfl, rfl, fun _ _ _ _ => rfl⟩, ⟨rfl, rfl, fun _ _ _ _ => rfl⟩,
    ⟨rfl, rfl, fun _ _ _ _ => rfl⟩, nofun⟩

theorem Settings.versines_all (st : Settings) (q : Param) (h : isVersine q = true) : ∃ x ∈ st.versines, x.1 = q := by
  have hq : (4 : Param) = q ∨ 5 = q ∨ 6 = q ∨ 7 = q := by revert q; decide
  simpa [Settings.versines] using hq

/-- Settles O26: the tests of R90 in their order, each parameter by its points. -/
theorem parametersDerived : Obligations.ParametersDerived := by
  intro p e st i r sat measured given sample value versines uses
  have hmeasured : ∀ {q : Param}, measured q = true → e.suppressed.getLsbD q.val = false := fun h => by
    simpa [measured] using h
  have hsample : ∀ {x c v}, sample x c v → p.sampleAt (x, c) = some v := fun {x c v} h =>
    (Part.sampleAt_eq_some (x := (x, c))).2 h
  have hpoint : ∀ x ∈ versines, p.pointsOf e x.1 = [(i, x.2.1), (i - x.2.2, x.2.1), (i + x.2.2, x.2.1)] :=
    fun x hx => (st.versines_points i x hx).2.1
  have huses : ∀ x ∈ uses, p.pointsOf e x.1 = x.2 := by
    simp only [uses, List.cons_append, List.nil_append, List.forall_mem_cons]
    refine ⟨rfl, rfl, rfl, rfl, fun x hx => ?_⟩
    obtain ⟨y, hy, rfl⟩ := List.mem_map.1 hx
    exact hpoint y hy
  refine ⟨⟨rfl, rfl, rfl, rfl, rfl, rfl, rfl⟩, fun q hq => ?_, fun a b hq ⟨m, ha⟩ ⟨n, hb⟩ => ?_, fun a hq ⟨m, ha⟩ => ?_,
    fun a b hq ⟨m, ha⟩ ⟨n, hb⟩ => ?_, fun a b hq ⟨m, ha⟩ ⟨n, hb⟩ => ?_,
    fun x hx hq a b c ⟨m, ha⟩ ⟨n, hb⟩ ⟨k, hc⟩ => ?_, fun x hx hq => ⟨fun hmissing => ?_, fun hall hnone => ?_⟩, ?_⟩
  · exact Part.emitted_absent (Part.derive_suppressed (by simpa [measured] using hq))
  · exact Part.emitted_samples (vs := [⟨a, m⟩, ⟨b, n⟩]) (hmeasured hq) (map_pair (hsample ha) (hsample hb)) rfl
  · exact Part.emitted_samples (vs := [⟨a, m⟩]) (hmeasured hq) (map_single (hsample ha)) rfl
  · exact Part.emitted_samples (vs := [⟨a, m⟩, ⟨b, n⟩]) (hmeasured hq) (map_pair (hsample ha) (hsample hb)) rfl
  · exact Part.emitted_samples (vs := [⟨a, m⟩, ⟨b, n⟩]) (hmeasured hq) (map_pair (hsample ha) (hsample hb)) rfl
  · obtain ⟨-, -, hcombine⟩ := st.versines_points i x hx
    refine Part.emitted_samples (vs := [⟨a, m⟩, ⟨b, n⟩, ⟨c, k⟩]) (hmeasured hq) ?_ (hcombine _ a b c)
    rw [hpoint x hx]
    exact map_triple (hsample ha) (hsample hb) (hsample hc)
  · rw [← huses x hx] at hmissing
    exact Part.emitted_absent (Part.derive_incomplete (hmeasured hq) hmissing)
  · rw [← huses x hx] at hall hnone
    obtain ⟨y, hy, t, hentry, hchannel⟩ := hnone
    refine Part.emitted_absent (Part.derive_noInput (hmeasured hq) hall (List.mem_map.2 ⟨y, hy, ?_⟩))
    rw [Part.sampleAt, hentry]
    exact hchannel
  · rw [p.emitted_sourceSwitch]
    constructor
    · rintro ⟨q, hmixed⟩
      obtain ⟨hq, hversine, vs, hvs, hdiffer⟩ := Part.derive_mixed.1 hmixed
      obtain ⟨x, hx, rfl⟩ := st.versines_all q hversine
      rw [hpoint x hx] at hvs
      obtain ⟨a, b, c, rfl, ha, hb, hc⟩ := exists_of_map_triple hvs
      refine ⟨x, hx, congrArg (!·) hq, a, b, c, ?_, ?_, ?_, by simpa [marksDiffer] using hdiffer⟩
      · exact Part.sampleAt_eq_some.1 ha
      · exact Part.sampleAt_eq_some.1 hb
      · exact Part.sampleAt_eq_some.1 hc
    · rintro ⟨x, hx, hq, a, b, c, ha, hb, hc, hmarks⟩
      obtain ⟨hversine, -, -⟩ := st.versines_points i x hx
      refine ⟨x.1, Part.derive_mixed.2 ⟨hmeasured hq, hversine, [a, b, c], ?_, ?_⟩⟩
      · rw [hpoint x hx]
        exact map_triple (hsample ha) (hsample hb) (hsample hc)
      · simpa [marksDiffer] using hmarks

end Sys2Proof.Machine

/-! SUPPORT. The codes of the links: numbers in bytes, the CRC, the header's check code and the frames. -/

namespace Sys2Proof.Machine

/-! ## Numbers in bytes (section 3.3) -/

theorem field_middle (pre l post : List Byte) : ((pre ++ l ++ post).drop pre.length).take l.length = l := by
  rw [List.append_assoc, List.drop_left, List.take_left]

theorem bytesOfNat_length (k n : Nat) : (bytesOfNat k n).length = k := by
  induction k generalizing n with
  | zero => rfl
  | succ k ih => rw [bytesOfNat, List.length_append, ih, List.length_singleton]

/-- The byte of each weight. -/
theorem bytesOfNat_getD (k n : Nat) : ∀ i < k, (bytesOfNat k n).reverse.getD i 0 = BitVec.ofNat 8 (n / 256 ^ i) := by
  induction k generalizing n with
  | zero => exact fun i hi => nomatch hi
  | succ k ih =>
    intro i hi
    rw [bytesOfNat, List.reverse_append, List.reverse_singleton]
    cases i with
    | zero => simp
    | succ i =>
      rw [List.singleton_append, List.getD_cons_succ, ih _ i (by omega), Nat.div_div_eq_div_mul, pow_succ']

/-! ## The CRC (section 3.3) -/

theorem crc16_append (l : List Byte) (b : Byte) : crc16 (l ++ [b]) =
    crcShift^[8] (crc16 l ^^^ (b.zeroExtend 16 <<< 8)) := by
  rw [crc16, List.foldl_append]
  rfl

theorem crcShift_eq : crcShift = fun x : BitVec 16 => if x.getLsbD 15 = true then (x <<< 1) ^^^ 0x1021#16 else x <<< 1 := by
  funext x
  rw [crcShift, BitVec.msb_eq_getLsbD_last]

theorem payloadCrcOk_iff (l : List Byte) (a b : Byte) : payloadCrcOk (l ++ [a, b]) = true ↔ [a, b] = crcBytes l := by
  have hlength : (l ++ [a, b]).length - 2 = l.length := by rw [List.length_append]; rfl
  rw [payloadCrcOk, hlength, List.take_left, List.drop_left, beq_iff_eq, eq_comm]

/-! ## The check code of the header is linear (R196) -/

theorem xorAll_cons (b : Bool) (l : List Bool) : xorAll (b :: l) = xor b (xorAll l) := by
  have hstart : ∀ (l : List Bool) (a : Bool), l.foldl (fun a b => xor a b) a = xor a (xorAll l) := fun l => by
    induction l with
    | nil => exact fun a => (Bool.xor_false a).symm
    | cons c l ih =>
      intro a
      rw [xorAll, List.foldl_cons, List.foldl_cons, ih, ih, Bool.false_xor, Bool.xor_assoc]
  rw [xorAll, List.foldl_cons, hstart, Bool.false_xor]

theorem xorAll_map_xor {α : Type} (l : List α) (f g : α → Bool) :
    xorAll (l.map fun x => xor (f x) (g x)) = xor (xorAll (l.map f)) (xorAll (l.map g)) := by
  induction l with
  | nil => rfl
  | cons x l ih =>
    simp only [List.map_cons, xorAll_cons, ih]
    cases f x <;> cases g x <;> simp

/-- One check bit beside its received bit. -/
def checkDiffers (w : BitVec 32) (i : Nat) : Bool := xor (checkBit w i) (w.getLsbD i)

theorem checkDiffers_xor (v w : BitVec 32) (i : Nat) : checkDiffers (v ^^^ w) i = xor (checkDiffers v i) (checkDiffers w i) := by
  have hcheck : checkBit (v ^^^ w) i = xor (checkBit v i) (checkBit w i) := by
    simp only [checkBit, BitVec.getLsbD_xor]
    exact xorAll_map_xor _ _ _
  rw [checkDiffers, hcheck, BitVec.getLsbD_xor, checkDiffers, checkDiffers]
  cases checkBit v i <;> cases checkBit w i <;> simp

/-- Five bits as a number. -/
def bitsNumber (a b c d e : Bool) : Nat := Nat.bit a (Nat.bit b (Nat.bit c (Nat.bit d (Nat.bit e 0))))

theorem headerSyndrome_eq (w : BitVec 32) : headerSyndrome w =
    bitsNumber (checkDiffers w 0) (checkDiffers w 1) (checkDiffers w 2) (checkDiffers w 3) (checkDiffers w 4) := by
  have hweight : ∀ (b : Bool) (k : Nat), (if b = true then k else 0) = k * b.toNat := fun b k => by cases b <;> simp
  simp only [headerSyndrome, bitsNumber, Nat.bit_val, hweight, checkDiffers]
  omega

theorem bitsNumber_xor (a b c d e a' b' c' d' e' : Bool) :
    bitsNumber (xor a a') (xor b b') (xor c c') (xor d d') (xor e e') = bitsNumber a b c d e ^^^ bitsNumber a' b' c' d' e' := by
  simp only [bitsNumber, Nat.xor_bit, Nat.xor_zero, Bool.bne_eq_xor]

theorem bitsNumber_lt (a b c d e : Bool) : bitsNumber a b c d e < 32 := by
  have ha := a.toNat_le
  have hb := b.toNat_le
  have hc := c.toNat_le
  have hd := d.toNat_le
  have he := e.toNat_le
  simp only [bitsNumber, Nat.bit_val]
  omega

theorem headerSyndrome_xor (v w : BitVec 32) : headerSyndrome (v ^^^ w) = headerSyndrome v ^^^ headerSyndrome w := by
  simp only [headerSyndrome_eq, checkDiffers_xor, bitsNumber_xor]

theorem headerSyndrome_lt (w : BitVec 32) : headerSyndrome w < 32 := by
  rw [headerSyndrome_eq]
  exact bitsNumber_lt _ _ _ _ _

theorem headerParity_xor (v w : BitVec 32) : headerParity (v ^^^ w) = xor (headerParity v) (headerParity w) := by
  simp only [headerParity, BitVec.getLsbD_xor]
  exact xorAll_map_xor _ _ _

/-- What the check code makes of one bit. -/
theorem headerParity_bit : ∀ i : Fin 32, headerParity (1#32 <<< i.val) = true := by decide +kernel

theorem headerBitAt_bit : ∀ i : Fin 32, headerBitAt (headerSyndrome (1#32 <<< i.val)) = i.val := by decide +kernel

/-- Five check bits alone are their own syndrome. -/
theorem headerSyndrome_check : ∀ c : Fin 32, headerSyndrome (BitVec.ofNat 32 c.val) = c.val := by decide +kernel

/-! ## A header word built with its check bits (R196) -/

theorem or_eq_xor_of_disjoint {n : Nat} {x y : BitVec n} (h : ∀ i < n, x.getLsbD i = true → y.getLsbD i = false) :
    x ||| y = x ^^^ y := by
  refine BitVec.eq_of_getLsbD_eq fun i hi => ?_
  have hbit := h i hi
  rw [BitVec.getLsbD_or, BitVec.getLsbD_xor]
  cases hx : x.getLsbD i
  · simp
  · simp [hbit hx]

/-- The low six bits of the data are clear. -/
theorem headerData_low (h : Header) : ∀ i < 6, (headerData h).getLsbD i = false := by
  intro i hi
  rw [headerData, BitVec.getLsbD_setWidth, BitVec.getLsbD_append, if_pos hi]
  simp

/-- The check bits of a header, in their places. -/
def checkBits (h : Header) : BitVec 32 := BitVec.ofNat 32 (headerSyndrome (headerData h))

theorem checkBits_high (h : Header) {i : Nat} (hi : 5 ≤ i) : (checkBits h).getLsbD i = false := by
  have hlt := headerSyndrome_lt (headerData h)
  have hpow : 32 ≤ 2 ^ i := Nat.pow_le_pow_right (n := 2) (by decide) hi
  rw [checkBits, BitVec.getLsbD_ofNat, Nat.testBit_lt_two_pow (hlt.trans_le hpow), Bool.and_false]

/-- The overall check bit is bit 5. -/
theorem parityBit_off (b : Bool) {i : Nat} (hi : i ≠ 5) : (if b = true then 1#32 <<< 5 else 0#32).getLsbD i = false := by
  cases b
  · simp
  · rw [if_pos rfl, BitVec.getLsbD_shiftLeft, BitVec.getLsbD_one]
    by_cases hlow : i < 5
    · simp [hlow]
    · simp [show i - 5 ≠ 0 by omega]

theorem encodeHeader_eq (h : Header) : encodeHeader h =
    headerData h ^^^ checkBits h ^^^ (if headerParity (headerData h ^^^ checkBits h) = true then 1#32 <<< 5 else 0#32) := by
  have hcheck : (BitVec.ofNat 5 (headerSyndrome (headerData h))).setWidth 32 = checkBits h := by
    have hlt := headerSyndrome_lt (headerData h)
    refine BitVec.eq_of_toNat_eq ?_
    rw [BitVec.toNat_setWidth, BitVec.toNat_ofNat, checkBits, BitVec.toNat_ofNat, Nat.mod_eq_of_lt (b := 2 ^ 5) hlt]
  have hor : headerData h ||| checkBits h = headerData h ^^^ checkBits h := or_eq_xor_of_disjoint fun i _ hi => by
    refine checkBits_high h (Nat.le_of_not_lt fun hlow => ?_)
    rw [headerData_low h i (by omega)] at hi
    exact Bool.false_ne_true hi
  have hfive : (headerData h ^^^ checkBits h).getLsbD 5 = false := by
    rw [BitVec.getLsbD_xor, headerData_low h 5 (by decide), checkBits_high h le_rfl]
    rfl
  unfold encodeHeader
  dsimp only
  rw [hcheck, hor]
  split
  · refine or_eq_xor_of_disjoint fun i _ hi => ?_
    have hne : i ≠ 5 := by
      rintro rfl
      rw [hfive] at hi
      exact Bool.false_ne_true hi
    exact parityBit_off true hne
  · exact (BitVec.xor_zero).symm

theorem headerSyndrome_encode (h : Header) : headerSyndrome (encodeHeader h) = 0 := by
  have hcheck : headerSyndrome (checkBits h) = headerSyndrome (headerData h) :=
    headerSyndrome_check ⟨_, headerSyndrome_lt (headerData h)⟩
  have hparity : ∀ b : Bool, headerSyndrome (if b = true then 1#32 <<< 5 else 0#32) = 0 := by decide
  rw [encodeHeader_eq, headerSyndrome_xor, headerSyndrome_xor, hcheck, Nat.xor_self, hparity]
  rfl

theorem headerParity_encode (h : Header) : headerParity (encodeHeader h) = false := by
  have hparity : ∀ b : Bool, headerParity (if b = true then 1#32 <<< 5 else 0#32) = b := by decide
  rw [encodeHeader_eq, headerParity_xor, hparity, Bool.xor_self]

/-- The fields lie above the check bits. -/
theorem extract_encode (h : Header) {k n : Nat} (hk : 6 ≤ k) :
    (encodeHeader h).extractLsb' k n = (headerData h).extractLsb' k n := by
  have hparity : ∀ (b : Bool) (i : Nat), 6 ≤ i → (if b = true then 1#32 <<< 5 else 0#32).getLsbD i = false :=
    fun b i hi => parityBit_off b (by omega)
  refine BitVec.eq_of_getLsbD_eq fun i hi => ?_
  rw [BitVec.getLsbD_extractLsb', BitVec.getLsbD_extractLsb', encodeHeader_eq, BitVec.getLsbD_xor, BitVec.getLsbD_xor,
    checkBits_high h (by omega), hparity _ _ (by omega), Bool.xor_false, Bool.xor_false]

section
variable {n m : Nat} (x : BitVec n) (y : BitVec m)

theorem extract_append_skip {k : Nat} (l : Nat) (h : m ≤ k) : (x ++ y).extractLsb' k l = x.extractLsb' (k - m) l := by
  refine BitVec.eq_of_getLsbD_eq fun i hi => ?_
  rw [BitVec.getLsbD_extractLsb', BitVec.getLsbD_extractLsb', BitVec.getLsbD_append, if_neg (by omega),
    Nat.sub_add_comm h]

theorem extract_append_take : (x ++ y).extractLsb' 0 m = y := by
  refine BitVec.eq_of_getLsbD_eq fun i hi => ?_
  rw [BitVec.getLsbD_extractLsb', Nat.zero_add, BitVec.getLsbD_append, if_pos hi, decide_eq_true hi, Bool.true_and]

end

/-- The fields of the data in their places (section 12.1). -/
theorem headerData_fields (h : Header) :
    (headerData h).extractLsb' 28 4 = h.address ∧ (headerData h).extractLsb' 26 2 = h.kind.code ∧
    (headerData h).extractLsb' 18 8 = h.sequence ∧ (headerData h).extractLsb' 10 8 = h.shape ∧
    (headerData h).extractLsb' 8 2 = 0#2 ∧ (headerData h).extractLsb' 6 2 = h.kind.code := by
  have hdata : headerData h =
      h.address ++ h.kind.code ++ h.sequence ++ h.shape ++ (0#2 : BitVec 2) ++ h.kind.code ++ (0#6 : BitVec 6) :=
    BitVec.setWidth_eq _
  rw [hdata]
  refine ⟨?_, ?_, ?_, ?_, ?_, ?_⟩
  · iterate 6 rw [extract_append_skip _ _ _ (by decide)]
    exact BitVec.extractLsb'_eq_self
  · iterate 5 rw [extract_append_skip _ _ _ (by decide)]
    exact extract_append_take _ _
  · iterate 4 rw [extract_append_skip _ _ _ (by decide)]
    exact extract_append_take _ _
  · iterate 3 rw [extract_append_skip _ _ _ (by decide)]
    exact extract_append_take _ _
  · iterate 2 rw [extract_append_skip _ _ _ (by decide)]
    exact extract_append_take _ _
  · rw [extract_append_skip _ _ _ (by decide)]
    exact extract_append_take _ _

theorem headerFields_encode (h : Header) : headerFields (encodeHeader h) = h := by
  obtain ⟨haddress, hkind, hsequence, hshape, -⟩ := headerData_fields h
  have hcode : HeadKind.ofCode h.kind.code = h.kind := by cases h.kind <;> rfl
  unfold headerFields
  rw [extract_encode h (by decide), extract_encode h (by decide), extract_encode h (by decide), extract_encode h (by decide),
    haddress, hkind, hsequence, hshape, hcode]

/-- A header whose fields keep to its kind's limits is possible (R6). -/
theorem headerPossible_encode (h : Header) (hsample : h.kind = .sample → h.channels ≤ 16)
    (hshape : h.kind = .marker ∨ h.kind = .status → h.shape = 0) (hreply : h.kind = .reply → h.replyCount ≤ 32) :
    headerPossible (encodeHeader h) = true := by
  obtain ⟨-, hkind, -, -, hzero, hcopy⟩ := headerData_fields h
  unfold headerPossible
  rw [headerFields_encode, extract_encode h (by decide), extract_encode h (by decide), extract_encode h (by decide), hzero,
    hcopy, hkind, beq_self_eq_true, beq_self_eq_true]
  cases hk : h.kind
  · simpa [hk] using hsample hk
  · simpa [hk] using hshape (.inl hk)
  · simpa [hk] using hshape (.inr hk)
  · simpa [hk] using hreply hk

/-! ## Errors in the header (R6, R196) -/

section
variable {w : BitVec 32} (hsyndrome : headerSyndrome w = 0) (hparity : headerParity w = false)
include hsyndrome hparity

theorem checkHeader_clean : checkHeader w = .clean w := by
  rw [checkHeader, hparity, if_neg Bool.false_ne_true, if_pos hsyndrome]

theorem checkHeader_one (i : Fin 32) : checkHeader (w ^^^ (1#32 <<< i.val)) = .corrected w := by
  have hodd : headerParity (w ^^^ (1#32 <<< i.val)) = true := by
    rw [headerParity_xor, hparity, headerParity_bit]
    rfl
  have hplace : headerBitAt (headerSyndrome (w ^^^ (1#32 <<< i.val))) = i.val := by
    rw [headerSyndrome_xor, hsyndrome, Nat.zero_xor, headerBitAt_bit]
  rw [checkHeader, if_pos hodd, hplace, BitVec.xor_assoc, BitVec.xor_self, BitVec.xor_zero]

theorem checkHeader_two {i j : Fin 32} (hne : i ≠ j) :
    checkHeader (w ^^^ (1#32 <<< i.val) ^^^ (1#32 <<< j.val)) = .uncorrectable := by
  have heven : headerParity (w ^^^ (1#32 <<< i.val) ^^^ (1#32 <<< j.val)) = false := by
    rw [headerParity_xor, headerParity_xor, hparity, headerParity_bit, headerParity_bit]
    rfl
  have hseen : headerSyndrome (w ^^^ (1#32 <<< i.val) ^^^ (1#32 <<< j.val)) ≠ 0 := by
    rw [headerSyndrome_xor, headerSyndrome_xor, hsyndrome, Nat.zero_xor]
    intro hzero
    have hsame : headerSyndrome (1#32 <<< i.val) = headerSyndrome (1#32 <<< j.val) := Nat.xor_eq_zero_iff.1 hzero
    have hplaces := congrArg headerBitAt hsame
    rw [headerBitAt_bit, headerBitAt_bit] at hplaces
    exact hne (Fin.ext hplaces)
  rw [checkHeader, heven, if_neg Bool.false_ne_true, if_neg hseen]

end

/-- What the check code's outcome is decoded to (R6). -/
def headerDecoded : HeaderCheck → Option (Header × Bool)
  | .clean v => if headerPossible v then some (headerFields v, false) else none
  | .corrected v => if headerPossible v then some (headerFields v, true) else none
  | .uncorrectable => none

theorem decodeHeader_eq (w : BitVec 32) : decodeHeader w = headerDecoded (checkHeader w) := by
  unfold decodeHeader
  cases checkHeader w <;> rfl

theorem headerDecoded_clean {v : BitVec 32} (h : headerPossible v = true) :
    headerDecoded (.clean v) = some (headerFields v, false) := if_pos h

theorem headerDecoded_corrected {v : BitVec 32} (h : headerPossible v = true) :
    headerDecoded (.corrected v) = some (headerFields v, true) := if_pos h

/-! ## The codes of section 12.3 -/

/-- Settles O52: numbers, CRC, header, frames, bodies and codes, each by its own lemma. -/
theorem codesDecode : Obligations.CodesDecode := by
  refine ⟨⟨fun pre l post => ?_, fun k n => ⟨bytesOfNat_length k n, bytesOfNat_getD k n⟩, fun k z => ?_⟩,
    ⟨rfl, fun l b => ?_⟩, fun _ => rfl, payloadCrcOk_iff, fun hd hsample hshape hreply => ?_, fun kind body hlength => ?_,
    ⟨GeometryRecord.body_eq, Report.body_eq, ControlFrame.body_eq, MirrorFrame.body_eq⟩, ?_⟩
  · intro n
    have hn : natOfBytes l = n := natOfBytes_eq_sum l
    rw [fieldNat, fieldInt, field_middle, intOfBytes, hn]
    exact ⟨rfl, by rw [Nat.cast_pow, Nat.cast_ofNat]⟩
  · rw [bytesOfInt]
    push_cast
    rfl
  · rw [crc16_append, crcShift_eq]
  · have hpossible := headerPossible_encode hd hsample hshape hreply
    have hsyndrome := headerSyndrome_encode hd
    have hparity := headerParity_encode hd
    refine ⟨?_, fun i => ?_, fun i j hne => ?_⟩
    · rw [decodeHeader_eq, checkHeader_clean hsyndrome hparity, headerDecoded_clean hpossible, headerFields_encode]
    · rw [decodeHeader_eq, checkHeader_one hsyndrome hparity, headerDecoded_corrected hpossible, headerFields_encode]
    · rw [decodeHeader_eq, checkHeader_two hsyndrome hparity hne]
      rfl
  · have hcrc : ∀ l, (crcBytes l).length = 2 := fun l => bytesOfNat_length 2 _
    rw [outboundBytes_laid]
    exact ⟨(inboundOk_laid_iff (hcrc _) hlength).2 rfl, inboundLength_laid hlength, inboundBody_laid hlength⟩
  · exact ⟨rfl, rfl, rfl, rfl, rfl, rfl, fun _ _ => rfl, rfl, rfl, rfl, rfl⟩

end Sys2Proof.Machine
